-- ==== Sys2Proof/Word.lean ====
section
/-!
DEFINITION. The word types of the device: 32-bit registers, bytes of the memories, 64-bit phase stamps.
-/

namespace Sys2Proof.Machine

/-- A register (R36). -/
abbrev Word := BitVec 32

/-- A byte of sequence memory, a structure bank, a capture buffer or a NOR region. -/
abbrev Byte := BitVec 8

/-- A phase stamp: cycle count above a fraction in units of 2^-32 cycle (R12). -/
abbrev Stamp := BitVec 64

/-- A host bus address (64 bits), used by DMA and MSI-X. -/
abbrev BusAddr := BitVec 64

end Sys2Proof.Machine
end

