-- ==== Sys2Proof/Syntax.lean ====
section
/-!
DEFINITION. The commands and events of the device: one constructor per row of spec/opcode_table.json, with its operands.
A write row names the unit it addresses and carries the bits of the data word the row's rule uses; an event row names the
unit it happens in. `cyc` is the core clock cycle, 0 to 399, of the present period in which an asynchronous event falls.
-/

namespace Sys2Proof

open Machine (Word Byte)

/-- A channel n (R11). -/
abbrev Ch := Fin 512
/-- A global cluster g = 4 t + c. -/
abbrev Clu := Fin 16
/-- A commit group: clusters 0 to 15, and 16 for the hub (R58). -/
abbrev Grp := Fin 17
/-- A global quad. -/
abbrev Quad := Fin 128
/-- A tile. -/
abbrev Tile := Fin 4
/-- An event-lane group: 2 g + i for group i of cluster g (R53). -/
abbrev Elg := Fin 32
/-- An event lane: ball EVL_nnn (R53). -/
abbrev Lane := Fin 128
/-- A DMA channel. -/
abbrev Dma := Fin 32

/-- The V or the I window of a channel (R212). -/
inductive Win where
  | v | i
deriving DecidableEq, Repr

/-- An item of the engine's schedule that a residue check covers (Table 04-1, Table 04-6). -/
inductive EngItem where
  | setpoint | ff | injection | bridging | cal | slot0 | slot1 | slot2 | slot3 | selector | model
deriving DecidableEq, Repr

/-- A residue failure of one channel in the coming period: its item, and whether the recheck passes (R116, R117). -/
structure Upset where
  ch : Nat
  item : EngItem
  recheckOk : Bool
deriving DecidableEq, Repr

/-- A disagreement of the two exponent networks: the stage (0 to 16) and the faulty copy's exponent (R109). -/
structure ExpFault where
  clu : Nat
  stage : Nat
  exp : Int
deriving DecidableEq, Repr

/-- What every received Skidline frame has: the port (false UP, true DN), its SRC and SEQ, a violation of kinds 1 to 4 of Table 16-5
that its receiver finds (0: none), whether it came stomped. -/
structure SklHdr where
  dn : Bool
  src : Nat
  seq : Nat
  viol : Nat
  stomped : Bool
deriving DecidableEq, Repr

/-- A valid entry of a SUM frame. -/
structure SklSum where
  sum : Int
  gang : Nat
  count : Nat
deriving DecidableEq, Repr

/-- What the outside gives the device at one sample tick: slice codes (two's complement, 20 bits; under chopping those of the inputs as
the slice samples them, exchanged at odd ticks, before the slice negates the code: R178) by channel and by quad for the Welt slices,
auxiliary inputs in units of R13, return currents (nA) and ball voltages (microvolts) of channels in current mode, the upsets of the
period, and the channels whose track takes a sample of a staged granule with an uncorrectable error (R246), PHREF_P - PHREF_N in
microvolts (R80), whether another driver holds FAULT_N low (R390), of the faults of Table 19-4 those that no command shows: an LPDDR5
stack that has failed, and the tiles whose fabric port has; the SUM frames that arrive in the period this tick begins and are complete by
its cycle 160 (R343); and the slices under calibration, by quad and number, of which a reading of a tied input lay at an end code, or a
weight at 0 or more than twice its ideal, in the period that ends (R302); the channels whose sample comes from a granule that the staging
SRAM itself gives with an uncorrectable error; how many errors the period's reads of memories other than by the host and the scrubber had
corrected (R387); and whether TRST_N is low (R398). Unlisted entries are 0. -/
structure TickIn where
  v : List (Nat × Int) := []
  i : List (Nat × Int) := []
  weltV : List (Nat × Int) := []
  weltI : List (Nat × Int) := []
  aux : List (Nat × Int) := []
  auxStale : List Nat := []
  iret : List (Nat × Int) := []
  vball : List (Nat × Int) := []
  upsets : List Upset := []
  expFaults : List ExpFault := []
  seqUe : List Nat := []
  phref : Int := 0
  faultLow : Bool := false
  stackBad : Bool := false
  portBad : List Nat := []
  sums : List (SklHdr × List SklSum) := []
  sliceBad : List (Nat × Nat) := []
  stageUe : List Nat := []
  ce : Nat := 0
  trstLow : Bool := false
deriving DecidableEq, Repr

/-- The four header words of a TLP. -/
structure Tlp where
  h0 : Word
  h1 : Word
  h2 : Word
  h3 : Word
deriving DecidableEq, Repr

/-- A host request as it arrived: its virtual channel and header. -/
structure Req where
  vc : Nat
  hdr : Tlp
deriving DecidableEq, Repr

/-- A host request for a register write, with the bits of that register that the device sets in the core clock cycle of the write (R16). -/
structure WriteReq where
  req : Req
  same : Word
deriving DecidableEq, Repr

/-- What a read of sequence memory meets: how many correctable errors, and the address of an uncorrectable one (R39). -/
structure ReadEcc where
  ce : Nat
  ue : Option Nat
deriving DecidableEq, Repr

/-- A host read of BAR0 or BAR4 as it arrived, and what it meets where a memory of Table 19-2 answers it. -/
structure RegRead where
  req : Req
  ecc : ReadEcc := ⟨0, none⟩
deriving DecidableEq, Repr

/-- A scan of the boundary register: the levels that its cells capture where the device does not give them, and the bits then shifted in, each
with bit 0 at the TDO end, and how many they are (R401). Update-DR loads the cells with what the shift leaves. -/
structure BScan where
  sampled : Nat
  shifted : Nat
  shifts : Nat := 1000
deriving DecidableEq, Repr

/-- Use of an instruction that selects the boundary register: `load`, an Update-IR of it first, without which it must be in the instruction
register; then a scan, if any. -/
structure TapScan where
  scan : Option BScan := none
  load : Bool := true
deriving DecidableEq, Repr

/-- A plane of an event-lane block whose line has an uncorrectable error, in sequence memory or in the staging SRAM (R255, Table 19-2). -/
structure PlaneUe where
  plane : Nat
  staged : Bool := false
deriving DecidableEq, Repr

/-- An edge of a ball: rising or falling, and its core clock cycle in the present period (R3). -/
structure Edge where
  rising : Bool
  cyc : Nat
deriving DecidableEq, Repr

/-- What stands ready at a DMA burst: the channels that have their read data or buffer space, as bits (R275), the bytes of the source
where that is host memory, in the order in which the burst reads them, and the beats of 32 bytes that it moves before a channel of a higher
priority becomes ready and takes the data path (8 or more: none does). -/
structure BurstIn where
  ready : Nat
  host : List Byte
  beats : Nat
deriving DecidableEq, Repr

/-- What a core was doing when it was lost (R348, R349): no mailbox command, one, or one that had begun to write NOR. -/
inductive CoreWork where
  | idle | command | store
deriving DecidableEq, Repr

/-- Settings of configuration space that host software chooses among the features of Table 15-1 (R310): Bus Master Enable; 10-bit tags;
ECRC generation and checking; reporting of correctable, non-fatal and fatal errors and of Unsupported Requests; the AER masks and the
severity of uncorrectable errors; the traffic classes of VC1, as bits, while it is enabled. Their values at reset are those of the PCIe
specification (PRESUMED, assumption 33). -/
structure CfgRegs where
  busMaster : Bool := false
  tag10 : Bool := false
  ecrcGen : Bool := false
  ecrcCheck : Bool := false
  report : Bool × Bool × Bool × Bool := (false, false, false, false)
  uncMask : Word := 0
  uncSev : Word := 0x00462030
  corMask : Word := 0x2000
  vc1 : Option (BitVec 8) := none
deriving DecidableEq, Repr

/-- The rest of a configuration request: the power state D3hot, Max Payload Size and Max Read Request Size as codes (128 bytes times 2
to the code; R312), a BAR register written (R32), the settings of CfgRegs, ones written to the AER status registers (uncorrectable,
correctable), and the request itself. -/
structure CfgIn where
  d3hot : Bool
  limits : Fin 6 × Fin 6
  bar : Option (Fin 6 × Word)
  regs : CfgRegs := {}
  clear : Word × Word := (0, 0)
  rq : Req := ⟨0, ⟨0, 0, 0, 0⟩⟩
deriving DecidableEq, Repr

/-- What a slice's calibration measured (R295 to R298): quad and slice number, the tap values nearest to the ideal, gain and offset
of halves A and B in register units, the residual in units of 0.1 ppm, whether a tied input read an end code and whether a
weight measured 0 or more than twice its ideal (R302). -/
structure SliceMeas where
  quad : Nat
  slice : Nat
  taps : List Int
  gainA : Int
  gainB : Int
  ofsA : Int
  ofsB : Int
  res : Nat
  endCode : Bool
  badWeight : Bool
deriving DecidableEq, Repr

/-- What a window's trim measured (R300, R305): for the HI and the LO comparator the tap values nearest to the ideal (offset,
gain) and the residual in units of 50 microvolts. -/
structure TrimMeas where
  hi : Int × Int
  lo : Int × Int
  resHi : Nat
  resLo : Nat
deriving DecidableEq, Repr

/-- A valid entry of a SHARE frame (Table 16-3): leader's I sample, gang, leader channel, range code. -/
structure SklShare where
  sample : Int
  gang : Nat
  leader : Nat
  range : Nat
deriving DecidableEq, Repr

/-- An ENUM frame's payload. -/
structure SklEnum where
  pos : Nat
  last : Bool
  strap : Bool
  len : Nat
  uid : Nat
  silicon : Nat
deriving DecidableEq, Repr

/-- How a mailbox command's access to memory ends: as it should, with an uncorrectable error reading its area, or with a NOR erase or
write that fails verification (Table 17-7). -/
inductive MbxFault where
  | none | ecc | flash
deriving DecidableEq, Repr

/-- What a boot step meets (Table 18-6): the DETAIL of its primary and alternate method (none: OK), the milliseconds that its primary method
takes, its DATA word, and the milliseconds that its alternate takes. A method that takes more than its limit times out, and one that takes
more than twice its limit hangs the boot (R381). -/
structure StepRes where
  step : Nat
  primary : Option Nat
  alt : Option Nat
  ms : Nat
  data : Nat
  altMs : Nat := 0
deriving DecidableEq, Repr

/-- What a boot meets: steps that do not simply pass, tiles that fail outside their quads, quads BIST finds suspect, REFCLK inputs that
are good, and the places, newest first, of Tally records whose CRC fails (R383). -/
structure BootIn where
  steps : List StepRes := []
  badTiles : Nat := 0
  suspect : List Nat := []
  refA : Bool := true
  refB : Bool := true
  badRecs : List Nat := []
deriving DecidableEq, Repr

/-- Why the phase base loses its reference (R86). -/
inductive LossCause where
  | missing | amplitude | quadrature
deriving DecidableEq, Repr

/-- The commands: one constructor per row of the table, in its order. -/
inductive Instr where
  | sampleTick (inp : TickIn)
  | registerWrite (addr : Nat) (data : Word) (be : Nat) (rq : WriteReq)
  | readLoLatch (addr : Nat) (rd : RegRead)
  | bar2Read (addr : Nat) (len : Nat) (ecc : ReadEcc) (rq : Req)
  | bar2Write (addr : Nat) (bytes : List Byte)
  | bar0RequestAbort (write : Bool) (addr : Nat) (rq : Req)
  | standbyBankWrite (addr : Nat) (data : Word) (be : Nat) (rq : Req)
  | validate (g : Clu)
  | validationDone (g : Clu)
  | invalidate (g : Clu)
  | commit (g : Grp) (bank : Bool) (at_ : Bool)
  | commitTick (g : Grp)
  | commitCancel (g : Grp)
  -- an edge of PHREF in PULSE mode, rising or falling, at core clock cycle `cyc`; in SINE mode the crossing that the samples have shown
  | referenceEvent (rising : Bool) (cyc : Nat)
  | indexPulse (e : Edge)
  -- the levels of the encoder tracks A and B from core clock cycle `cyc` on
  | quadCount (a b : Bool) (cyc : Nat)
  | refLoss (cause : LossCause)
  | laneFail (q : Quad)
  | residueTest (g : Clu) (lane : Fin 8) (chan : Fin 4)
  | guardTimerExpiry (n : Ch)
  | coefSwapRequest (n : Ch) (at_ : Bool)
  | coefSwapCancel (n : Ch)
  | coefSwapTick (n : Ch)
  | modelReinit (n : Ch)
  | modelSettleEnd (n : Ch)
  | plausibilityFault (n : Ch)
  | injectionStart (n : Ch) (at_ : Bool)
  | injectionBegin (n : Ch)
  | injectionStop (n : Ch)
  | injectionLenEnd (n : Ch)
  | captureArm (g : Clu)
  | captureStop (g : Clu)
  | captureForce (g : Clu)
  | captureDone (g : Clu)
  | rangeRequestI (n : Ch) (range : Fin 8) (at_ : Bool) (cancel : Bool)
  | rangeRequestV (n : Ch) (range : Fin 4) (at_ : Bool) (cancel : Bool)
  | rangeCancel (n : Ch)
  | rangeChangeStart (n : Ch)
  | rangeBreak (n : Ch)
  | rangeTick (n : Ch)
  | voltageRangeStart (n : Ch)
  | autoRangeDecision (n : Ch)
  | autoRangeHoldoffEnd (n : Ch)
  | apertureStartCmd (n : Ch) (at_ : Bool)
  | apertureStop (n : Ch)
  | apertureOpen (n : Ch)
  | apertureClose (n : Ch)
  | apertureCountLimit (n : Ch)
  | recordWritten (g : Clu)
  | rawCaptureStart (n : Ch) (at_ : Bool)
  | rawCaptureBegin (n : Ch)
  | rawCaptureStop (n : Ch)
  | rawWrAdvance (n : Ch)
  | safeCodeWrite (n : Ch) (data : Word) (be : Nat)
  | forceSafeWrite (n : Ch) (data : Word) (be : Nat)
  | modeSwitchPark (n : Ch)
  | modeSwitchEnd (n : Ch)
  | supvCondition (n : Ch) (compl : Bool)
  -- `cyc`, here and below: the core clock cycle of the period, 0 to 399, in which the trip latch sets (Table 10-3, R208)
  | supplySenseFall (t : Tile) (cyc : Nat)
  | supplySenseRecover (t : Tile)
  | comparatorOut (n : Ch) (w : Win) (hi : Bool) (cyc : Nat)
  | comparatorInside (n : Ch) (w : Win) (hi : Bool) (cyc : Nat)
  | comparatorSettled (g : Clu)
  | manualBlank (n : Ch)
  | blankingEnd (n : Ch) (cyc : Nat)
  | windowTest (n : Ch) (w : Win) (data : Word) (be : Nat)
  | autoTestStepEnd (n : Ch) (w : Win)
  | pgStart (n : Ch) (at_ : Bool)
  | pgRunBegin (n : Ch)
  | pgStop (n : Ch)
  | pgRelease (n : Ch)
  | autoRelease (n : Ch)
  | trackArm (n : Ch)
  | trackReady (n : Ch)
  | trackStart (n : Ch) (at_ : Bool)
  | trackStop (n : Ch)
  | hostEvt (n : Ch)
  | hostJump (n : Ch) (target : Nat) (at_ : Bool)
  | trackFill (n : Ch) (add : Nat)
  | cluSeqStart (g : Clu) (mask : Word)
  | cluSeqStartAt (g : Clu) (mask : Word)
  | cluSeqStop (g : Clu) (mask : Word)
  | cluSeqHost (g : Clu) (mask : Word)
  | trackStartTick (n : Ch)
  | segmentEnd (n : Ch)
  | segmentWaitStart (n : Ch)
  | underrunResume (n : Ch)
  | stagingComplete (n : Ch)
  | trgPulseEnd (n : Ch)
  | evlArm (x : Elg)
  | evlReady (x : Elg) (ue : List PlaneUe)
  | evlStart (x : Elg) (at_ : Bool)
  | evlStop (x : Elg)
  | evlFill (x : Elg) (add : Nat)
  | evlCycleBoundary (x : Elg) (ue : List PlaneUe)
  | evlEdge (l : Lane) (second : Bool)
  | evlInputEdge (l : Lane) (rising : Bool) (cyc : Nat)
  | dmaStart (d : Dma)
  | dmaAbort (d : Dma)
  | dmaResume (d : Dma)
  | dmaKick (d : Dma)
  | dmaMove (d : Dma)
  | dmaBurst (d : Dma) (inp : BurstIn)
  | dmaBarrierDone (d : Dma)
  | dmaLoop (d : Dma)
  | dmaWaitEvent (d : Dma)
  | dmaWaitKick (d : Dma)
  | dmaWaitStamp (d : Dma)
  | dmaWaitSatisfied (d : Dma)
  | dmaSignalEvent (d : Dma)
  | dmaSignalTrackFill (d : Dma)
  | dmaSignalGroupFill (d : Dma)
  | dmaSignalRingConsume (d : Dma)
  | dmaEnd (d : Dma)
  | dmaBusError (space : Fin 3) (kind : Nat) (addr : Nat) (partials : List (Nat × Nat × List Byte))
  | calSessionStart (tiles : Fin 16) (force : Bool)
  | calSessionAbort
  | sessionTileDone (a b : List Int)
  | weltStepBoundary
  | weltCalStart
  | weltCalDecision (results : List SliceMeas)
  | weltHandbackStart
  | weltPhaseStart
  | weltPhaseDecision (results : List SliceMeas)
  | sliceTake (q : Quad) (kind : Fin 4) (lane : Fin 4)
  | sliceRestore (q : Quad) (kind : Fin 4) (lane : Fin 4)
  | windowTrim (n : Ch) (v : Bool) (c : Bool)
  | windowTrimEnd (m : TrimMeas)
  | correctionRampStep
  | haltDoorbell (chain : Bool) (cyc : Nat) (rq : Req)
  | haltNAssert (low : Bool) (cyc : Nat)
  | haltRelease
  | linkError (cls : Nat) (addr : Nat) (rq : Req)
  | laneDeclaredFailed (lane : Fin 4) (lock : Bool)
  | widthChangeDone
  | widen
  | dlDown
  | sklEnable (en : Bool)
  | sklPortUp (dn : Bool)
  | sklPortDown (dn : Bool)
  | timeFrame (h : SklHdr) (p : Nat) (offset : Nat) (mstate : Nat) (cyc : Nat)
  | timeFrameMiss
  | shareFrame (h : SklHdr) (entries : List SklShare) (late : Bool)
  | sumFrame (h : SklHdr) (entries : List SklSum) (late : Bool)
  | nackFrame (h : SklHdr)
  | enumFrame (h : SklHdr) (e : SklEnum)
  | enumSend
  | releaseFrame (h : SklHdr) (stamp : Nat)
  | sklHaltSet (dn : Bool) (origin : Fin 8) (cyc : Nat)
  | sklFaultSet (dn : Bool) (origin : Fin 8)
  | sklHaltRelease (all : Bool)
  | sklPresentExpiry
  | getInfo
  | getSensors
  | setThresh
  | envRelease
  | logRead
  | sealedLoad (f : MbxFault)
  | structStore (f : MbxFault)
  | getNonce
  | keyEnrol (f : MbxFault)
  | keyRevoke (f : MbxFault)
  | setPolicy (f : MbxFault)
  | fwUpdate (f : MbxFault)
  | coreSwitch
  | safeStore (f : MbxFault)
  | calStore (f : MbxFault)
  | calRestore
  | setSubsys (f : MbxFault)
  | heartbeatMiss (work : CoreWork)
  | coreException (work : CoreWork)
  | probationEnd
  | sensorConversion (readings : List (Nat × Int))
  | logMirror
  | nonceExpiry
  | calAutostore
  | clusterPowerCmd (clusters : Fin 65536) (target : Fin 4) (at_ : Bool)
  | powerTransitionStart (g : Clu)
  | parkSettled (g : Clu)
  | idleReached (g : Clu)
  | tileUp (tiles : Fin 16)
  | tileUpDone (t : Tile) (ok : Bool) (suspect : List (Fin 32))
  | tileDown (tiles : Fin 16)
  | dramCmd (target : Fin 4)
  | dramTransitionDone (ok : Bool)
  | powerOn (straps : Fin 8)
  | perstN (low : Bool)
  | hotReset
  | pwrRstCmd (key : Fin 256)
  | boot (inp : BootIn)
  | bootWatchdog
  | tallyClear
  | tallyClearRecord
  | faultClear
  | tileIsolate (key : Fin 256) (tiles : Fin 16)
  | isolationComplete
  | refclkLost (b : Bool)
  | refclkGood (b : Bool)
  | clockSelect (b : Bool)
  | clockSwitchDone
  | scrub (mem : Fin 7) (clu : Clu) (addr : Nat) (ue : Bool)
  | tapReset
  | trstN
  | idcode
  | samplePreload (scan : TapScan)
  | extest (scan : TapScan)
  | clamp
  | highz
  | extestPulse (scan : TapScan)
  | extestTrain (scan : TapScan)
  | ecidcode
  | segsel (sel : Fin 131072)
  | bypass
  | testLock (on : Bool)
  | configurationRequest (mem msix mask : Bool) (cfg : CfgIn)
  | linkUp (partner : Nat) (speed : Nat)
  | standbyReady (ok : Bool)
  | coefficientWindowWrite (addr : Nat) (data : Word) (be : Nat) (rq : Req)
  | mailboxRequestWrite (addr : Nat) (data : Word) (be : Nat)
deriving DecidableEq, Repr

end Sys2Proof
end

