-- ==== Sys2Proof/Decode.lean ====
section
/-!
DEFINITION. Words to commands. No row of the table gives bits: a command reaches the device as a bus request, a frame, a level on a
ball or an instant, never as a word of an instruction stream (assumption 1).
-/

namespace Sys2Proof

/-- The command that a word of `nbits` bits spells by the table's bits: none, for no row has bits. -/
def decodeTableWord (_nbits _w : Nat) : Option Instr := none

/-- The command that an 8-bit opcode of the test access port stands for (R399, Table 20-1), with its use of the boundary register or the
segments that it selects. Every opcode not listed is BYPASS. -/
def tapInstr (op : Nat) (scan : TapScan) (sel : Fin 131072) : Instr :=
  match op with
  | 1 => .idcode
  | 2 => .samplePreload scan
  | 3 => .extest scan
  | 4 => .clamp
  | 5 => .highz
  | 6 => .extestPulse scan
  | 7 => .extestTrain scan
  | 8 => .ecidcode
  | 9 => .segsel sel
  | _ => .bypass

end Sys2Proof
end

