-- ==== Sys2Proof/Config.lean ====
section
/-!
DEFINITION. What the spec leaves open: constants with no body, so that no proof can use a value of them.
-/

namespace Sys2Proof.Machine

/-- A value the spec leaves open, drawn afresh: the argument is the counter `State.freeCount`, which every use advances
(assumption 2). -/
opaque Config.freeWord : Nat → BitVec 32

/-- The integral correction of the phase base's tracking loop, as a function of the phase error (units of 2^-64 cycle),
the held increment, the bandwidth of R84 in microhertz and the measured cycle length in units of 1/1638400 sample: the spec states its kind and its
bandwidth and not its arithmetic (chapter 03, Tracking, lock and holdover; assumption 5). -/
opaque Config.trackIntegral : Int → Nat → Nat → Nat → Int

/-- The proportional correction spread over the next cycle, per tick, as a function of the same operands (assumption 5). -/
opaque Config.trackProportional : Int → Nat → Nat → Nat → Int

/-- The value an injection or tone generator forms for an amplitude and a phase in units of 2^-64 cycle. The spec bounds its error and
does not state its bits (R153, R237); the model uses it within that bound only (assumption 6). -/
opaque Config.sine : Int → Nat → Int

/-- The reciprocal of the model's normalisation n (in units of 2^-60), formed by the lane to a relative accuracy of
2^-16 only (R145); in units of 2^-60 (assumption 7). -/
opaque Config.recip : Nat → Nat

/-- Which of the 15 stages of the injection's LFSR is its output bit: the spec gives the polynomial and the seed only (R153,
Table 06-3; assumption 8). -/
opaque Config.prbsStage : Nat

/-- Production values held in the fuses (chapter 14): tap values by tap number, gain and offset corrections by 15 q + s, cell values
by 4 t + k (assumption 12). -/
opaque Config.prodTap : Nat → Int
opaque Config.prodGain : Nat → BitVec 32
opaque Config.prodOfs : Nat → BitVec 32
opaque Config.prodCell : Nat → BitVec 32

/-- HUB_UID and HUB_ID.SILICON: fused values of a device (assumption 15). -/
opaque Config.uid : BitVec 64
opaque Config.silicon : Fin 32

/-- The fused rollback floor and the four Xellinan keys in fuses (R364; assumption 15). -/
opaque Config.fusedFloor : Nat
opaque Config.fuseKey : Nat → Nat × Nat

/-- Cells of the hub's segment of the boundary register, whose order the description file gives (R401; assumption 41): outputs of TRG0 to
TRG7 and their control (0 to 8), output and control of FAULT_N (9, 10) and of WAKE_N (11, 12), PCIe transmit pairs and their control (13 to
17), PCIe receive pairs (18 to 21), PCIE_REFCLK (22), PERST_N (23), REFCLK_A and REFCLK_B (24, 25), PHREF_P and PHREF_N (26, 27), Skidline
transmit pairs and their control (28 to 32), Skidline receive pairs (33 to 36), HALT_N (37), ID0 to ID2 (38 to 40). -/
opaque Config.hubCell : Nat → Nat

end Sys2Proof.Machine
end

