-- ==== Sys2Proof/Machine/Map.lean ====
section
/-!
DEFINITION. Sparse maps in one canonical form: a list of (key, value) pairs with strictly rising keys and no entry
equal to what an unlisted key reads as. Memories are such maps of bytes (lists of Host.Cell), the register map is one of
words, and the indexed units (channels, quads, clusters ...) are such maps of their state.
-/

namespace Sys2Proof.Machine

/-- Sparse map from numbers to values. -/
abbrev SMap (α : Type) := List (Nat × α)

/-- The value at key `k`; `d` where the key is not listed. -/
def SMap.get {α : Type} (d : α) : SMap α → Nat → α
  | [], _ => d
  | (k', v) :: m, k => if k' = k then v else get d m k

/-- Drop key `k`. -/
def SMap.erase {α : Type} (m : SMap α) (k : Nat) : SMap α := m.filter (fun e => e.1 ≠ k)

/-- Put an entry at its place among rising keys. -/
def SMap.insert {α : Type} (k : Nat) (v : α) : SMap α → SMap α
  | [] => [(k, v)]
  | (k', v') :: m => if k < k' then (k, v) :: (k', v') :: m else (k', v') :: insert k v m

/-- Write `v` at key `k`, where an unlisted `k` reads as `d`. -/
def SMap.set {α : Type} [DecidableEq α] (d : α) (m : SMap α) (k : Nat) (v : α) : SMap α :=
  if v = d then erase m k else insert k v (erase m k)

/-- The canonical form, for the reading `d` of unlisted keys. -/
def SMap.wf {α : Type} [DecidableEq α] (d : Nat → α) (m : SMap α) : Bool :=
  decide (m.Pairwise (fun a b => a.1 < b.1)) && m.all (fun e => decide (e.2 ≠ d e.1))

/-- A byte-addressed memory in canonical form; an unlisted byte reads as 0. -/
abbrev Mem := List Host.Cell

/-- Read one byte. -/
def Mem.read (m : Mem) (a : Nat) : Byte := SMap.get 0 m a

/-- Write one byte. -/
def Mem.write (m : Mem) (a : Nat) (b : Byte) : Mem := SMap.set 0 m a b

/-- Read `n` bytes, lowest address first. -/
def Mem.readBytes (m : Mem) (a : Nat) : Nat → List Byte
  | 0 => []
  | n + 1 => read m a :: readBytes m (a + 1) n

/-- Write bytes at rising addresses. -/
def Mem.writeBytes (m : Mem) (a : Nat) : List Byte → Mem
  | [] => m
  | b :: bs => writeBytes (write m a b) (a + 1) bs

/-- Read `n` bytes as one number, the byte at the lowest address least significant. -/
def Mem.readLE (m : Mem) (a : Nat) : Nat → Nat
  | 0 => 0
  | n + 1 => (read m a).toNat + 256 * readLE m (a + 1) n

/-- Write a number as `n` bytes, least significant byte at the lowest address. -/
def Mem.writeLE (m : Mem) (a : Nat) (v : Nat) : Nat → Mem
  | 0 => m
  | n + 1 => writeLE (write m a (BitVec.ofNat 8 v)) (a + 1) (v / 256) n

/-- The canonical form of a memory. -/
def Mem.wf (m : Mem) : Bool := SMap.wf (fun _ => (0 : Byte)) m

end Sys2Proof.Machine
end

