-- ==== Sys2Proof/Machine/Regs.lean ====
section
/-!
DEFINITION. The register map of BAR0 (and the mailbox registers of BAR4): one row for every register of the spec,
with its space, offset, repetition, fields, access types and reset values, as the field tables of the chapters and the
register index (chapter 21) print them; the address of each register as a function of its indices; the place of each field.
-/

namespace Sys2Proof.Machine

/-- A bit field: its least significant bit and its width. -/
structure Fld where
  lsb : Nat
  width : Nat
deriving DecidableEq, Repr

/-- Access types of Table 00-4 (no register of the map has type RWS). -/
inductive Acc where
  | rw | ro | w1c | wo | sh
deriving DecidableEq, Repr

/-- One field of a register: where it lies, its access type, its reset value. -/
structure FieldDef where
  fld : Fld
  acc : Acc
  reset : Nat
deriving DecidableEq, Repr

/-- The spaces a register's offset is relative to: hub registers (BAR0), a cluster, a channel block, a quad block,
the tile registers, BAR4. -/
inductive Space where
  | hub | clu | ch | quad | tile | bar4
deriving DecidableEq, Repr

/-- A register, or a regular array of registers: `dims` lists (count, stride), the largest stride first. -/
structure RegDef where
  name : String
  off : Nat
  dims : List (Nat × Nat)
  fields : List FieldDef
  /-- 1: the _LO half of a pair; 2: its _HI half; 0: neither (R17). -/
  half : Nat
deriving DecidableEq, Repr

/-- Tile base (chapter 00, Addresses). -/
def tileBase (t : Nat) : Nat := 0x1000000 * (t + 1)
/-- Base of global cluster g = 4 t + c (chapter 00, Addresses; R34). -/
def cluBase (g : Nat) : Nat := tileBase (g / 4) + 0x400000 * (g % 4)
/-- Channel block of channel n (R11, R34). -/
def chBase (n : Nat) : Nat := cluBase (n / 32) + 0x10000 + 0x1000 * (n % 32)
/-- Quad registers of global quad q (R11, R34). -/
def quadBase (q : Nat) : Nat := cluBase (q / 8) + 0x30000 + 0x100 * (q % 8)
/-- BAR4 offsets are kept in the same register map above every BAR0 offset. -/
def bar4Base : Nat := 0x100000000

/-! ### Addresses and fields: hub registers -/

def HUB_ID : Nat := 0
def fHUB_ID_PART : Fld := ⟨0, 16⟩
def fHUB_ID_SILICON : Fld := ⟨16, 8⟩
def HUB_FW : Nat := 4
def fHUB_FW_BUILD : Fld := ⟨0, 8⟩
def fHUB_FW_MINOR : Fld := ⟨8, 8⟩
def fHUB_FW_MAJOR : Fld := ⟨16, 8⟩
def fHUB_FW_IMAGE : Fld := ⟨24, 1⟩
def HUB_UID_LO : Nat := 8
def HUB_UID_HI : Nat := 0xC
def HUB_INT_STAT : Nat := 0x20
def fHUB_INT_STAT_HALT : Fld := ⟨0, 1⟩
def fHUB_INT_STAT_FAULT : Fld := ⟨1, 1⟩
def fHUB_INT_STAT_COMMIT : Fld := ⟨2, 1⟩
def HUB_INT_EN : Nat := 0x24
def fHUB_INT_EN_HALT : Fld := ⟨0, 1⟩
def fHUB_INT_EN_FAULT : Fld := ⟨1, 1⟩
def fHUB_INT_EN_COMMIT : Fld := ⟨2, 1⟩
def HUB_FAULT_STAT : Nat := 0x30
def fHUB_FAULT_STAT_ASSERTED : Fld := ⟨0, 1⟩
def fHUB_FAULT_STAT_PIN_LOW : Fld := ⟨1, 1⟩
def fHUB_FAULT_STAT_CAUSE : Fld := ⟨8, 10⟩
def fHUB_FAULT_STAT_CLEAR_REFUSED : Fld := ⟨18, 1⟩
def HUB_FAULT_CLR : Nat := 0x34
def fHUB_FAULT_CLR_CLEAR : Fld := ⟨0, 1⟩
def HUB_CLK_CTL : Nat := 0x40
def fHUB_CLK_CTL_SEL : Fld := ⟨0, 1⟩
def HUB_CLK_STAT : Nat := 0x44
def fHUB_CLK_STAT_ACTIVE : Fld := ⟨0, 1⟩
def fHUB_CLK_STAT_A_OK : Fld := ⟨1, 1⟩
def fHUB_CLK_STAT_B_OK : Fld := ⟨2, 1⟩
def fHUB_CLK_STAT_SWITCHING : Fld := ⟨3, 1⟩
def fHUB_CLK_STAT_INTERNAL : Fld := ⟨4, 1⟩
def fHUB_CLK_STAT_SWITCHED : Fld := ⟨8, 1⟩
def fHUB_CLK_STAT_A_LOST : Fld := ⟨9, 1⟩
def fHUB_CLK_STAT_B_LOST : Fld := ⟨10, 1⟩
def fHUB_CLK_STAT_SWITCHES : Fld := ⟨16, 8⟩
def HUB_ISO_CMD : Nat := 0x50
def fHUB_ISO_CMD_KEY : Fld := ⟨0, 8⟩
def fHUB_ISO_CMD_TILES : Fld := ⟨8, 4⟩
def HUB_ECC_STAT : Nat := 0x60
def fHUB_ECC_STAT_MEM : Fld := ⟨0, 4⟩
def fHUB_ECC_STAT_CLUSTER : Fld := ⟨4, 4⟩
def fHUB_ECC_STAT_CE : Fld := ⟨8, 1⟩
def fHUB_ECC_STAT_UE : Fld := ⟨9, 1⟩
def HUB_ECC_ADDR : Nat := 0x64
def HUB_ECC_CE : Nat := 0x68
def HUB_ECC_UE : Nat := 0x6C
def HUB_HALT : Nat := 0x100
def fHUB_HALT_HALT : Fld := ⟨0, 1⟩
def fHUB_HALT_CHAIN : Fld := ⟨1, 1⟩
def HUB_HALT_CTL : Nat := 0x104
def fHUB_HALT_CTL_BALL_TO_CHAIN : Fld := ⟨0, 1⟩
def fHUB_HALT_CTL_DOWN_HALT : Fld := ⟨1, 1⟩
def HUB_HALT_STAT : Nat := 0x108
def fHUB_HALT_STAT_HALTED : Fld := ⟨0, 1⟩
def fHUB_HALT_STAT_DOORBELL : Fld := ⟨1, 1⟩
def fHUB_HALT_STAT_BALL : Fld := ⟨2, 1⟩
def fHUB_HALT_STAT_CHAIN : Fld := ⟨3, 1⟩
def fHUB_HALT_STAT_BALL_LOW : Fld := ⟨4, 1⟩
def fHUB_HALT_STAT_SEEN_DOORBELL : Fld := ⟨8, 1⟩
def fHUB_HALT_STAT_SEEN_BALL : Fld := ⟨9, 1⟩
def fHUB_HALT_STAT_SEEN_CHAIN : Fld := ⟨10, 1⟩
def fHUB_HALT_STAT_RELEASE_REFUSED : Fld := ⟨11, 1⟩
def HUB_HALT_REL : Nat := 0x10C
def fHUB_HALT_REL_RELEASE : Fld := ⟨0, 1⟩
def HUB_HALT_STAMP_LO : Nat := 0x110
def HUB_HALT_STAMP_HI : Nat := 0x114
def HUB_COMMIT : Nat := 0x140
def fHUB_COMMIT_GO : Fld := ⟨0, 1⟩
def fHUB_COMMIT_BANK : Fld := ⟨1, 1⟩
def fHUB_COMMIT_AT : Fld := ⟨2, 1⟩
def HUB_COMMIT_AT_LO : Nat := 0x144
def HUB_COMMIT_AT_HI : Nat := 0x148
def HUB_COMMIT_CANCEL : Nat := 0x14C
def fHUB_COMMIT_CANCEL_CANCEL : Fld := ⟨0, 1⟩
def HUB_COMMIT_STAT : Nat := 0x150
def fHUB_COMMIT_STAT_GEN : Fld := ⟨0, 8⟩
def fHUB_COMMIT_STAT_PENDING : Fld := ⟨8, 1⟩
def fHUB_COMMIT_STAT_HELD_COMMIT : Fld := ⟨9, 1⟩
def fHUB_COMMIT_STAT_BANK_PENDING : Fld := ⟨10, 1⟩
def fHUB_COMMIT_STAT_SHADOW_BUSY : Fld := ⟨16, 1⟩
def fHUB_COMMIT_STAT_COMMIT_REFUSED : Fld := ⟨17, 1⟩
def fHUB_COMMIT_STAT_LATE_STAMP : Fld := ⟨18, 1⟩
def HUB_REFUSED_ADDR : Nat := 0x154
def HUB_SWAP_STAMP_LO : Nat := 0x158
def HUB_SWAP_STAMP_HI : Nat := 0x15C
def PHB_CTL : Nat := 0x10000
def fPHB_CTL_MODE : Fld := ⟨0, 2⟩
def fPHB_CTL_BW : Fld := ⟨2, 3⟩
def fPHB_CTL_EDGE : Fld := ⟨5, 1⟩
def fPHB_CTL_INDEX : Fld := ⟨6, 1⟩
def fPHB_CTL_QHOLD : Fld := ⟨7, 1⟩
def fPHB_CTL_QDIR : Fld := ⟨8, 1⟩
def PHB_FREE_INC_LO : Nat := 0x10004
def PHB_FREE_INC_HI : Nat := 0x10008
def PHB_QUAD_CPC : Nat := 0x1000C
def fPHB_QUAD_CPC_CPC : Fld := ⟨0, 24⟩
def PHB_REF_CFG : Nat := 0x10010
def fPHB_REF_CFG_SINE_LEVEL : Fld := ⟨0, 8⟩
def fPHB_REF_CFG_WIN : Fld := ⟨8, 3⟩
def PHB_STAT : Nat := 0x10020
def fPHB_STAT_STATE : Fld := ⟨0, 3⟩
def fPHB_STAT_REF_PRESENT : Fld := ⟨3, 1⟩
def fPHB_STAT_LOSS : Fld := ⟨8, 1⟩
def fPHB_STAT_UNLOCK : Fld := ⟨9, 1⟩
def fPHB_STAT_REJECT : Fld := ⟨10, 1⟩
def fPHB_STAT_SKIP : Fld := ⟨11, 1⟩
def fPHB_STAT_REVERSE : Fld := ⟨12, 1⟩
def fPHB_STAT_QFAULT : Fld := ⟨13, 1⟩
def fPHB_STAT_CLAMP : Fld := ⟨14, 1⟩
def fPHB_STAT_INC_CLAMP : Fld := ⟨15, 1⟩
def PHB_INT_EN : Nat := 0x10024
def fPHB_INT_EN_EN : Fld := ⟨8, 7⟩
def PHB_NOW_LO : Nat := 0x10028
def PHB_NOW_HI : Nat := 0x1002C
def PHB_INC_LO : Nat := 0x10030
def PHB_INC_HI : Nat := 0x10034
def PHB_PERR : Nat := 0x10038
def PHB_HOLD_STAMP_LO : Nat := 0x1003C
def PHB_HOLD_STAMP_HI : Nat := 0x10040
def PHB_TICK_LO : Nat := 0x10044
def PHB_TICK_HI : Nat := 0x10048
def PHB_EVENT_CNT : Nat := 0x1004C
def fPHB_EVENT_CNT_REJECTED : Fld := ⟨0, 16⟩
def fPHB_EVENT_CNT_LOSSES : Fld := ⟨16, 16⟩
def PHB_QUAD_POS : Nat := 0x10050
def DMA_CH_CTL (i : Nat) : Nat := 0x20000 + 0x100 * i
def fDMA_CH_CTL_PRIO : Fld := ⟨0, 2⟩
def fDMA_CH_CTL_WB_EN : Fld := ⟨2, 1⟩
def DMA_CH_CMD (i : Nat) : Nat := 0x20004 + 0x100 * i
def fDMA_CH_CMD_START : Fld := ⟨0, 1⟩
def fDMA_CH_CMD_ABORT : Fld := ⟨1, 1⟩
def fDMA_CH_CMD_RESUME : Fld := ⟨2, 1⟩
def fDMA_CH_CMD_KICK : Fld := ⟨3, 1⟩
def DMA_CH_PROG_BASE (i : Nat) : Nat := 0x20008 + 0x100 * i
def DMA_CH_PROG_LEN (i : Nat) : Nat := 0x2000C + 0x100 * i
def fDMA_CH_PROG_LEN_LEN : Fld := ⟨0, 12⟩
def DMA_CH_STRIDE (i : Nat) : Nat := 0x20010 + 0x100 * i
def DMA_CH_HWIN_LO (i : Nat) : Nat := 0x20014 + 0x100 * i
def fDMA_CH_HWIN_LO_EN : Fld := ⟨0, 1⟩
def fDMA_CH_HWIN_LO_BASE : Fld := ⟨12, 20⟩
def DMA_CH_HWIN_HI (i : Nat) : Nat := 0x20018 + 0x100 * i
def DMA_CH_WB (i : Nat) : Nat := 0x2001C + 0x100 * i
def DMA_CH_STAT (i : Nat) : Nat := 0x20020 + 0x100 * i
def fDMA_CH_STAT_STATE : Fld := ⟨0, 3⟩
def fDMA_CH_STAT_TOKEN_WAIT : Fld := ⟨3, 1⟩
def fDMA_CH_STAT_CODE : Fld := ⟨8, 8⟩
def fDMA_CH_STAT_PC : Fld := ⟨16, 12⟩
def fDMA_CH_STAT_REFUSED : Fld := ⟨28, 1⟩
def DMA_CH_RESIDUE (i : Nat) : Nat := 0x20024 + 0x100 * i
def DMA_CH_PART (i : Nat) : Nat := 0x20028 + 0x100 * i
def fDMA_CH_PART_PARTIAL : Fld := ⟨0, 1⟩
def fDMA_CH_PART_LINES : Fld := ⟨8, 6⟩
def DMA_CH_LOOP (i : Nat) : Nat := 0x2002C + 0x100 * i
def fDMA_CH_LOOP_LOOP_IDX : Fld := ⟨0, 12⟩
def fDMA_CH_LOOP_ACTIVE : Fld := ⟨12, 1⟩
def DMA_CH_ITER (i : Nat) : Nat := 0x20030 + 0x100 * i
def DMA_CH_KICKS (i : Nat) : Nat := 0x20034 + 0x100 * i
def fDMA_CH_KICKS_KICKS : Fld := ⟨0, 16⟩
def DMA_ENG_STAT : Nat := 0x28000
def fDMA_ENG_STAT_BUS_STOP : Fld := ⟨0, 1⟩
def DMA_INT_STAT : Nat := 0x28004
def DMA_INT_EN : Nat := 0x28008
def DMA_ERR_ADDR_LO : Nat := 0x28010
def DMA_ERR_ADDR_HI : Nat := 0x28014
def DMA_ERR_INFO : Nat := 0x28018
def fDMA_ERR_INFO_SPACE : Fld := ⟨0, 2⟩
def fDMA_ERR_INFO_KIND : Fld := ⟨2, 4⟩
def DMA_EVT_CNT (i : Nat) : Nat := 0x28100 + 4 * i
def fDMA_EVT_CNT_COUNT : Fld := ⟨0, 16⟩
def fDMA_EVT_CNT_OVER : Fld := ⟨16, 1⟩
def DMA_REQ_CFG (i : Nat) : Nat := 0x28200 + 4 * i
def fDMA_REQ_CFG_KIND : Fld := ⟨0, 4⟩
def fDMA_REQ_CFG_INDEX : Fld := ⟨8, 9⟩
def DMA_REQ_TOK (i : Nat) : Nat := 0x28300 + 4 * i
def fDMA_REQ_TOK_TOKENS : Fld := ⟨0, 16⟩
def fDMA_REQ_TOK_OVER : Fld := ⟨16, 1⟩
def PCI_LINK_STAT : Nat := 0x30000
def fPCI_LINK_STAT_WIDTH : Fld := ⟨0, 3⟩
def fPCI_LINK_STAT_SPEED : Fld := ⟨3, 3⟩
def fPCI_LINK_STAT_LANE_OK : Fld := ⟨6, 4⟩
def fPCI_LINK_STAT_REVERSED : Fld := ⟨10, 1⟩
def fPCI_LINK_STAT_DOWNSIZED : Fld := ⟨16, 1⟩
def fPCI_LINK_STAT_RETRAINED : Fld := ⟨17, 1⟩
def fPCI_LINK_STAT_LINK_DOWN : Fld := ⟨18, 1⟩
def fPCI_LINK_STAT_RETRAINS : Fld := ⟨24, 8⟩
def PCI_LINK_CMD : Nat := 0x30004
def fPCI_LINK_CMD_WIDEN : Fld := ⟨0, 1⟩
def PCI_LANE_ERR : Nat := 0x30008
def PCI_LANE_CFG : Nat := 0x3000C
def fPCI_LANE_CFG_ERR_LIMIT : Fld := ⟨0, 8⟩
def fPCI_LANE_CFG_AUTO_NARROW : Fld := ⟨8, 1⟩
def PCI_INT_PEND_LO : Nat := 0x30010
def PCI_INT_PEND_HI : Nat := 0x30014
def PCI_VEC_EN_LO : Nat := 0x30018
def PCI_VEC_EN_HI : Nat := 0x3001C
def fPCI_VEC_EN_HI_EN : Fld := ⟨0, 8⟩
def PCI_INT_STAT : Nat := 0x30020
def fPCI_INT_STAT_ELOG : Fld := ⟨0, 1⟩
def fPCI_INT_STAT_LINK : Fld := ⟨1, 1⟩
def PCI_INT_EN : Nat := 0x30024
def fPCI_INT_EN_ELOG : Fld := ⟨0, 1⟩
def fPCI_INT_EN_LINK : Fld := ⟨1, 1⟩
def PCI_ELOG_STAT : Nat := 0x30028
def fPCI_ELOG_STAT_NEXT : Fld := ⟨0, 6⟩
def fPCI_ELOG_STAT_WRAPPED : Fld := ⟨16, 1⟩
def PCI_ELOG_SEEN_LO : Nat := 0x3002C
def PCI_ELOG_SEEN_HI : Nat := 0x30030
def PCI_ELOG (i : Nat) (j : Nat) : Nat := 0x31000 + 0x20 * i + 4 * j
def SKL_CTL : Nat := 0x40000
def fSKL_CTL_EN : Fld := ⟨0, 1⟩
def fSKL_CTL_POS_SRC : Fld := ⟨1, 1⟩
def fSKL_CTL_FAULT_PIN : Fld := ⟨2, 1⟩
def fSKL_CTL_BREAK_HALT : Fld := ⟨3, 1⟩
def SKL_STAT : Nat := 0x40004
def fSKL_STAT_POS : Fld := ⟨0, 3⟩
def fSKL_STAT_POS_VALID : Fld := ⟨3, 1⟩
def fSKL_STAT_LEN : Fld := ⟨4, 3⟩
def fSKL_STAT_MASTER : Fld := ⟨7, 1⟩
def fSKL_STAT_UP_OK : Fld := ⟨8, 1⟩
def fSKL_STAT_DN_OK : Fld := ⟨9, 1⟩
def fSKL_STAT_ALIGNED : Fld := ⟨10, 1⟩
def fSKL_STAT_STRAP : Fld := ⟨11, 1⟩
def fSKL_STAT_STRAPS : Fld := ⟨12, 3⟩
def fSKL_STAT_UP_LOST : Fld := ⟨16, 1⟩
def fSKL_STAT_DN_LOST : Fld := ⟨17, 1⟩
def fSKL_STAT_CHAIN_LOST : Fld := ⟨18, 1⟩
def fSKL_STAT_POS_CONFLICT : Fld := ⟨19, 1⟩
def fSKL_STAT_OVERLONG : Fld := ⟨20, 1⟩
def fSKL_STAT_LATE : Fld := ⟨21, 1⟩
def SKL_HALT_REL : Nat := 0x40008
def fSKL_HALT_REL_RELEASE : Fld := ⟨0, 1⟩
def fSKL_HALT_REL_ALL : Fld := ⟨1, 1⟩
def SKL_FAULT_SEEN : Nat := 0x4000C
def fSKL_FAULT_SEEN_ORIGIN : Fld := ⟨0, 8⟩
def SKL_ERR_UP : Nat := 0x40010
def fSKL_ERR_UP_KIND1 : Fld := ⟨0, 4⟩
def fSKL_ERR_UP_KIND2 : Fld := ⟨4, 4⟩
def fSKL_ERR_UP_KIND3 : Fld := ⟨8, 4⟩
def fSKL_ERR_UP_KIND4 : Fld := ⟨12, 4⟩
def fSKL_ERR_UP_KIND5 : Fld := ⟨16, 4⟩
def fSKL_ERR_UP_KIND6 : Fld := ⟨20, 4⟩
def fSKL_ERR_UP_KIND7 : Fld := ⟨24, 4⟩
def SKL_ERR_DN : Nat := 0x40014
def fSKL_ERR_DN_KIND1 : Fld := ⟨0, 4⟩
def fSKL_ERR_DN_KIND2 : Fld := ⟨4, 4⟩
def fSKL_ERR_DN_KIND3 : Fld := ⟨8, 4⟩
def fSKL_ERR_DN_KIND4 : Fld := ⟨12, 4⟩
def fSKL_ERR_DN_KIND5 : Fld := ⟨16, 4⟩
def fSKL_ERR_DN_KIND6 : Fld := ⟨20, 4⟩
def fSKL_ERR_DN_KIND7 : Fld := ⟨24, 4⟩
def SKL_NACK_CNT : Nat := 0x40018
def SKL_TIME_MISS : Nat := 0x4001C
def SKL_LATE_CNT : Nat := 0x40020
def SKL_INT_STAT : Nat := 0x40024
def fSKL_INT_STAT_LINK : Fld := ⟨0, 1⟩
def fSKL_INT_STAT_FAULT : Fld := ⟨1, 1⟩
def fSKL_INT_STAT_ERR : Fld := ⟨2, 1⟩
def fSKL_INT_STAT_POS : Fld := ⟨3, 1⟩
def fSKL_INT_STAT_LATE : Fld := ⟨4, 1⟩
def SKL_INT_EN : Nat := 0x40028
def fSKL_INT_EN_LINK : Fld := ⟨0, 1⟩
def fSKL_INT_EN_FAULT : Fld := ⟨1, 1⟩
def fSKL_INT_EN_ERR : Fld := ⟨2, 1⟩
def fSKL_INT_EN_POS : Fld := ⟨3, 1⟩
def fSKL_INT_EN_LATE : Fld := ⟨4, 1⟩
def SKL_CHAIN : Nat := 0x4002C
def fSKL_CHAIN_PRESENT : Fld := ⟨0, 8⟩
def PWR_CLU_CMD : Nat := 0x50000
def fPWR_CLU_CMD_CLUSTERS : Fld := ⟨0, 16⟩
def fPWR_CLU_CMD_TARGET : Fld := ⟨16, 2⟩
def fPWR_CLU_CMD_AT : Fld := ⟨18, 1⟩
def PWR_CLU_AT_LO : Nat := 0x50004
def PWR_CLU_AT_HI : Nat := 0x50008
def PWR_TILE_CMD : Nat := 0x50010
def fPWR_TILE_CMD_TILES : Fld := ⟨0, 4⟩
def fPWR_TILE_CMD_UP : Fld := ⟨4, 1⟩
def fPWR_TILE_CMD_DOWN : Fld := ⟨5, 1⟩
def PWR_TILE_STAT : Nat := 0x50014
def fPWR_TILE_STAT_UP : Fld := ⟨0, 4⟩
def fPWR_TILE_STAT_BUSY : Fld := ⟨4, 4⟩
def fPWR_TILE_STAT_ISOLATED : Fld := ⟨8, 4⟩
def fPWR_TILE_STAT_REFUSED : Fld := ⟨16, 1⟩
def PWR_DRAM_CMD : Nat := 0x50018
def fPWR_DRAM_CMD_TARGET : Fld := ⟨0, 2⟩
def fPWR_DRAM_CMD_GO : Fld := ⟨2, 1⟩
def PWR_DRAM_STAT : Nat := 0x5001C
def fPWR_DRAM_STAT_STATE : Fld := ⟨0, 2⟩
def fPWR_DRAM_STAT_BUSY : Fld := ⟨2, 1⟩
def fPWR_DRAM_STAT_CONSERVATIVE : Fld := ⟨3, 1⟩
def fPWR_DRAM_STAT_REFUSED : Fld := ⟨8, 1⟩
def fPWR_DRAM_STAT_ACCESS_DISCARDED : Fld := ⟨9, 1⟩
def PWR_RST_CTL : Nat := 0x50020
def fPWR_RST_CTL_PERST_SCOPE : Fld := ⟨0, 1⟩
def PWR_RST_CMD : Nat := 0x50024
def fPWR_RST_CMD_KEY : Fld := ⟨0, 8⟩
def PWR_RST_CAUSE : Nat := 0x50028
def fPWR_RST_CAUSE_POWER_ON : Fld := ⟨0, 1⟩
def fPWR_RST_CAUSE_PERST : Fld := ⟨1, 1⟩
def fPWR_RST_CAUSE_SOFT : Fld := ⟨2, 1⟩
def fPWR_RST_CAUSE_BOOT_WDT : Fld := ⟨3, 1⟩
def PWR_BOOT : Nat := 0x5002C
def fPWR_BOOT_STEP : Fld := ⟨0, 4⟩
def fPWR_BOOT_DONE : Fld := ⟨8, 1⟩
def fPWR_BOOT_DEGRADED : Fld := ⟨9, 1⟩
def fPWR_BOOT_CLEAR_PENDING : Fld := ⟨10, 1⟩
def fPWR_BOOT_CLEARED : Fld := ⟨11, 1⟩
def PWR_BOOT_COUNT : Nat := 0x50030
def PWR_TALLY_CLR : Nat := 0x50034
def fPWR_TALLY_CLR_CLEAR : Fld := ⟨0, 1⟩
def PWR_CLU_STAT (i : Nat) : Nat := 0x50040 + 4 * i
def fPWR_CLU_STAT_STATE : Fld := ⟨0, 2⟩
def fPWR_CLU_STAT_TARGET : Fld := ⟨2, 2⟩
def fPWR_CLU_STAT_TRANSIT : Fld := ⟨4, 1⟩
def fPWR_CLU_STAT_REFUSED : Fld := ⟨8, 1⟩
def fPWR_CLU_STAT_NO_STRUCT : Fld := ⟨9, 1⟩
def fPWR_CLU_STAT_TILE_DOWN : Fld := ⟨10, 1⟩
def fPWR_CLU_STAT_LATE : Fld := ⟨11, 1⟩
def fPWR_CLU_STAT_CANCELLED : Fld := ⟨12, 1⟩
def fPWR_CLU_STAT_RUN_ENTRIES : Fld := ⟨16, 16⟩
def PWR_STEP (i : Nat) : Nat := 0x50100 + 4 * i
def fPWR_STEP_OUTCOME : Fld := ⟨0, 3⟩
def fPWR_STEP_ALT : Fld := ⟨3, 1⟩
def fPWR_STEP_NEXT : Fld := ⟨4, 2⟩
def fPWR_STEP_DETAIL : Fld := ⟨8, 8⟩
def fPWR_STEP_TIME_MS : Fld := ⟨16, 16⟩
def CAL_CTL : Nat := 0x60000
def fCAL_CTL_ROT_EN : Fld := ⟨0, 1⟩
def fCAL_CTL_BOARD_RAMP : Fld := ⟨1, 1⟩
def fCAL_CTL_AUTOSTORE : Fld := ⟨2, 1⟩
def fCAL_CTL_RAMP : Fld := ⟨4, 4⟩
def CAL_REFV : Nat := 0x60004
def CAL_REFR : Nat := 0x60008
def CAL_CERT : Nat := 0x6000C
def CAL_SESS_GO : Nat := 0x60010
def fCAL_SESS_GO_START : Fld := ⟨0, 1⟩
def fCAL_SESS_GO_ABORT : Fld := ⟨1, 1⟩
def fCAL_SESS_GO_FORCE : Fld := ⟨2, 1⟩
def fCAL_SESS_GO_TILES : Fld := ⟨4, 4⟩
def CAL_SESS_STAT : Nat := 0x60014
def fCAL_SESS_STAT_STATE : Fld := ⟨0, 2⟩
def fCAL_SESS_STAT_TILE : Fld := ⟨4, 2⟩
def fCAL_SESS_STAT_DONE : Fld := ⟨8, 1⟩
def fCAL_SESS_STAT_REFUSED : Fld := ⟨9, 1⟩
def fCAL_SESS_STAT_ABORTED : Fld := ⟨10, 1⟩
def fCAL_SESS_STAT_REJECT : Fld := ⟨11, 1⟩
def fCAL_SESS_STAT_NO_SLICE : Fld := ⟨12, 1⟩
def CAL_SESS_INFO : Nat := 0x60018
def fCAL_SESS_INFO_GEN : Fld := ⟨0, 16⟩
def fCAL_SESS_INFO_AGE : Fld := ⟨16, 16⟩
def CAL_WTRIM_GO : Nat := 0x60020
def fCAL_WTRIM_GO_CHANNEL : Fld := ⟨0, 9⟩
def fCAL_WTRIM_GO_V : Fld := ⟨9, 1⟩
def fCAL_WTRIM_GO_I : Fld := ⟨10, 1⟩
def fCAL_WTRIM_GO_GO : Fld := ⟨11, 1⟩
def CAL_WTRIM_STAT : Nat := 0x60024
def fCAL_WTRIM_STAT_BUSY : Fld := ⟨0, 1⟩
def fCAL_WTRIM_STAT_DONE : Fld := ⟨8, 1⟩
def fCAL_WTRIM_STAT_REFUSED : Fld := ⟨9, 1⟩
def fCAL_WTRIM_STAT_REJECT : Fld := ⟨10, 1⟩
def CAL_FAIL_SUM : Nat := 0x60028
def fCAL_FAIL_SUM_FAILED : Fld := ⟨0, 4⟩
def fCAL_FAIL_SUM_CROSS : Fld := ⟨4, 4⟩
def fCAL_FAIL_SUM_CAL_FAIL : Fld := ⟨8, 4⟩
def CAL_QUAL_CH (i : Nat) : Nat := 0x62000 + 4 * i
def fCAL_QUAL_CH_V_RES : Fld := ⟨0, 8⟩
def fCAL_QUAL_CH_I_RES : Fld := ⟨8, 8⟩
def fCAL_QUAL_CH_DAC_RES : Fld := ⟨16, 8⟩
def fCAL_QUAL_CH_STALE : Fld := ⟨24, 1⟩
def fCAL_QUAL_CH_PERM : Fld := ⟨25, 1⟩
def fCAL_QUAL_CH_SUSPECT : Fld := ⟨26, 1⟩
def fCAL_QUAL_CH_PROD : Fld := ⟨27, 1⟩
def CAL_QUAL_WIN (i : Nat) : Nat := 0x62800 + 4 * i
def fCAL_QUAL_WIN_V_HI : Fld := ⟨0, 8⟩
def fCAL_QUAL_WIN_V_LO : Fld := ⟨8, 8⟩
def fCAL_QUAL_WIN_I_HI : Fld := ⟨16, 8⟩
def fCAL_QUAL_WIN_I_LO : Fld := ⟨24, 8⟩
def CAL_BOARD_GAIN (i : Nat) (j : Nat) : Nat := 0x64000 + 0x50 * i + 8 * j
def CAL_BOARD_OFFSET (i : Nat) (j : Nat) : Nat := 0x64004 + 0x50 * i + 8 * j
def TST_CTL : Nat := 0x70000
def fTST_CTL_TEST_LOCK : Fld := ⟨0, 1⟩
def TST_STAT : Nat := 0x70004
def fTST_STAT_IR : Fld := ⟨0, 8⟩
def fTST_STAT_TEST_MODE : Fld := ⟨8, 1⟩
def fTST_STAT_ENTERED : Fld := ⟨16, 1⟩
def fTST_STAT_EXCLUDED : Fld := ⟨17, 1⟩
def fTST_STAT_PWR_REFUSED : Fld := ⟨18, 1⟩
def TST_SEG_SEL : Nat := 0x70008
def fTST_SEG_SEL_CLUSTERS : Fld := ⟨0, 16⟩
def fTST_SEG_SEL_HUB : Fld := ⟨16, 1⟩
def TST_SEG_IN : Nat := 0x7000C
def fTST_SEG_IN_CLUSTERS : Fld := ⟨0, 16⟩
def fTST_SEG_IN_HUB : Fld := ⟨16, 1⟩
def TST_IDCODE : Nat := 0x70010

/-! ### Addresses and fields: clu registers -/

def CLU_INT_CH (g : Nat) : Nat := cluBase g + 0x80
def CLU_INT_STAT (g : Nat) : Nat := cluBase g + 0x88
def fCLU_INT_STAT_VALIDATED : Fld := ⟨0, 1⟩
def fCLU_INT_STAT_COMMIT : Fld := ⟨1, 1⟩
def fCLU_INT_STAT_GANG : Fld := ⟨2, 1⟩
def fCLU_INT_STAT_ENGINE : Fld := ⟨3, 1⟩
def fCLU_INT_STAT_CAPTURE : Fld := ⟨4, 1⟩
def CLU_INT_EN (g : Nat) : Nat := cluBase g + 0x8C
def fCLU_INT_EN_VALIDATED : Fld := ⟨0, 1⟩
def fCLU_INT_EN_COMMIT : Fld := ⟨1, 1⟩
def fCLU_INT_EN_GANG : Fld := ⟨2, 1⟩
def fCLU_INT_EN_ENGINE : Fld := ⟨3, 1⟩
def fCLU_INT_EN_CAPTURE : Fld := ⟨4, 1⟩
def CLU_BANK_CTL (g : Nat) : Nat := cluBase g + 0x100
def fCLU_BANK_CTL_VALIDATE : Fld := ⟨0, 1⟩
def fCLU_BANK_CTL_INVALIDATE : Fld := ⟨1, 1⟩
def CLU_BANK_STAT (g : Nat) : Nat := cluBase g + 0x104
def fCLU_BANK_STAT_ACTIVE : Fld := ⟨0, 1⟩
def fCLU_BANK_STAT_STBY_VALID : Fld := ⟨1, 1⟩
def fCLU_BANK_STAT_ACTIVE_VALID : Fld := ⟨2, 1⟩
def fCLU_BANK_STAT_GANG_MISMATCH : Fld := ⟨3, 1⟩
def fCLU_BANK_STAT_CODE : Fld := ⟨8, 8⟩
def CLU_BANK_FAIL (g : Nat) : Nat := cluBase g + 0x108
def fCLU_BANK_FAIL_OFFSET : Fld := ⟨0, 20⟩
def fCLU_BANK_FAIL_CHANNEL : Fld := ⟨24, 5⟩
def CLU_ACTIVE_ID (g : Nat) : Nat := cluBase g + 0x10C
def CLU_STBY_ID (g : Nat) : Nat := cluBase g + 0x110
def CLU_COMMIT (g : Nat) : Nat := cluBase g + 0x140
def fCLU_COMMIT_GO : Fld := ⟨0, 1⟩
def fCLU_COMMIT_BANK : Fld := ⟨1, 1⟩
def fCLU_COMMIT_AT : Fld := ⟨2, 1⟩
def CLU_COMMIT_AT_LO (g : Nat) : Nat := cluBase g + 0x144
def CLU_COMMIT_AT_HI (g : Nat) : Nat := cluBase g + 0x148
def CLU_COMMIT_CANCEL (g : Nat) : Nat := cluBase g + 0x14C
def fCLU_COMMIT_CANCEL_CANCEL : Fld := ⟨0, 1⟩
def CLU_COMMIT_STAT (g : Nat) : Nat := cluBase g + 0x150
def fCLU_COMMIT_STAT_GEN : Fld := ⟨0, 8⟩
def fCLU_COMMIT_STAT_PENDING : Fld := ⟨8, 1⟩
def fCLU_COMMIT_STAT_HELD_COMMIT : Fld := ⟨9, 1⟩
def fCLU_COMMIT_STAT_BANK_PENDING : Fld := ⟨10, 1⟩
def fCLU_COMMIT_STAT_SHADOW_BUSY : Fld := ⟨16, 1⟩
def fCLU_COMMIT_STAT_COMMIT_REFUSED : Fld := ⟨17, 1⟩
def fCLU_COMMIT_STAT_LATE_STAMP : Fld := ⟨18, 1⟩
def CLU_REFUSED_ADDR (g : Nat) : Nat := cluBase g + 0x154
def CLU_SWAP_STAMP_LO (g : Nat) : Nat := cluBase g + 0x158
def CLU_SWAP_STAMP_HI (g : Nat) : Nat := cluBase g + 0x15C
def CLU_ENG_STAT (g : Nat) : Nat := cluBase g + 0x200
def fCLU_ENG_STAT_LANE_FAIL : Fld := ⟨0, 8⟩
def fCLU_ENG_STAT_RES_FAIL : Fld := ⟨16, 1⟩
def fCLU_ENG_STAT_RECOMPUTED : Fld := ⟨17, 1⟩
def fCLU_ENG_STAT_UNRECOVERED : Fld := ⟨18, 1⟩
def fCLU_ENG_STAT_EXP_MISMATCH : Fld := ⟨19, 1⟩
def CLU_ENG_SAT (g : Nat) : Nat := cluBase g + 0x204
def fCLU_ENG_SAT_STAGE : Fld := ⟨0, 16⟩
def fCLU_ENG_SAT_DRIVE : Fld := ⟨16, 1⟩
def CLU_ENG_CTL (g : Nat) : Nat := cluBase g + 0x208
def fCLU_ENG_CTL_GUARD_ALL : Fld := ⟨0, 1⟩
def CLU_ENG_TEST (g : Nat) : Nat := cluBase g + 0x20C
def fCLU_ENG_TEST_GO : Fld := ⟨0, 1⟩
def fCLU_ENG_TEST_TEST_LANE : Fld := ⟨8, 3⟩
def fCLU_ENG_TEST_TEST_CH : Fld := ⟨12, 2⟩
def CLU_ENG_EXP (g : Nat) (i : Nat) : Nat := cluBase g + 0x210 + 4 * i
def fCLU_ENG_EXP_EXP_ERR : Fld := ⟨0, 8⟩
def fCLU_ENG_EXP_EXP_P : Fld := ⟨8, 8⟩
def fCLU_ENG_EXP_EXP_I : Fld := ⟨16, 8⟩
def fCLU_ENG_EXP_EXP_OUT : Fld := ⟨24, 8⟩
def CLU_ENG_EXP4 (g : Nat) : Nat := cluBase g + 0x220
def fCLU_ENG_EXP4_EXP_DRIVE : Fld := ⟨0, 8⟩
def CLU_ENG_CNT (g : Nat) : Nat := cluBase g + 0x228
def fCLU_ENG_CNT_RECOMPUTES : Fld := ⟨0, 16⟩
def fCLU_ENG_CNT_UNRECOVERED : Fld := ⟨16, 16⟩
def CLU_CAP_CFG (g : Nat) : Nat := cluBase g + 0x300
def fCLU_CAP_CFG_WAYS : Fld := ⟨0, 3⟩
def fCLU_CAP_CFG_TRIG : Fld := ⟨4, 3⟩
def fCLU_CAP_CFG_TRIG_WAY : Fld := ⟨8, 5⟩
def fCLU_CAP_CFG_PRE : Fld := ⟨16, 12⟩
def CLU_CAP_LEVEL (g : Nat) : Nat := cluBase g + 0x304
def CLU_CAP_AT_LO (g : Nat) : Nat := cluBase g + 0x308
def CLU_CAP_AT_HI (g : Nat) : Nat := cluBase g + 0x30C
def CLU_CAP_WAY (g : Nat) (i : Nat) : Nat := cluBase g + 0x310 + 4 * i
def fCLU_CAP_WAY_CH0 : Fld := ⟨0, 5⟩
def fCLU_CAP_WAY_CH1 : Fld := ⟨8, 5⟩
def fCLU_CAP_WAY_CH2 : Fld := ⟨16, 5⟩
def fCLU_CAP_WAY_CH3 : Fld := ⟨24, 5⟩
def fCLU_CAP_WAY_EN0 : Fld := ⟨7, 1⟩
def fCLU_CAP_WAY_EN1 : Fld := ⟨15, 1⟩
def fCLU_CAP_WAY_EN2 : Fld := ⟨23, 1⟩
def fCLU_CAP_WAY_EN3 : Fld := ⟨31, 1⟩
def CLU_CAP_GO (g : Nat) : Nat := cluBase g + 0x330
def fCLU_CAP_GO_ARM : Fld := ⟨0, 1⟩
def fCLU_CAP_GO_STOP : Fld := ⟨1, 1⟩
def fCLU_CAP_GO_FORCE : Fld := ⟨2, 1⟩
def CLU_CAP_STAT (g : Nat) : Nat := cluBase g + 0x334
def fCLU_CAP_STAT_STATE : Fld := ⟨0, 2⟩
def fCLU_CAP_STAT_PRE_SHORT : Fld := ⟨8, 1⟩
def fCLU_CAP_STAT_LATE : Fld := ⟨9, 1⟩
def fCLU_CAP_STAT_STOPPED : Fld := ⟨10, 1⟩
def fCLU_CAP_STAT_TRIG_IDX : Fld := ⟨16, 12⟩
def CLU_CAP_TSTAMP_LO (g : Nat) : Nat := cluBase g + 0x338
def CLU_CAP_TSTAMP_HI (g : Nat) : Nat := cluBase g + 0x33C
def CLU_SEQ_START (g : Nat) : Nat := cluBase g + 0x400
def CLU_SEQ_START_AT (g : Nat) : Nat := cluBase g + 0x404
def CLU_SEQ_AT_LO (g : Nat) : Nat := cluBase g + 0x408
def CLU_SEQ_AT_HI (g : Nat) : Nat := cluBase g + 0x40C
def CLU_SEQ_STOP (g : Nat) : Nat := cluBase g + 0x410
def CLU_SEQ_HOST (g : Nat) : Nat := cluBase g + 0x414
def CLU_MRK_CTL (g : Nat) : Nat := cluBase g + 0x418
def fCLU_MRK_CTL_CH : Fld := ⟨0, 5⟩
def fCLU_MRK_CTL_BIT : Fld := ⟨5, 2⟩
def fCLU_MRK_CTL_EN : Fld := ⟨7, 1⟩
def CLU_SEQ_UR (g : Nat) : Nat := cluBase g + 0x41C
def EVL_GRP_CTL (g : Nat) (i : Nat) : Nat := cluBase g + 0x500 + 0x80 * i
def fEVL_GRP_CTL_MODE : Fld := ⟨0, 2⟩
def EVL_GRP_BASE (g : Nat) (i : Nat) : Nat := cluBase g + 0x504 + 0x80 * i
def EVL_GRP_LEN (g : Nat) (i : Nat) : Nat := cluBase g + 0x508 + 0x80 * i
def fEVL_GRP_LEN_LEN : Fld := ⟨0, 16⟩
def EVL_GRP_AT (g : Nat) (i : Nat) : Nat := cluBase g + 0x50C + 0x80 * i
def EVL_GRP_GO (g : Nat) (i : Nat) : Nat := cluBase g + 0x510 + 0x80 * i
def fEVL_GRP_GO_ARM : Fld := ⟨0, 1⟩
def fEVL_GRP_GO_START : Fld := ⟨1, 1⟩
def fEVL_GRP_GO_AT : Fld := ⟨2, 1⟩
def fEVL_GRP_GO_STOP : Fld := ⟨3, 1⟩
def EVL_GRP_FILL (g : Nat) (i : Nat) : Nat := cluBase g + 0x514 + 0x80 * i
def fEVL_GRP_FILL_ADD : Fld := ⟨0, 16⟩
def EVL_GRP_STAT (g : Nat) (i : Nat) : Nat := cluBase g + 0x518 + 0x80 * i
def fEVL_GRP_STAT_STATE : Fld := ⟨0, 3⟩
def fEVL_GRP_STAT_TS_NOW : Fld := ⟨4, 3⟩
def fEVL_GRP_STAT_LATE : Fld := ⟨8, 1⟩
def fEVL_GRP_STAT_REFUSED : Fld := ⟨9, 1⟩
def fEVL_GRP_STAT_UNDERRUN : Fld := ⟨10, 1⟩
def fEVL_GRP_STAT_FILL_OVER : Fld := ⟨11, 1⟩
def fEVL_GRP_STAT_TS_BAD : Fld := ⟨12, 1⟩
def fEVL_GRP_STAT_ECC : Fld := ⟨13, 1⟩
def fEVL_GRP_STAT_ENDED : Fld := ⟨14, 1⟩
def fEVL_GRP_STAT_DONE : Fld := ⟨15, 1⟩
def EVL_GRP_POS (g : Nat) (i : Nat) : Nat := cluBase g + 0x51C + 0x80 * i
def fEVL_GRP_POS_VECTOR : Fld := ⟨0, 25⟩
def EVL_GRP_CREDIT (g : Nat) (i : Nat) : Nat := cluBase g + 0x520 + 0x80 * i
def fEVL_GRP_CREDIT_CREDIT : Fld := ⟨0, 16⟩
def fEVL_GRP_CREDIT_OWED : Fld := ⟨16, 16⟩
def EVL_GRP_UR_CYCLE (g : Nat) (i : Nat) : Nat := cluBase g + 0x524 + 0x80 * i
def EVL_GRP_CYCLE0 (g : Nat) (i : Nat) : Nat := cluBase g + 0x528 + 0x80 * i
def EVL_TS_E1 (g : Nat) (i : Nat) (j : Nat) (k : Nat) : Nat := cluBase g + 0x600 + 0x100 * i + 0x20 * j + 8 * k
def EVL_TS_E2 (g : Nat) (i : Nat) (j : Nat) (k : Nat) : Nat := cluBase g + 0x604 + 0x100 * i + 0x20 * j + 8 * k
def EVL_LANE_CTL (g : Nat) (i : Nat) : Nat := cluBase g + 0x800 + 0x20 * i
def fEVL_LANE_CTL_IDLE : Fld := ⟨0, 1⟩
def fEVL_LANE_CTL_INV : Fld := ⟨1, 1⟩
def fEVL_LANE_CTL_SAFE : Fld := ⟨2, 1⟩
def fEVL_LANE_CTL_CAP_EDGE : Fld := ⟨4, 2⟩
def EVL_LANE_STAT (g : Nat) (i : Nat) : Nat := cluBase g + 0x804 + 0x20 * i
def fEVL_LANE_STAT_OWNED : Fld := ⟨0, 1⟩
def fEVL_LANE_STAT_OWNER : Fld := ⟨1, 5⟩
def fEVL_LANE_STAT_DIR : Fld := ⟨6, 1⟩
def fEVL_LANE_STAT_LEVEL : Fld := ⟨7, 1⟩
def fEVL_LANE_STAT_HIZ : Fld := ⟨8, 1⟩
def fEVL_LANE_STAT_COLLAPSED : Fld := ⟨16, 1⟩
def fEVL_LANE_STAT_COND_SEEN : Fld := ⟨17, 1⟩
def fEVL_LANE_STAT_CAP_NEW : Fld := ⟨18, 1⟩
def fEVL_LANE_STAT_CAP_OVER : Fld := ⟨19, 1⟩
def EVL_LANE_CAP_LO (g : Nat) (i : Nat) : Nat := cluBase g + 0x808 + 0x20 * i
def EVL_LANE_CAP_HI (g : Nat) (i : Nat) : Nat := cluBase g + 0x80C + 0x20 * i
def EVL_LANE_CAP_CNT (g : Nat) (i : Nat) : Nat := cluBase g + 0x810 + 0x20 * i

/-! ### Addresses and fields: ch registers -/

def CH_SETPOINT (n : Nat) : Nat := chBase n + 0
def CH_SLEW_RATE (n : Nat) : Nat := chBase n + 4
def CH_SLEW_ACC (n : Nat) : Nat := chBase n + 8
def CH_DRIVE_HI (n : Nat) : Nat := chBase n + 0xC
def CH_DRIVE_LO (n : Nat) : Nat := chBase n + 0x10
def CH_RAIL_NOM (n : Nat) : Nat := chBase n + 0x14
def CH_LOOP_STAT (n : Nat) : Nat := chBase n + 0x20
def fCH_LOOP_STAT_CTRL : Fld := ⟨0, 3⟩
def fCH_LOOP_STAT_CONFLICT_NOW : Fld := ⟨3, 1⟩
def fCH_LOOP_STAT_AUX_STALE_NOW : Fld := ⟨4, 1⟩
def fCH_LOOP_STAT_SEEN : Fld := ⟨8, 4⟩
def fCH_LOOP_STAT_SEEN_HI : Fld := ⟨12, 1⟩
def fCH_LOOP_STAT_SEEN_LO : Fld := ⟨13, 1⟩
def fCH_LOOP_STAT_CONFLICT : Fld := ⟨14, 1⟩
def fCH_LOOP_STAT_AUX_STALE : Fld := ⟨15, 1⟩
def CH_DRIVE_NOW (n : Nat) : Nat := chBase n + 0x24
def CH_SLEW_NOW (n : Nat) : Nat := chBase n + 0x28
def CH_COEF_SWAP (n : Nat) : Nat := chBase n + 0x30
def fCH_COEF_SWAP_SWAP : Fld := ⟨0, 1⟩
def fCH_COEF_SWAP_AT : Fld := ⟨1, 1⟩
def fCH_COEF_SWAP_CANCEL : Fld := ⟨2, 1⟩
def CH_COEF_AT_LO (n : Nat) : Nat := chBase n + 0x34
def CH_COEF_AT_HI (n : Nat) : Nat := chBase n + 0x38
def CH_COEF_STAT (n : Nat) : Nat := chBase n + 0x3C
def fCH_COEF_STAT_ACTIVE : Fld := ⟨0, 1⟩
def fCH_COEF_STAT_PENDING : Fld := ⟨1, 1⟩
def fCH_COEF_STAT_REFUSED : Fld := ⟨8, 1⟩
def fCH_COEF_STAT_LATE : Fld := ⟨9, 1⟩
def fCH_COEF_STAT_CLAMPED : Fld := ⟨10, 1⟩
def fCH_COEF_STAT_SWAPS : Fld := ⟨16, 8⟩
def CH_GANG_STAT (n : Nat) : Nat := chBase n + 0x40
def fCH_GANG_STAT_MEMBER : Fld := ⟨0, 1⟩
def fCH_GANG_STAT_LEADER : Fld := ⟨1, 1⟩
def fCH_GANG_STAT_MATCH : Fld := ⟨2, 1⟩
def fCH_GANG_STAT_MISMATCH : Fld := ⟨8, 1⟩
def fCH_GANG_STAT_COUNT_SHORT : Fld := ⟨9, 1⟩
def fCH_GANG_STAT_RECEIVED : Fld := ⟨16, 7⟩
def fCH_GANG_STAT_GANG_ID : Fld := ⟨24, 8⟩
def CH_GANG_SHARE (n : Nat) : Nat := chBase n + 0x44
def CH_DAC_CTL (n : Nat) : Nat := chBase n + 0x48
def fCH_DAC_CTL_FORCE_SAFE : Fld := ⟨0, 1⟩
def CH_DAC_CODE (n : Nat) : Nat := chBase n + 0x4C
def fCH_DAC_CODE_CODE : Fld := ⟨0, 20⟩
def fCH_DAC_CODE_SAFE : Fld := ⟨20, 1⟩
def CH_SAFE_CODE (n : Nat) : Nat := chBase n + 0x50
def fCH_SAFE_CODE_SAFE : Fld := ⟨0, 20⟩
def CH_DAC_SUP_CTL (n : Nat) : Nat := chBase n + 0x54
def fCH_DAC_SUP_CTL_OPEN_N : Fld := ⟨0, 4⟩
def fCH_DAC_SUP_CTL_COMPL_N : Fld := ⟨8, 4⟩
def fCH_DAC_SUP_CTL_OPEN_ACT : Fld := ⟨16, 3⟩
def fCH_DAC_SUP_CTL_COMPL_ACT : Fld := ⟨20, 3⟩
def CH_DAC_STAT (n : Nat) : Nat := chBase n + 0x58
def fCH_DAC_STAT_MODE : Fld := ⟨0, 1⟩
def fCH_DAC_STAT_PARK : Fld := ⟨1, 1⟩
def fCH_DAC_STAT_HIZ : Fld := ⟨2, 1⟩
def fCH_DAC_STAT_SWITCHING : Fld := ⟨3, 1⟩
def fCH_DAC_STAT_OPEN_NOW : Fld := ⟨4, 1⟩
def fCH_DAC_STAT_COMPL_NOW : Fld := ⟨5, 1⟩
def fCH_DAC_STAT_OPEN : Fld := ⟨8, 1⟩
def fCH_DAC_STAT_COMPL : Fld := ⟨9, 1⟩
def fCH_DAC_STAT_DEGLITCH : Fld := ⟨10, 1⟩
def fCH_DAC_STAT_OPEN_CNT : Fld := ⟨16, 4⟩
def fCH_DAC_STAT_COMPL_CNT : Fld := ⟨20, 4⟩
def CH_SAFE_SRC (n : Nat) : Nat := chBase n + 0x5C
def fCH_SAFE_SRC_HOLD : Fld := ⟨0, 10⟩
def fCH_SAFE_SRC_SEEN : Fld := ⟨16, 10⟩
def CH_RANGE_CTL (n : Nat) : Nat := chBase n + 0x60
def fCH_RANGE_CTL_MAKE : Fld := ⟨0, 4⟩
def fCH_RANGE_CTL_BLIND : Fld := ⟨4, 5⟩
def fCH_RANGE_CTL_BURDEN_EN : Fld := ⟨9, 1⟩
def fCH_RANGE_CTL_NORESCALE : Fld := ⟨10, 1⟩
def fCH_RANGE_CTL_USER : Fld := ⟨12, 4⟩
def CH_RANGE_AUTO (n : Nat) : Nat := chBase n + 0x64
def fCH_RANGE_AUTO_EN : Fld := ⟨0, 1⟩
def fCH_RANGE_AUTO_MIN : Fld := ⟨1, 3⟩
def fCH_RANGE_AUTO_MAX : Fld := ⟨4, 3⟩
def fCH_RANGE_AUTO_N_UP : Fld := ⟨8, 8⟩
def fCH_RANGE_AUTO_N_DOWN : Fld := ⟨16, 8⟩
def fCH_RANGE_AUTO_HOLD : Fld := ⟨24, 8⟩
def CH_RANGE_UP_TH (n : Nat) : Nat := chBase n + 0x68
def CH_RANGE_DN_TH (n : Nat) : Nat := chBase n + 0x6C
def CH_IRANGE_SCALE (n : Nat) (i : Nat) : Nat := chBase n + 0x70 + 4 * i
def fCH_IRANGE_SCALE_M : Fld := ⟨0, 24⟩
def fCH_IRANGE_SCALE_E : Fld := ⟨24, 8⟩
def CH_IRANGE_CFG (n : Nat) (i : Nat) : Nat := chBase n + 0x88 + 4 * i
def fCH_IRANGE_CFG_EN : Fld := ⟨0, 1⟩
def fCH_IRANGE_CFG_BANK : Fld := ⟨1, 2⟩
def CH_IRANGE_BURDEN (n : Nat) (i : Nat) : Nat := chBase n + 0xA0 + 4 * i
def CH_VRANGE_SCALE (n : Nat) (i : Nat) : Nat := chBase n + 0xB8 + 4 * i
def fCH_VRANGE_SCALE_M : Fld := ⟨0, 24⟩
def fCH_VRANGE_SCALE_E : Fld := ⟨24, 8⟩
def CH_RANGE_NOW (n : Nat) : Nat := chBase n + 0xC8
def fCH_RANGE_NOW_WORD : Fld := ⟨0, 12⟩
def fCH_RANGE_NOW_IRANGE : Fld := ⟨12, 3⟩
def fCH_RANGE_NOW_VRANGE : Fld := ⟨16, 2⟩
def fCH_RANGE_NOW_PHASE : Fld := ⟨18, 2⟩
def CH_RANGE_REQ (n : Nat) : Nat := chBase n + 0xCC
def fCH_RANGE_REQ_IRANGE : Fld := ⟨0, 3⟩
def fCH_RANGE_REQ_I_GO : Fld := ⟨3, 1⟩
def fCH_RANGE_REQ_VRANGE : Fld := ⟨4, 2⟩
def fCH_RANGE_REQ_V_GO : Fld := ⟨6, 1⟩
def fCH_RANGE_REQ_AT : Fld := ⟨7, 1⟩
def fCH_RANGE_REQ_CANCEL : Fld := ⟨8, 1⟩
def CH_RANGE_AT_LO (n : Nat) : Nat := chBase n + 0xD0
def CH_RANGE_AT_HI (n : Nat) : Nat := chBase n + 0xD4
def CH_RANGE_STAT (n : Nat) : Nat := chBase n + 0xD8
def fCH_RANGE_STAT_PENDING : Fld := ⟨0, 1⟩
def fCH_RANGE_STAT_IN_PROGRESS : Fld := ⟨1, 1⟩
def fCH_RANGE_STAT_REFUSED : Fld := ⟨8, 1⟩
def fCH_RANGE_STAT_INVALID : Fld := ⟨9, 1⟩
def fCH_RANGE_STAT_DEFERRED : Fld := ⟨10, 1⟩
def fCH_RANGE_STAT_LATE : Fld := ⟨11, 1⟩
def fCH_RANGE_STAT_RESCALE_SAT : Fld := ⟨12, 1⟩
def fCH_RANGE_STAT_BURDEN_CLAMP : Fld := ⟨13, 1⟩
def fCH_RANGE_STAT_UNMODELLED : Fld := ⟨14, 1⟩
def fCH_RANGE_STAT_AUTO_UP : Fld := ⟨15, 1⟩
def fCH_RANGE_STAT_AUTO_DOWN : Fld := ⟨16, 1⟩
def fCH_RANGE_STAT_CHANGES : Fld := ⟨24, 8⟩
def CH_RANGE_STAMP_LO (n : Nat) : Nat := chBase n + 0xDC
def CH_RANGE_STAMP_HI (n : Nat) : Nat := chBase n + 0xE0
def CH_RANGE_SAFE (n : Nat) : Nat := chBase n + 0xE4
def fCH_RANGE_SAFE_WORD : Fld := ⟨0, 12⟩
def CH_ADC_CTL (n : Nat) : Nat := chBase n + 0xE8
def fCH_ADC_CTL_CHOP : Fld := ⟨0, 1⟩
def CH_ADC_STAT (n : Nat) : Nat := chBase n + 0xEC
def fCH_ADC_STAT_CHOP_NOW : Fld := ⟨0, 1⟩
def fCH_ADC_STAT_V_CLIP : Fld := ⟨8, 1⟩
def fCH_ADC_STAT_I_CLIP : Fld := ⟨9, 1⟩
def fCH_ADC_STAT_V_OVER : Fld := ⟨10, 1⟩
def fCH_ADC_STAT_I_OVER : Fld := ⟨11, 1⟩
def CH_ENG_CTL (n : Nat) : Nat := chBase n + 0xF0
def fCH_ENG_CTL_GUARD_FORCE : Fld := ⟨0, 1⟩
def CH_ENG_STAT (n : Nat) : Nat := chBase n + 0xF4
def fCH_ENG_STAT_MODE : Fld := ⟨0, 1⟩
def fCH_ENG_STAT_TIMER : Fld := ⟨1, 1⟩
def fCH_ENG_STAT_INJECT : Fld := ⟨2, 1⟩
def fCH_ENG_STAT_FORCED : Fld := ⟨3, 1⟩
def fCH_ENG_STAT_GUARD_LEFT : Fld := ⟨8, 13⟩
def fCH_ENG_STAT_RES_FAIL : Fld := ⟨24, 1⟩
def fCH_ENG_STAT_RECOMPUTED : Fld := ⟨25, 1⟩
def fCH_ENG_STAT_UNRECOVERED : Fld := ⟨26, 1⟩
def CH_INT_EN (n : Nat) : Nat := chBase n + 0xF8
def fCH_INT_EN_TRIP : Fld := ⟨0, 1⟩
def fCH_INT_EN_MODEL : Fld := ⟨1, 1⟩
def fCH_INT_EN_SUPV : Fld := ⟨2, 1⟩
def fCH_INT_EN_UNDERRUN : Fld := ⟨3, 1⟩
def fCH_INT_EN_SEQ_END : Fld := ⟨4, 1⟩
def fCH_INT_EN_SEQ_FAULT : Fld := ⟨5, 1⟩
def fCH_INT_EN_APT_LOST : Fld := ⟨6, 1⟩
def fCH_INT_EN_RANGE : Fld := ⟨7, 1⟩
def CH_INT_STAT (n : Nat) : Nat := chBase n + 0xFC
def fCH_INT_STAT_TRIP : Fld := ⟨0, 1⟩
def fCH_INT_STAT_MODEL : Fld := ⟨1, 1⟩
def fCH_INT_STAT_SUPV : Fld := ⟨2, 1⟩
def fCH_INT_STAT_UNDERRUN : Fld := ⟨3, 1⟩
def fCH_INT_STAT_SEQ_END : Fld := ⟨4, 1⟩
def fCH_INT_STAT_SEQ_FAULT : Fld := ⟨5, 1⟩
def fCH_INT_STAT_APT_LOST : Fld := ⟨6, 1⟩
def fCH_INT_STAT_RANGE : Fld := ⟨7, 1⟩
def LOOP_LIMIT (n : Nat) (i : Nat) : Nat := chBase n + 0x100 + 0x80 * i
def LOOP_STAT (n : Nat) (i : Nat) : Nat := chBase n + 0x104 + 0x80 * i
def fLOOP_STAT_KIND : Fld := ⟨0, 2⟩
def fLOOP_STAT_SRC : Fld := ⟨2, 3⟩
def fLOOP_STAT_IN_CTRL : Fld := ⟨8, 1⟩
def fLOOP_STAT_TRACKING : Fld := ⟨9, 1⟩
def fLOOP_STAT_CTRL_SEEN : Fld := ⟨16, 1⟩
def fLOOP_STAT_TRACKED : Fld := ⟨17, 1⟩
def LOOP_ERR (n : Nat) (i : Nat) : Nat := chBase n + 0x108 + 0x80 * i
def LOOP_OUT (n : Nat) (i : Nat) : Nat := chBase n + 0x10C + 0x80 * i
def LOOP_INT (n : Nat) (i : Nat) : Nat := chBase n + 0x110 + 0x80 * i
def LOOP_SAT (n : Nat) (i : Nat) : Nat := chBase n + 0x17C + 0x80 * i
def fLOOP_SAT_ERR : Fld := ⟨0, 1⟩
def fLOOP_SAT_P : Fld := ⟨1, 1⟩
def fLOOP_SAT_I : Fld := ⟨2, 1⟩
def fLOOP_SAT_OUT : Fld := ⟨3, 1⟩
def fLOOP_SAT_FROZEN : Fld := ⟨4, 1⟩
def fLOOP_SAT_I_NOW : Fld := ⟨8, 1⟩
def fLOOP_SAT_FROZEN_NOW : Fld := ⟨9, 1⟩
def CH_MODEL_CTL (n : Nat) : Nat := chBase n + 0x300
def fCH_MODEL_CTL_MU : Fld := ⟨0, 4⟩
def fCH_MODEL_CTL_GATE : Fld := ⟨4, 1⟩
def fCH_MODEL_CTL_FREEZE : Fld := ⟨5, 1⟩
def fCH_MODEL_CTL_ACTION : Fld := ⟨8, 3⟩
def fCH_MODEL_CTL_N : Fld := ⟨16, 8⟩
def CH_MODEL_TH (n : Nat) : Nat := chBase n + 0x304
def CH_MODEL_SETTLE (n : Nat) : Nat := chBase n + 0x308
def fCH_MODEL_SETTLE_SETTLE : Fld := ⟨0, 16⟩
def CH_MODEL_G_INIT (n : Nat) : Nat := chBase n + 0x30C
def CH_MODEL_C_INIT (n : Nat) : Nat := chBase n + 0x310
def CH_MODEL_G (n : Nat) : Nat := chBase n + 0x314
def CH_MODEL_C (n : Nat) : Nat := chBase n + 0x318
def CH_MODEL_RES (n : Nat) : Nat := chBase n + 0x31C
def CH_MODEL_STAT (n : Nat) : Nat := chBase n + 0x320
def fCH_MODEL_STAT_COUNT : Fld := ⟨0, 8⟩
def fCH_MODEL_STAT_SETTLING : Fld := ⟨8, 1⟩
def fCH_MODEL_STAT_HELD : Fld := ⟨9, 1⟩
def fCH_MODEL_STAT_EPISODE : Fld := ⟨10, 1⟩
def fCH_MODEL_STAT_FAULT : Fld := ⟨16, 1⟩
def CH_MODEL_CMD (n : Nat) : Nat := chBase n + 0x324
def fCH_MODEL_CMD_REINIT : Fld := ⟨0, 1⟩
def CH_MODEL_FSTAMP_LO (n : Nat) : Nat := chBase n + 0x328
def CH_MODEL_FSTAMP_HI (n : Nat) : Nat := chBase n + 0x32C
def CH_INJ_CTL (n : Nat) : Nat := chBase n + 0x340
def fCH_INJ_CTL_SOURCE : Fld := ⟨0, 3⟩
def fCH_INJ_CTL_NODE : Fld := ⟨4, 2⟩
def fCH_INJ_CTL_SLOT : Fld := ⟨6, 2⟩
def CH_INJ_AMP (n : Nat) : Nat := chBase n + 0x344
def CH_INJ_FREQ (n : Nat) : Nat := chBase n + 0x348
def CH_INJ_PERIOD (n : Nat) : Nat := chBase n + 0x34C
def fCH_INJ_PERIOD_PERIOD : Fld := ⟨0, 16⟩
def CH_INJ_LEN (n : Nat) : Nat := chBase n + 0x350
def CH_INJ_GO (n : Nat) : Nat := chBase n + 0x354
def fCH_INJ_GO_START : Fld := ⟨0, 1⟩
def fCH_INJ_GO_STOP : Fld := ⟨1, 1⟩
def fCH_INJ_GO_AT : Fld := ⟨2, 1⟩
def CH_INJ_AT_LO (n : Nat) : Nat := chBase n + 0x358
def CH_INJ_AT_HI (n : Nat) : Nat := chBase n + 0x35C
def CH_INJ_STAT (n : Nat) : Nat := chBase n + 0x360
def fCH_INJ_STAT_ACTIVE : Fld := ⟨0, 1⟩
def fCH_INJ_STAT_PENDING : Fld := ⟨1, 1⟩
def fCH_INJ_STAT_DONE : Fld := ⟨8, 1⟩
def fCH_INJ_STAT_ENDED : Fld := ⟨9, 1⟩
def fCH_INJ_STAT_ABSENT : Fld := ⟨10, 1⟩
def fCH_INJ_STAT_LATE : Fld := ⟨11, 1⟩
def CH_CAP_SEL (n : Nat) : Nat := chBase n + 0x364
def fCH_CAP_SEL_SIG0 : Fld := ⟨0, 5⟩
def fCH_CAP_SEL_SIG1 : Fld := ⟨8, 5⟩
def fCH_CAP_SEL_SIG2 : Fld := ⟨16, 5⟩
def fCH_CAP_SEL_SIG3 : Fld := ⟨24, 5⟩
def WIN_CTL (n : Nat) (i : Nat) : Nat := chBase n + 0x400 + 0x20 * i
def fWIN_CTL_EN_HI : Fld := ⟨0, 1⟩
def fWIN_CTL_EN_LO : Fld := ⟨1, 1⟩
def fWIN_CTL_HYS : Fld := ⟨2, 2⟩
def fWIN_CTL_BLANK : Fld := ⟨4, 1⟩
def WIN_TH (n : Nat) (i : Nat) : Nat := chBase n + 0x404 + 0x20 * i
def fWIN_TH_TH_LO : Fld := ⟨0, 12⟩
def fWIN_TH_TH_HI : Fld := ⟨16, 12⟩
def WIN_STAT (n : Nat) (i : Nat) : Nat := chBase n + 0x408 + 0x20 * i
def fWIN_STAT_HI_OUT : Fld := ⟨0, 1⟩
def fWIN_STAT_LO_OUT : Fld := ⟨1, 1⟩
def fWIN_STAT_MASKED : Fld := ⟨2, 1⟩
def fWIN_STAT_SEEN_HI : Fld := ⟨8, 1⟩
def fWIN_STAT_SEEN_LO : Fld := ⟨9, 1⟩
def fWIN_STAT_BLANKED_OUT : Fld := ⟨10, 1⟩
def fWIN_STAT_ACTED : Fld := ⟨11, 1⟩
def WIN_TEST (n : Nat) (i : Nat) : Nat := chBase n + 0x40C + 0x20 * i
def fWIN_TEST_MODE : Fld := ⟨0, 2⟩
def fWIN_TEST_LEVEL : Fld := ⟨16, 12⟩
def WIN_TEST_STAT (n : Nat) (i : Nat) : Nat := chBase n + 0x410 + 0x20 * i
def fWIN_TEST_STAT_BUSY : Fld := ⟨0, 1⟩
def fWIN_TEST_STAT_STEP1 : Fld := ⟨8, 2⟩
def fWIN_TEST_STAT_STEP2 : Fld := ⟨10, 2⟩
def fWIN_TEST_STAT_STEP3 : Fld := ⟨12, 2⟩
def fWIN_TEST_STAT_STEP4 : Fld := ⟨14, 2⟩
def fWIN_TEST_STAT_DONE : Fld := ⟨16, 1⟩
def fWIN_TEST_STAT_FAIL : Fld := ⟨17, 1⟩
def fWIN_TEST_STAT_REFUSED : Fld := ⟨18, 1⟩
def WIN_BLANK_CTL (n : Nat) : Nat := chBase n + 0x440
def fWIN_BLANK_CTL_SRC : Fld := ⟨0, 4⟩
def WIN_BLANK_LEN (n : Nat) : Nat := chBase n + 0x444
def fWIN_BLANK_LEN_LEN : Fld := ⟨0, 16⟩
def WIN_BLANK_STEP (n : Nat) : Nat := chBase n + 0x448
def WIN_BLANK_GO (n : Nat) : Nat := chBase n + 0x44C
def fWIN_BLANK_GO_NOW : Fld := ⟨0, 1⟩
def WIN_BLANK_NOW (n : Nat) : Nat := chBase n + 0x450
def fWIN_BLANK_NOW_REMAIN : Fld := ⟨0, 16⟩
def fWIN_BLANK_NOW_ACTIVE : Fld := ⟨16, 1⟩
def PG_CTL (n : Nat) : Nat := chBase n + 0x500
def fPG_CTL_UNIT : Fld := ⟨0, 1⟩
def fPG_CTL_START_SRC : Fld := ⟨1, 1⟩
def fPG_CTL_MKR : Fld := ⟨2, 2⟩
def fPG_CTL_REPEAT : Fld := ⟨4, 1⟩
def PG_AMP (n : Nat) : Nat := chBase n + 0x504
def PG_DELAY (n : Nat) : Nat := chBase n + 0x508
def fPG_DELAY_VALUE : Fld := ⟨0, 24⟩
def PG_WIDTH (n : Nat) : Nat := chBase n + 0x50C
def fPG_WIDTH_VALUE : Fld := ⟨0, 24⟩
def PG_PERIOD (n : Nat) : Nat := chBase n + 0x510
def fPG_PERIOD_VALUE : Fld := ⟨0, 24⟩
def PG_COUNT (n : Nat) : Nat := chBase n + 0x514
def PG_AT_LO (n : Nat) : Nat := chBase n + 0x518
def PG_AT_HI (n : Nat) : Nat := chBase n + 0x51C
def PG_GO (n : Nat) : Nat := chBase n + 0x520
def fPG_GO_START : Fld := ⟨0, 1⟩
def fPG_GO_STOP : Fld := ⟨1, 1⟩
def fPG_GO_AT : Fld := ⟨2, 1⟩
def fPG_GO_RELEASE : Fld := ⟨3, 1⟩
def PG_STAT (n : Nat) : Nat := chBase n + 0x524
def fPG_STAT_ARMED : Fld := ⟨0, 1⟩
def fPG_STAT_ACTIVE : Fld := ⟨1, 1⟩
def fPG_STAT_TRIPPED : Fld := ⟨2, 1⟩
def fPG_STAT_DONE : Fld := ⟨8, 1⟩
def fPG_STAT_ABORTED : Fld := ⟨9, 1⟩
def fPG_STAT_LATE : Fld := ⟨10, 1⟩
def fPG_STAT_REFUSED : Fld := ⟨11, 1⟩
def fPG_STAT_MISSED : Fld := ⟨12, 1⟩
def fPG_STAT_RELEASE_REFUSED : Fld := ⟨13, 1⟩
def fPG_STAT_AUTO_EXHAUSTED : Fld := ⟨14, 1⟩
def fPG_STAT_AUTO_COUNT : Fld := ⟨16, 4⟩
def PG_REL_CTL (n : Nat) : Nat := chBase n + 0x528
def fPG_REL_CTL_AUTO : Fld := ⟨0, 1⟩
def fPG_REL_CTL_RAMP : Fld := ⟨1, 1⟩
def fPG_REL_CTL_MAX : Fld := ⟨4, 4⟩
def fPG_REL_CTL_HOLDOFF : Fld := ⟨16, 16⟩
def PG_TRIP_SRC (n : Nat) : Nat := chBase n + 0x52C
def fPG_TRIP_SRC_NOW : Fld := ⟨0, 8⟩
def fPG_TRIP_SRC_LAST : Fld := ⟨8, 3⟩
def fPG_TRIP_SRC_QUAD_LANE : Fld := ⟨12, 2⟩
def fPG_TRIP_SRC_SEEN : Fld := ⟨16, 8⟩
def PG_TRIP_STAMP_LO (n : Nat) : Nat := chBase n + 0x530
def PG_TRIP_STAMP_HI (n : Nat) : Nat := chBase n + 0x534
def PG_TRIP_FINE (n : Nat) : Nat := chBase n + 0x538
def fPG_TRIP_FINE_CYCLE : Fld := ⟨0, 9⟩
def PG_TRIP_CNT (n : Nat) : Nat := chBase n + 0x53C
def SEQ_CTL (n : Nat) : Nat := chBase n + 0x600
def fSEQ_CTL_STREAM : Fld := ⟨0, 1⟩
def fSEQ_CTL_UR_MODE : Fld := ⟨1, 1⟩
def fSEQ_CTL_TRG_EN : Fld := ⟨2, 1⟩
def fSEQ_CTL_TRG_SEL : Fld := ⟨4, 3⟩
def SEQ_TABLE_BASE (n : Nat) : Nat := chBase n + 0x604
def SEQ_TABLE_LEN (n : Nat) : Nat := chBase n + 0x608
def fSEQ_TABLE_LEN_TABLE_LEN : Fld := ⟨0, 12⟩
def SEQ_START_IDX (n : Nat) : Nat := chBase n + 0x60C
def fSEQ_START_IDX_START_IDX : Fld := ⟨0, 12⟩
def SEQ_RING (n : Nat) : Nat := chBase n + 0x610
def fSEQ_RING_FIRST : Fld := ⟨0, 12⟩
def fSEQ_RING_LAST : Fld := ⟨16, 12⟩
def SEQ_AT_LO (n : Nat) : Nat := chBase n + 0x614
def SEQ_AT_HI (n : Nat) : Nat := chBase n + 0x618
def SEQ_GO (n : Nat) : Nat := chBase n + 0x61C
def fSEQ_GO_ARM : Fld := ⟨0, 1⟩
def fSEQ_GO_START : Fld := ⟨1, 1⟩
def fSEQ_GO_AT : Fld := ⟨2, 1⟩
def fSEQ_GO_STOP : Fld := ⟨3, 1⟩
def fSEQ_GO_HOST_EVT : Fld := ⟨4, 1⟩
def SEQ_JUMP (n : Nat) : Nat := chBase n + 0x620
def fSEQ_JUMP_TARGET : Fld := ⟨0, 12⟩
def fSEQ_JUMP_GO : Fld := ⟨12, 1⟩
def fSEQ_JUMP_AT : Fld := ⟨13, 1⟩
def SEQ_JUMP_AT_LO (n : Nat) : Nat := chBase n + 0x624
def SEQ_JUMP_AT_HI (n : Nat) : Nat := chBase n + 0x628
def SEQ_FILL (n : Nat) : Nat := chBase n + 0x62C
def fSEQ_FILL_ADD : Fld := ⟨0, 12⟩
def SEQ_STAT (n : Nat) : Nat := chBase n + 0x630
def fSEQ_STAT_STATE : Fld := ⟨0, 3⟩
def fSEQ_STAT_STREAM_NOW : Fld := ⟨3, 1⟩
def fSEQ_STAT_HOST_FLAG : Fld := ⟨4, 1⟩
def fSEQ_STAT_LATE_PENDING : Fld := ⟨5, 1⟩
def fSEQ_STAT_UNDERRUN : Fld := ⟨8, 1⟩
def fSEQ_STAT_LATE_JUMP : Fld := ⟨9, 1⟩
def fSEQ_STAT_JUMP_DROPPED : Fld := ⟨10, 1⟩
def fSEQ_STAT_LATE : Fld := ⟨11, 1⟩
def fSEQ_STAT_REFUSED : Fld := ⟨12, 1⟩
def fSEQ_STAT_BAD_DESC : Fld := ⟨13, 1⟩
def fSEQ_STAT_ECC : Fld := ⟨14, 1⟩
def fSEQ_STAT_ENDED : Fld := ⟨15, 1⟩
def fSEQ_STAT_DONE : Fld := ⟨16, 1⟩
def fSEQ_STAT_FILL_OVER : Fld := ⟨17, 1⟩
def fSEQ_STAT_RATE_CLAMP : Fld := ⟨18, 1⟩
def SEQ_POS (n : Nat) : Nat := chBase n + 0x634
def fSEQ_POS_ACTIVE : Fld := ⟨0, 12⟩
def fSEQ_POS_NEXT : Fld := ⟨16, 12⟩
def SEQ_SAMPLE (n : Nat) : Nat := chBase n + 0x638
def fSEQ_SAMPLE_INDEX : Fld := ⟨0, 24⟩
def SEQ_CREDIT (n : Nat) : Nat := chBase n + 0x63C
def fSEQ_CREDIT_CREDIT : Fld := ⟨0, 12⟩
def fSEQ_CREDIT_OWED : Fld := ⟨16, 12⟩
def SEQ_UR_STAMP_LO (n : Nat) : Nat := chBase n + 0x640
def SEQ_UR_STAMP_HI (n : Nat) : Nat := chBase n + 0x644
def SEQ_DROPPED (n : Nat) : Nat := chBase n + 0x648
def SEQ_LOOP01 (n : Nat) : Nat := chBase n + 0x64C
def fSEQ_LOOP01_CTR_LO : Fld := ⟨0, 16⟩
def fSEQ_LOOP01_CTR_HI : Fld := ⟨16, 16⟩
def SEQ_LOOP23 (n : Nat) : Nat := chBase n + 0x650
def fSEQ_LOOP23_CTR_LO : Fld := ⟨0, 16⟩
def fSEQ_LOOP23_CTR_HI : Fld := ⟨16, 16⟩
def SEQ_ERR (n : Nat) : Nat := chBase n + 0x654
def fSEQ_ERR_INDEX : Fld := ⟨0, 12⟩
def fSEQ_ERR_CODE : Fld := ⟨16, 4⟩
def SEQ_SEG_STAMP_LO (n : Nat) : Nat := chBase n + 0x658
def SEQ_SEG_STAMP_HI (n : Nat) : Nat := chBase n + 0x65C
def SEQ_SEGS (n : Nat) : Nat := chBase n + 0x660
def APT_CTL (n : Nat) : Nat := chBase n + 0x700
def fAPT_CTL_REPEAT : Fld := ⟨0, 1⟩
def fAPT_CTL_START_SRC : Fld := ⟨1, 1⟩
def fAPT_CTL_MKR : Fld := ⟨2, 2⟩
def fAPT_CTL_RING_MODE : Fld := ⟨4, 1⟩
def APT_LEN_LO (n : Nat) : Nat := chBase n + 0x704
def APT_LEN_HI (n : Nat) : Nat := chBase n + 0x708
def APT_PERIOD_LO (n : Nat) : Nat := chBase n + 0x70C
def APT_PERIOD_HI (n : Nat) : Nat := chBase n + 0x710
def APT_COUNT (n : Nat) : Nat := chBase n + 0x714
def APT_AT_LO (n : Nat) : Nat := chBase n + 0x718
def APT_AT_HI (n : Nat) : Nat := chBase n + 0x71C
def APT_GO (n : Nat) : Nat := chBase n + 0x720
def fAPT_GO_START : Fld := ⟨0, 1⟩
def fAPT_GO_STOP : Fld := ⟨1, 1⟩
def fAPT_GO_AT : Fld := ⟨2, 1⟩
def APT_STAT (n : Nat) : Nat := chBase n + 0x724
def fAPT_STAT_ARMED : Fld := ⟨0, 1⟩
def fAPT_STAT_OPEN : Fld := ⟨1, 1⟩
def fAPT_STAT_LATE : Fld := ⟨8, 1⟩
def fAPT_STAT_REFUSED : Fld := ⟨9, 1⟩
def fAPT_STAT_UNBOUND : Fld := ⟨10, 1⟩
def fAPT_STAT_MISSED_START : Fld := ⟨11, 1⟩
def fAPT_STAT_EMPTY : Fld := ⟨12, 1⟩
def fAPT_STAT_LOST : Fld := ⟨13, 1⟩
def fAPT_STAT_TRUNCATED : Fld := ⟨14, 1⟩
def APT_RING_BASE (n : Nat) : Nat := chBase n + 0x728
def APT_RING_LEN (n : Nat) : Nat := chBase n + 0x72C
def APT_RING_WR (n : Nat) : Nat := chBase n + 0x730
def APT_RING_RD (n : Nat) : Nat := chBase n + 0x734
def APT_LOST (n : Nat) : Nat := chBase n + 0x738
def APT_EMPTY (n : Nat) : Nat := chBase n + 0x73C
def APT_RECORDS (n : Nat) : Nat := chBase n + 0x740
def APT_LAST_WEIGHT_LO (n : Nat) : Nat := chBase n + 0x744
def APT_LAST_WEIGHT_HI (n : Nat) : Nat := chBase n + 0x748
def APT_RAW_CTL (n : Nat) : Nat := chBase n + 0x760
def fAPT_RAW_CTL_SEL : Fld := ⟨0, 2⟩
def fAPT_RAW_CTL_UNCAL : Fld := ⟨2, 1⟩
def fAPT_RAW_CTL_TAG : Fld := ⟨3, 1⟩
def fAPT_RAW_CTL_DECIM : Fld := ⟨4, 4⟩
def fAPT_RAW_CTL_STOP_FULL : Fld := ⟨8, 1⟩
def APT_RAW_BASE (n : Nat) : Nat := chBase n + 0x764
def APT_RAW_LEN (n : Nat) : Nat := chBase n + 0x768
def APT_RAW_AT_LO (n : Nat) : Nat := chBase n + 0x76C
def APT_RAW_AT_HI (n : Nat) : Nat := chBase n + 0x770
def APT_RAW_GO (n : Nat) : Nat := chBase n + 0x774
def fAPT_RAW_GO_START : Fld := ⟨0, 1⟩
def fAPT_RAW_GO_STOP : Fld := ⟨1, 1⟩
def fAPT_RAW_GO_AT : Fld := ⟨2, 1⟩
def APT_RAW_WR (n : Nat) : Nat := chBase n + 0x778
def APT_RAW_STAT (n : Nat) : Nat := chBase n + 0x77C
def fAPT_RAW_STAT_RUNNING : Fld := ⟨0, 1⟩
def fAPT_RAW_STAT_PENDING : Fld := ⟨1, 1⟩
def fAPT_RAW_STAT_LATE : Fld := ⟨8, 1⟩
def fAPT_RAW_STAT_FULL : Fld := ⟨9, 1⟩
def fAPT_RAW_STAT_ENDED : Fld := ⟨10, 1⟩
def fAPT_RAW_STAT_WRAPS : Fld := ⟨16, 16⟩
def APT_RAW_TICK0_LO (n : Nat) : Nat := chBase n + 0x780
def APT_RAW_TICK0_HI (n : Nat) : Nat := chBase n + 0x784
def APT_RAW_STAMP0_LO (n : Nat) : Nat := chBase n + 0x788
def APT_RAW_STAMP0_HI (n : Nat) : Nat := chBase n + 0x78C

/-! ### Addresses and fields: quad registers -/

def QUAD_WELT_CMD (q : Nat) : Nat := quadBase q + 0
def fQUAD_WELT_CMD_KIND : Fld := ⟨0, 2⟩
def fQUAD_WELT_CMD_LANE : Fld := ⟨2, 2⟩
def fQUAD_WELT_CMD_TAKE : Fld := ⟨4, 1⟩
def fQUAD_WELT_CMD_RESTORE : Fld := ⟨5, 1⟩
def QUAD_WELT_STAT (q : Nat) : Nat := quadBase q + 4
def fQUAD_WELT_STAT_PHASE : Fld := ⟨0, 2⟩
def fQUAD_WELT_STAT_ACTIVE : Fld := ⟨2, 1⟩
def fQUAD_WELT_STAT_SESSION : Fld := ⟨3, 1⟩
def fQUAD_WELT_STAT_LANE : Fld := ⟨4, 2⟩
def fQUAD_WELT_STAT_CROSS_MISMATCH : Fld := ⟨8, 1⟩
def fQUAD_WELT_STAT_DISCARDED : Fld := ⟨9, 1⟩
def fQUAD_WELT_STAT_ROTATIONS : Fld := ⟨16, 16⟩
def QUAD_SLICE_MAP (q : Nat) : Nat := quadBase q + 8
def fQUAD_SLICE_MAP_DAC : Fld := ⟨0, 3⟩
def fQUAD_SLICE_MAP_V : Fld := ⟨4, 3⟩
def fQUAD_SLICE_MAP_I : Fld := ⟨8, 3⟩
def QUAD_SLICE_FAIL (q : Nat) : Nat := quadBase q + 0xC
def fQUAD_SLICE_FAIL_FAILED : Fld := ⟨0, 15⟩
def QUAD_SL_GAIN (q : Nat) (i : Nat) : Nat := quadBase q + 0x40 + 0xC * i
def QUAD_SL_OFS (q : Nat) (i : Nat) : Nat := quadBase q + 0x44 + 0xC * i
def QUAD_SL_QUAL (q : Nat) (i : Nat) : Nat := quadBase q + 0x48 + 0xC * i
def fQUAD_SL_QUAL_RES : Fld := ⟨0, 8⟩
def fQUAD_SL_QUAL_AGE : Fld := ⟨8, 8⟩
def fQUAD_SL_QUAL_FAILS : Fld := ⟨16, 4⟩
def fQUAD_SL_QUAL_SUSPECT : Fld := ⟨20, 1⟩
def fQUAD_SL_QUAL_FAILED : Fld := ⟨21, 1⟩
def fQUAD_SL_QUAL_PROD : Fld := ⟨22, 1⟩

/-! ### Addresses and fields: tile registers -/

def TILE_CELL (t : Nat) (i : Nat) : Nat := tileBase t + 0x3F0100 + 4 * i
def TILE_CELL_MEAS (t : Nat) (i : Nat) : Nat := tileBase t + 0x3F0110 + 4 * i
def TILE_CAL_STAT (t : Nat) : Nat := tileBase t + 0x3F0120
def fTILE_CAL_STAT_ACCEPTED : Fld := ⟨0, 4⟩
def fTILE_CAL_STAT_REJECTED : Fld := ⟨4, 4⟩
def fTILE_CAL_STAT_PROD : Fld := ⟨8, 1⟩

/-! ### Addresses and fields: bar4 registers -/

def MBX_GO : Nat := bar4Base + 0
def fMBX_GO_GO : Fld := ⟨0, 1⟩
def MBX_STAT : Nat := bar4Base + 4
def fMBX_STAT_BUSY : Fld := ⟨0, 1⟩
def fMBX_STAT_DONE : Fld := ⟨8, 1⟩
def fMBX_STAT_OVERRUN : Fld := ⟨9, 1⟩
def MBX_INT_EN : Nat := bar4Base + 8
def fMBX_INT_EN_DONE : Fld := ⟨0, 1⟩
def MBX_EVT_STAT : Nat := bar4Base + 0xC
def fMBX_EVT_STAT_WARN : Fld := ⟨0, 1⟩
def fMBX_EVT_STAT_ALARM : Fld := ⟨1, 1⟩
def fMBX_EVT_STAT_LOG : Fld := ⟨2, 1⟩
def fMBX_EVT_STAT_TAKEOVER : Fld := ⟨3, 1⟩
def MBX_EVT_EN : Nat := bar4Base + 0x10
def fMBX_EVT_EN_WARN : Fld := ⟨0, 1⟩
def fMBX_EVT_EN_ALARM : Fld := ⟨1, 1⟩
def fMBX_EVT_EN_LOG : Fld := ⟨2, 1⟩
def fMBX_EVT_EN_TAKEOVER : Fld := ⟨3, 1⟩
def fMBX_EVT_EN_LOG_SEV : Fld := ⟨8, 2⟩
def MBX_CORE : Nat := bar4Base + 0x14
def fMBX_CORE_ACTIVE : Fld := ⟨0, 1⟩
def fMBX_CORE_STBY_STATE : Fld := ⟨1, 2⟩
def fMBX_CORE_PROBATION : Fld := ⟨3, 1⟩
def fMBX_CORE_TAKEOVERS : Fld := ⟨16, 16⟩
def MBX_ENV : Nat := bar4Base + 0x18
def fMBX_ENV_HELD : Fld := ⟨0, 16⟩
def fMBX_ENV_ALARMED : Fld := ⟨16, 16⟩

def hubRegs0 : List RegDef := [
  ⟨"HUB_ID", 0, [], [⟨fHUB_ID_PART, .ro, 0x5120⟩, ⟨fHUB_ID_SILICON, .ro, 0⟩], 0⟩,
  ⟨"HUB_FW", 4, [], [⟨fHUB_FW_BUILD, .ro, 0⟩, ⟨fHUB_FW_MINOR, .ro, 0⟩, ⟨fHUB_FW_MAJOR, .ro, 0⟩, ⟨fHUB_FW_IMAGE, .ro, 0⟩], 0⟩,
  ⟨"HUB_UID_LO", 8, [], [⟨⟨0, 32⟩, .ro, 0⟩], 1⟩,
  ⟨"HUB_UID_HI", 0xC, [], [⟨⟨0, 32⟩, .ro, 0⟩], 2⟩,
  ⟨"HUB_INT_STAT", 0x20, [], [⟨fHUB_INT_STAT_HALT, .w1c, 0⟩, ⟨fHUB_INT_STAT_FAULT, .w1c, 0⟩, ⟨fHUB_INT_STAT_COMMIT, .w1c, 0⟩], 0⟩,
  ⟨"HUB_INT_EN", 0x24, [], [⟨fHUB_INT_EN_HALT, .rw, 0⟩, ⟨fHUB_INT_EN_FAULT, .rw, 0⟩, ⟨fHUB_INT_EN_COMMIT, .rw, 0⟩], 0⟩,
  ⟨"HUB_FAULT_STAT", 0x30, [], [⟨fHUB_FAULT_STAT_ASSERTED, .ro, 0⟩, ⟨fHUB_FAULT_STAT_PIN_LOW, .ro, 0⟩, ⟨fHUB_FAULT_STAT_CAUSE, .w1c, 0⟩, ⟨fHUB_FAULT_STAT_CLEAR_REFUSED, .w1c, 0⟩], 0⟩,
  ⟨"HUB_FAULT_CLR", 0x34, [], [⟨fHUB_FAULT_CLR_CLEAR, .wo, 0⟩], 0⟩,
  ⟨"HUB_CLK_CTL", 0x40, [], [⟨fHUB_CLK_CTL_SEL, .rw, 0⟩], 0⟩,
  ⟨"HUB_CLK_STAT", 0x44, [], [⟨fHUB_CLK_STAT_ACTIVE, .ro, 0⟩, ⟨fHUB_CLK_STAT_A_OK, .ro, 0⟩, ⟨fHUB_CLK_STAT_B_OK, .ro, 0⟩, ⟨fHUB_CLK_STAT_SWITCHING, .ro, 0⟩, ⟨fHUB_CLK_STAT_INTERNAL, .ro, 0⟩, ⟨fHUB_CLK_STAT_SWITCHED, .w1c, 0⟩, ⟨fHUB_CLK_STAT_A_LOST, .w1c, 0⟩, ⟨fHUB_CLK_STAT_B_LOST, .w1c, 0⟩, ⟨fHUB_CLK_STAT_SWITCHES, .ro, 0⟩], 0⟩,
  ⟨"HUB_ISO_CMD", 0x50, [], [⟨fHUB_ISO_CMD_KEY, .wo, 0⟩, ⟨fHUB_ISO_CMD_TILES, .wo, 0⟩], 0⟩,
  ⟨"HUB_ECC_STAT", 0x60, [], [⟨fHUB_ECC_STAT_MEM, .ro, 0⟩, ⟨fHUB_ECC_STAT_CLUSTER, .ro, 0⟩, ⟨fHUB_ECC_STAT_CE, .w1c, 0⟩, ⟨fHUB_ECC_STAT_UE, .w1c, 0⟩], 0⟩,
  ⟨"HUB_ECC_ADDR", 0x64, [], [⟨⟨0, 32⟩, .ro, 0⟩], 0⟩,
  ⟨"HUB_ECC_CE", 0x68, [], [⟨⟨0, 32⟩, .ro, 0⟩], 0⟩,
  ⟨"HUB_ECC_UE", 0x6C, [], [⟨⟨0, 32⟩, .ro, 0⟩], 0⟩,
  ⟨"HUB_HALT", 0x100, [], [⟨fHUB_HALT_HALT, .wo, 0⟩, ⟨fHUB_HALT_CHAIN, .wo, 0⟩], 0⟩,
  ⟨"HUB_HALT_CTL", 0x104, [], [⟨fHUB_HALT_CTL_BALL_TO_CHAIN, .rw, 0⟩, ⟨fHUB_HALT_CTL_DOWN_HALT, .rw, 0⟩], 0⟩,
  ⟨"HUB_HALT_STAT", 0x108, [], [⟨fHUB_HALT_STAT_HALTED, .ro, 0⟩, ⟨fHUB_HALT_STAT_DOORBELL, .ro, 0⟩, ⟨fHUB_HALT_STAT_BALL, .ro, 0⟩, ⟨fHUB_HALT_STAT_CHAIN, .ro, 0⟩, ⟨fHUB_HALT_STAT_BALL_LOW, .ro, 0⟩, ⟨fHUB_HALT_STAT_SEEN_DOORBELL, .w1c, 0⟩, ⟨fHUB_HALT_STAT_SEEN_BALL, .w1c, 0⟩, ⟨fHUB_HALT_STAT_SEEN_CHAIN, .w1c, 0⟩, ⟨fHUB_HALT_STAT_RELEASE_REFUSED, .w1c, 0⟩], 0⟩,
  ⟨"HUB_HALT_REL", 0x10C, [], [⟨fHUB_HALT_REL_RELEASE, .wo, 0⟩], 0⟩,
  ⟨"HUB_HALT_STAMP_LO", 0x110, [], [⟨⟨0, 32⟩, .ro, 0⟩], 1⟩,
  ⟨"HUB_HALT_STAMP_HI", 0x114, [], [⟨⟨0, 32⟩, .ro, 0⟩], 2⟩,
  ⟨"HUB_COMMIT", 0x140, [], [⟨fHUB_COMMIT_GO, .wo, 0⟩, ⟨fHUB_COMMIT_BANK, .wo, 0⟩, ⟨fHUB_COMMIT_AT, .wo, 0⟩], 0⟩,
  ⟨"HUB_COMMIT_AT_LO", 0x144, [], [⟨⟨0, 32⟩, .rw, 0⟩], 1⟩,
  ⟨"HUB_COMMIT_AT_HI", 0x148, [], [⟨⟨0, 32⟩, .rw, 0⟩], 2⟩]
def hubRegs1 : List RegDef := [
  ⟨"HUB_COMMIT_CANCEL", 0x14C, [], [⟨fHUB_COMMIT_CANCEL_CANCEL, .wo, 0⟩], 0⟩,
  ⟨"HUB_COMMIT_STAT", 0x150, [], [⟨fHUB_COMMIT_STAT_GEN, .ro, 0⟩, ⟨fHUB_COMMIT_STAT_PENDING, .ro, 0⟩, ⟨fHUB_COMMIT_STAT_HELD_COMMIT, .ro, 0⟩, ⟨fHUB_COMMIT_STAT_BANK_PENDING, .ro, 0⟩, ⟨fHUB_COMMIT_STAT_SHADOW_BUSY, .w1c, 0⟩, ⟨fHUB_COMMIT_STAT_COMMIT_REFUSED, .w1c, 0⟩, ⟨fHUB_COMMIT_STAT_LATE_STAMP, .w1c, 0⟩], 0⟩,
  ⟨"HUB_REFUSED_ADDR", 0x154, [], [⟨⟨0, 32⟩, .ro, 0⟩], 0⟩,
  ⟨"HUB_SWAP_STAMP_LO", 0x158, [], [⟨⟨0, 32⟩, .ro, 0⟩], 1⟩,
  ⟨"HUB_SWAP_STAMP_HI", 0x15C, [], [⟨⟨0, 32⟩, .ro, 0⟩], 2⟩,
  ⟨"PHB_CTL", 0x10000, [], [⟨fPHB_CTL_MODE, .sh, 0⟩, ⟨fPHB_CTL_BW, .sh, 2⟩, ⟨fPHB_CTL_EDGE, .sh, 0⟩, ⟨fPHB_CTL_INDEX, .sh, 0⟩, ⟨fPHB_CTL_QHOLD, .sh, 0⟩, ⟨fPHB_CTL_QDIR, .sh, 0⟩], 0⟩,
  ⟨"PHB_FREE_INC_LO", 0x10004, [], [⟨⟨0, 32⟩, .sh, 0x2EB1C433⟩], 1⟩,
  ⟨"PHB_FREE_INC_HI", 0x10008, [], [⟨⟨0, 32⟩, .sh, 0x1A36E⟩], 2⟩,
  ⟨"PHB_QUAD_CPC", 0x1000C, [], [⟨fPHB_QUAD_CPC_CPC, .sh, 0x1000⟩], 0⟩,
  ⟨"PHB_REF_CFG", 0x10010, [], [⟨fPHB_REF_CFG_SINE_LEVEL, .rw, 0xA⟩, ⟨fPHB_REF_CFG_WIN, .rw, 0⟩], 0⟩,
  ⟨"PHB_STAT", 0x10020, [], [⟨fPHB_STAT_STATE, .ro, 0⟩, ⟨fPHB_STAT_REF_PRESENT, .ro, 0⟩, ⟨fPHB_STAT_LOSS, .w1c, 0⟩, ⟨fPHB_STAT_UNLOCK, .w1c, 0⟩, ⟨fPHB_STAT_REJECT, .w1c, 0⟩, ⟨fPHB_STAT_SKIP, .w1c, 0⟩, ⟨fPHB_STAT_REVERSE, .w1c, 0⟩, ⟨fPHB_STAT_QFAULT, .w1c, 0⟩, ⟨fPHB_STAT_CLAMP, .w1c, 0⟩, ⟨fPHB_STAT_INC_CLAMP, .w1c, 0⟩], 0⟩,
  ⟨"PHB_INT_EN", 0x10024, [], [⟨fPHB_INT_EN_EN, .rw, 0⟩], 0⟩,
  ⟨"PHB_NOW_LO", 0x10028, [], [⟨⟨0, 32⟩, .ro, 0⟩], 1⟩,
  ⟨"PHB_NOW_HI", 0x1002C, [], [⟨⟨0, 32⟩, .ro, 0⟩], 2⟩,
  ⟨"PHB_INC_LO", 0x10030, [], [⟨⟨0, 32⟩, .ro, 0x2EB1C433⟩], 1⟩,
  ⟨"PHB_INC_HI", 0x10034, [], [⟨⟨0, 32⟩, .ro, 0x1A36E⟩], 2⟩,
  ⟨"PHB_PERR", 0x10038, [], [⟨⟨0, 32⟩, .ro, 0⟩], 0⟩,
  ⟨"PHB_HOLD_STAMP_LO", 0x1003C, [], [⟨⟨0, 32⟩, .ro, 0⟩], 1⟩,
  ⟨"PHB_HOLD_STAMP_HI", 0x10040, [], [⟨⟨0, 32⟩, .ro, 0⟩], 2⟩,
  ⟨"PHB_TICK_LO", 0x10044, [], [⟨⟨0, 32⟩, .ro, 0⟩], 1⟩,
  ⟨"PHB_TICK_HI", 0x10048, [], [⟨⟨0, 32⟩, .ro, 0⟩], 2⟩,
  ⟨"PHB_EVENT_CNT", 0x1004C, [], [⟨fPHB_EVENT_CNT_REJECTED, .ro, 0⟩, ⟨fPHB_EVENT_CNT_LOSSES, .ro, 0⟩], 0⟩,
  ⟨"PHB_QUAD_POS", 0x10050, [], [⟨⟨0, 32⟩, .ro, 0⟩], 0⟩,
  ⟨"DMA_CH_CTL", 0x20000, [(32, 0x100)], [⟨fDMA_CH_CTL_PRIO, .rw, 0⟩, ⟨fDMA_CH_CTL_WB_EN, .rw, 0⟩], 0⟩]
def hubRegs2 : List RegDef := [
  ⟨"DMA_CH_CMD", 0x20004, [(32, 0x100)], [⟨fDMA_CH_CMD_START, .wo, 0⟩, ⟨fDMA_CH_CMD_ABORT, .wo, 0⟩, ⟨fDMA_CH_CMD_RESUME, .wo, 0⟩, ⟨fDMA_CH_CMD_KICK, .wo, 0⟩], 0⟩,
  ⟨"DMA_CH_PROG_BASE", 0x20008, [(32, 0x100)], [⟨⟨0, 32⟩, .rw, 0⟩], 0⟩,
  ⟨"DMA_CH_PROG_LEN", 0x2000C, [(32, 0x100)], [⟨fDMA_CH_PROG_LEN_LEN, .rw, 0⟩], 0⟩,
  ⟨"DMA_CH_STRIDE", 0x20010, [(32, 0x100)], [⟨⟨0, 32⟩, .rw, 0⟩], 0⟩,
  ⟨"DMA_CH_HWIN_LO", 0x20014, [(32, 0x100)], [⟨fDMA_CH_HWIN_LO_EN, .rw, 0⟩, ⟨fDMA_CH_HWIN_LO_BASE, .rw, 0⟩], 1⟩,
  ⟨"DMA_CH_HWIN_HI", 0x20018, [(32, 0x100)], [⟨⟨0, 32⟩, .rw, 0⟩], 2⟩,
  ⟨"DMA_CH_WB", 0x2001C, [(32, 0x100)], [⟨⟨0, 32⟩, .rw, 0⟩], 0⟩,
  ⟨"DMA_CH_STAT", 0x20020, [(32, 0x100)], [⟨fDMA_CH_STAT_STATE, .ro, 0⟩, ⟨fDMA_CH_STAT_TOKEN_WAIT, .ro, 0⟩, ⟨fDMA_CH_STAT_CODE, .ro, 0⟩, ⟨fDMA_CH_STAT_PC, .ro, 0⟩, ⟨fDMA_CH_STAT_REFUSED, .w1c, 0⟩], 0⟩,
  ⟨"DMA_CH_RESIDUE", 0x20024, [(32, 0x100)], [⟨⟨0, 32⟩, .ro, 0⟩], 0⟩,
  ⟨"DMA_CH_PART", 0x20028, [(32, 0x100)], [⟨fDMA_CH_PART_PARTIAL, .ro, 0⟩, ⟨fDMA_CH_PART_LINES, .ro, 0⟩], 0⟩,
  ⟨"DMA_CH_LOOP", 0x2002C, [(32, 0x100)], [⟨fDMA_CH_LOOP_LOOP_IDX, .ro, 0⟩, ⟨fDMA_CH_LOOP_ACTIVE, .ro, 0⟩], 0⟩,
  ⟨"DMA_CH_ITER", 0x20030, [(32, 0x100)], [⟨⟨0, 32⟩, .ro, 0⟩], 0⟩,
  ⟨"DMA_CH_KICKS", 0x20034, [(32, 0x100)], [⟨fDMA_CH_KICKS_KICKS, .ro, 0⟩], 0⟩,
  ⟨"DMA_ENG_STAT", 0x28000, [], [⟨fDMA_ENG_STAT_BUS_STOP, .w1c, 0⟩], 0⟩,
  ⟨"DMA_INT_STAT", 0x28004, [], [⟨⟨0, 32⟩, .w1c, 0⟩], 0⟩,
  ⟨"DMA_INT_EN", 0x28008, [], [⟨⟨0, 32⟩, .rw, 0⟩], 0⟩,
  ⟨"DMA_ERR_ADDR_LO", 0x28010, [], [⟨⟨0, 32⟩, .ro, 0⟩], 1⟩,
  ⟨"DMA_ERR_ADDR_HI", 0x28014, [], [⟨⟨0, 32⟩, .ro, 0⟩], 2⟩,
  ⟨"DMA_ERR_INFO", 0x28018, [], [⟨fDMA_ERR_INFO_SPACE, .ro, 0⟩, ⟨fDMA_ERR_INFO_KIND, .ro, 0⟩], 0⟩,
  ⟨"DMA_EVT_CNT", 0x28100, [(64, 4)], [⟨fDMA_EVT_CNT_COUNT, .rw, 0⟩, ⟨fDMA_EVT_CNT_OVER, .w1c, 0⟩], 0⟩,
  ⟨"DMA_REQ_CFG", 0x28200, [(64, 4)], [⟨fDMA_REQ_CFG_KIND, .rw, 0⟩, ⟨fDMA_REQ_CFG_INDEX, .rw, 0⟩], 0⟩,
  ⟨"DMA_REQ_TOK", 0x28300, [(64, 4)], [⟨fDMA_REQ_TOK_TOKENS, .rw, 0⟩, ⟨fDMA_REQ_TOK_OVER, .w1c, 0⟩], 0⟩,
  ⟨"PCI_LINK_STAT", 0x30000, [], [⟨fPCI_LINK_STAT_WIDTH, .ro, 0⟩, ⟨fPCI_LINK_STAT_SPEED, .ro, 0⟩, ⟨fPCI_LINK_STAT_LANE_OK, .ro, 0xF⟩, ⟨fPCI_LINK_STAT_REVERSED, .ro, 0⟩, ⟨fPCI_LINK_STAT_DOWNSIZED, .w1c, 0⟩, ⟨fPCI_LINK_STAT_RETRAINED, .w1c, 0⟩, ⟨fPCI_LINK_STAT_LINK_DOWN, .w1c, 0⟩, ⟨fPCI_LINK_STAT_RETRAINS, .ro, 0⟩], 0⟩,
  ⟨"PCI_LINK_CMD", 0x30004, [], [⟨fPCI_LINK_CMD_WIDEN, .wo, 0⟩], 0⟩]
def hubRegs3 : List RegDef := [
  ⟨"PCI_LANE_ERR", 0x30008, [], [⟨⟨0, 32⟩, .ro, 0⟩], 0⟩,
  ⟨"PCI_LANE_CFG", 0x3000C, [], [⟨fPCI_LANE_CFG_ERR_LIMIT, .rw, 0x10⟩, ⟨fPCI_LANE_CFG_AUTO_NARROW, .rw, 1⟩], 0⟩,
  ⟨"PCI_INT_PEND_LO", 0x30010, [], [⟨⟨0, 32⟩, .ro, 0⟩], 1⟩,
  ⟨"PCI_INT_PEND_HI", 0x30014, [], [⟨⟨0, 32⟩, .ro, 0⟩], 2⟩,
  ⟨"PCI_VEC_EN_LO", 0x30018, [], [⟨⟨0, 32⟩, .rw, 0⟩], 1⟩,
  ⟨"PCI_VEC_EN_HI", 0x3001C, [], [⟨fPCI_VEC_EN_HI_EN, .rw, 0⟩], 2⟩,
  ⟨"PCI_INT_STAT", 0x30020, [], [⟨fPCI_INT_STAT_ELOG, .w1c, 0⟩, ⟨fPCI_INT_STAT_LINK, .w1c, 0⟩], 0⟩,
  ⟨"PCI_INT_EN", 0x30024, [], [⟨fPCI_INT_EN_ELOG, .rw, 0⟩, ⟨fPCI_INT_EN_LINK, .rw, 0⟩], 0⟩,
  ⟨"PCI_ELOG_STAT", 0x30028, [], [⟨fPCI_ELOG_STAT_NEXT, .ro, 0⟩, ⟨fPCI_ELOG_STAT_WRAPPED, .w1c, 0⟩], 0⟩,
  ⟨"PCI_ELOG_SEEN_LO", 0x3002C, [], [⟨⟨0, 32⟩, .w1c, 0⟩], 1⟩,
  ⟨"PCI_ELOG_SEEN_HI", 0x30030, [], [⟨⟨0, 32⟩, .w1c, 0⟩], 2⟩,
  ⟨"PCI_ELOG", 0x31000, [(64, 0x20), (8, 4)], [⟨⟨0, 32⟩, .ro, 0⟩], 0⟩,
  ⟨"SKL_CTL", 0x40000, [], [⟨fSKL_CTL_EN, .rw, 0⟩, ⟨fSKL_CTL_POS_SRC, .rw, 0⟩, ⟨fSKL_CTL_FAULT_PIN, .rw, 0⟩, ⟨fSKL_CTL_BREAK_HALT, .rw, 0⟩], 0⟩,
  ⟨"SKL_STAT", 0x40004, [], [⟨fSKL_STAT_POS, .ro, 0⟩, ⟨fSKL_STAT_POS_VALID, .ro, 0⟩, ⟨fSKL_STAT_LEN, .ro, 0⟩, ⟨fSKL_STAT_MASTER, .ro, 0⟩, ⟨fSKL_STAT_UP_OK, .ro, 0⟩, ⟨fSKL_STAT_DN_OK, .ro, 0⟩, ⟨fSKL_STAT_ALIGNED, .ro, 0⟩, ⟨fSKL_STAT_STRAP, .ro, 0⟩, ⟨fSKL_STAT_STRAPS, .ro, 0⟩, ⟨fSKL_STAT_UP_LOST, .w1c, 0⟩, ⟨fSKL_STAT_DN_LOST, .w1c, 0⟩, ⟨fSKL_STAT_CHAIN_LOST, .w1c, 0⟩, ⟨fSKL_STAT_POS_CONFLICT, .w1c, 0⟩, ⟨fSKL_STAT_OVERLONG, .w1c, 0⟩, ⟨fSKL_STAT_LATE, .w1c, 0⟩], 0⟩,
  ⟨"SKL_HALT_REL", 0x40008, [], [⟨fSKL_HALT_REL_RELEASE, .wo, 0⟩, ⟨fSKL_HALT_REL_ALL, .wo, 0⟩], 0⟩,
  ⟨"SKL_FAULT_SEEN", 0x4000C, [], [⟨fSKL_FAULT_SEEN_ORIGIN, .w1c, 0⟩], 0⟩,
  ⟨"SKL_ERR_UP", 0x40010, [], [⟨fSKL_ERR_UP_KIND1, .ro, 0⟩, ⟨fSKL_ERR_UP_KIND2, .ro, 0⟩, ⟨fSKL_ERR_UP_KIND3, .ro, 0⟩, ⟨fSKL_ERR_UP_KIND4, .ro, 0⟩, ⟨fSKL_ERR_UP_KIND5, .ro, 0⟩, ⟨fSKL_ERR_UP_KIND6, .ro, 0⟩, ⟨fSKL_ERR_UP_KIND7, .ro, 0⟩], 0⟩,
  ⟨"SKL_ERR_DN", 0x40014, [], [⟨fSKL_ERR_DN_KIND1, .ro, 0⟩, ⟨fSKL_ERR_DN_KIND2, .ro, 0⟩, ⟨fSKL_ERR_DN_KIND3, .ro, 0⟩, ⟨fSKL_ERR_DN_KIND4, .ro, 0⟩, ⟨fSKL_ERR_DN_KIND5, .ro, 0⟩, ⟨fSKL_ERR_DN_KIND6, .ro, 0⟩, ⟨fSKL_ERR_DN_KIND7, .ro, 0⟩], 0⟩,
  ⟨"SKL_NACK_CNT", 0x40018, [], [⟨⟨0, 32⟩, .ro, 0⟩], 0⟩,
  ⟨"SKL_TIME_MISS", 0x4001C, [], [⟨⟨0, 32⟩, .ro, 0⟩], 0⟩,
  ⟨"SKL_LATE_CNT", 0x40020, [], [⟨⟨0, 32⟩, .ro, 0⟩], 0⟩,
  ⟨"SKL_INT_STAT", 0x40024, [], [⟨fSKL_INT_STAT_LINK, .w1c, 0⟩, ⟨fSKL_INT_STAT_FAULT, .w1c, 0⟩, ⟨fSKL_INT_STAT_ERR, .w1c, 0⟩, ⟨fSKL_INT_STAT_POS, .w1c, 0⟩, ⟨fSKL_INT_STAT_LATE, .w1c, 0⟩], 0⟩,
  ⟨"SKL_INT_EN", 0x40028, [], [⟨fSKL_INT_EN_LINK, .rw, 0⟩, ⟨fSKL_INT_EN_FAULT, .rw, 0⟩, ⟨fSKL_INT_EN_ERR, .rw, 0⟩, ⟨fSKL_INT_EN_POS, .rw, 0⟩, ⟨fSKL_INT_EN_LATE, .rw, 0⟩], 0⟩,
  ⟨"SKL_CHAIN", 0x4002C, [], [⟨fSKL_CHAIN_PRESENT, .ro, 0⟩], 0⟩]
def hubRegs4 : List RegDef := [
  ⟨"PWR_CLU_CMD", 0x50000, [], [⟨fPWR_CLU_CMD_CLUSTERS, .wo, 0⟩, ⟨fPWR_CLU_CMD_TARGET, .wo, 0⟩, ⟨fPWR_CLU_CMD_AT, .wo, 0⟩], 0⟩,
  ⟨"PWR_CLU_AT_LO", 0x50004, [], [⟨⟨0, 32⟩, .rw, 0⟩], 1⟩,
  ⟨"PWR_CLU_AT_HI", 0x50008, [], [⟨⟨0, 32⟩, .rw, 0⟩], 2⟩,
  ⟨"PWR_TILE_CMD", 0x50010, [], [⟨fPWR_TILE_CMD_TILES, .wo, 0⟩, ⟨fPWR_TILE_CMD_UP, .wo, 0⟩, ⟨fPWR_TILE_CMD_DOWN, .wo, 0⟩], 0⟩,
  ⟨"PWR_TILE_STAT", 0x50014, [], [⟨fPWR_TILE_STAT_UP, .ro, 0⟩, ⟨fPWR_TILE_STAT_BUSY, .ro, 0⟩, ⟨fPWR_TILE_STAT_ISOLATED, .ro, 0⟩, ⟨fPWR_TILE_STAT_REFUSED, .w1c, 0⟩], 0⟩,
  ⟨"PWR_DRAM_CMD", 0x50018, [], [⟨fPWR_DRAM_CMD_TARGET, .wo, 0⟩, ⟨fPWR_DRAM_CMD_GO, .wo, 0⟩], 0⟩,
  ⟨"PWR_DRAM_STAT", 0x5001C, [], [⟨fPWR_DRAM_STAT_STATE, .ro, 0⟩, ⟨fPWR_DRAM_STAT_BUSY, .ro, 0⟩, ⟨fPWR_DRAM_STAT_CONSERVATIVE, .ro, 0⟩, ⟨fPWR_DRAM_STAT_REFUSED, .w1c, 0⟩, ⟨fPWR_DRAM_STAT_ACCESS_DISCARDED, .w1c, 0⟩], 0⟩,
  ⟨"PWR_RST_CTL", 0x50020, [], [⟨fPWR_RST_CTL_PERST_SCOPE, .rw, 1⟩], 0⟩,
  ⟨"PWR_RST_CMD", 0x50024, [], [⟨fPWR_RST_CMD_KEY, .wo, 0⟩], 0⟩,
  ⟨"PWR_RST_CAUSE", 0x50028, [], [⟨fPWR_RST_CAUSE_POWER_ON, .ro, 0⟩, ⟨fPWR_RST_CAUSE_PERST, .ro, 0⟩, ⟨fPWR_RST_CAUSE_SOFT, .ro, 0⟩, ⟨fPWR_RST_CAUSE_BOOT_WDT, .ro, 0⟩], 0⟩,
  ⟨"PWR_BOOT", 0x5002C, [], [⟨fPWR_BOOT_STEP, .ro, 0⟩, ⟨fPWR_BOOT_DONE, .ro, 0⟩, ⟨fPWR_BOOT_DEGRADED, .ro, 0⟩, ⟨fPWR_BOOT_CLEAR_PENDING, .ro, 0⟩, ⟨fPWR_BOOT_CLEARED, .w1c, 0⟩], 0⟩,
  ⟨"PWR_BOOT_COUNT", 0x50030, [], [⟨⟨0, 32⟩, .ro, 0⟩], 0⟩,
  ⟨"PWR_TALLY_CLR", 0x50034, [], [⟨fPWR_TALLY_CLR_CLEAR, .wo, 0⟩], 0⟩,
  ⟨"PWR_CLU_STAT", 0x50040, [(16, 4)], [⟨fPWR_CLU_STAT_STATE, .ro, 0⟩, ⟨fPWR_CLU_STAT_TARGET, .ro, 0⟩, ⟨fPWR_CLU_STAT_TRANSIT, .ro, 0⟩, ⟨fPWR_CLU_STAT_REFUSED, .w1c, 0⟩, ⟨fPWR_CLU_STAT_NO_STRUCT, .w1c, 0⟩, ⟨fPWR_CLU_STAT_TILE_DOWN, .w1c, 0⟩, ⟨fPWR_CLU_STAT_LATE, .w1c, 0⟩, ⟨fPWR_CLU_STAT_CANCELLED, .w1c, 0⟩, ⟨fPWR_CLU_STAT_RUN_ENTRIES, .ro, 0⟩], 0⟩,
  ⟨"PWR_STEP", 0x50100, [(16, 4)], [⟨fPWR_STEP_OUTCOME, .ro, 0⟩, ⟨fPWR_STEP_ALT, .ro, 0⟩, ⟨fPWR_STEP_NEXT, .ro, 0⟩, ⟨fPWR_STEP_DETAIL, .ro, 0⟩, ⟨fPWR_STEP_TIME_MS, .ro, 0⟩], 0⟩,
  ⟨"CAL_CTL", 0x60000, [], [⟨fCAL_CTL_ROT_EN, .rw, 0⟩, ⟨fCAL_CTL_BOARD_RAMP, .rw, 0⟩, ⟨fCAL_CTL_AUTOSTORE, .rw, 0⟩, ⟨fCAL_CTL_RAMP, .rw, 8⟩], 0⟩,
  ⟨"CAL_REFV", 0x60004, [], [⟨⟨0, 32⟩, .rw, 0⟩], 0⟩,
  ⟨"CAL_REFR", 0x60008, [], [⟨⟨0, 32⟩, .rw, 0⟩], 0⟩,
  ⟨"CAL_CERT", 0x6000C, [], [⟨⟨0, 32⟩, .rw, 0⟩], 0⟩,
  ⟨"CAL_SESS_GO", 0x60010, [], [⟨fCAL_SESS_GO_START, .wo, 0⟩, ⟨fCAL_SESS_GO_ABORT, .wo, 0⟩, ⟨fCAL_SESS_GO_FORCE, .wo, 0⟩, ⟨fCAL_SESS_GO_TILES, .wo, 0⟩], 0⟩,
  ⟨"CAL_SESS_STAT", 0x60014, [], [⟨fCAL_SESS_STAT_STATE, .ro, 0⟩, ⟨fCAL_SESS_STAT_TILE, .ro, 0⟩, ⟨fCAL_SESS_STAT_DONE, .w1c, 0⟩, ⟨fCAL_SESS_STAT_REFUSED, .w1c, 0⟩, ⟨fCAL_SESS_STAT_ABORTED, .w1c, 0⟩, ⟨fCAL_SESS_STAT_REJECT, .w1c, 0⟩, ⟨fCAL_SESS_STAT_NO_SLICE, .w1c, 0⟩], 0⟩,
  ⟨"CAL_SESS_INFO", 0x60018, [], [⟨fCAL_SESS_INFO_GEN, .ro, 0⟩, ⟨fCAL_SESS_INFO_AGE, .ro, 0⟩], 0⟩,
  ⟨"CAL_WTRIM_GO", 0x60020, [], [⟨fCAL_WTRIM_GO_CHANNEL, .wo, 0⟩, ⟨fCAL_WTRIM_GO_V, .wo, 0⟩, ⟨fCAL_WTRIM_GO_I, .wo, 0⟩, ⟨fCAL_WTRIM_GO_GO, .wo, 0⟩], 0⟩,
  ⟨"CAL_WTRIM_STAT", 0x60024, [], [⟨fCAL_WTRIM_STAT_BUSY, .ro, 0⟩, ⟨fCAL_WTRIM_STAT_DONE, .w1c, 0⟩, ⟨fCAL_WTRIM_STAT_REFUSED, .w1c, 0⟩, ⟨fCAL_WTRIM_STAT_REJECT, .w1c, 0⟩], 0⟩]
def hubRegs5 : List RegDef := [
  ⟨"CAL_FAIL_SUM", 0x60028, [], [⟨fCAL_FAIL_SUM_FAILED, .w1c, 0⟩, ⟨fCAL_FAIL_SUM_CROSS, .w1c, 0⟩, ⟨fCAL_FAIL_SUM_CAL_FAIL, .w1c, 0⟩], 0⟩,
  ⟨"CAL_QUAL_CH", 0x62000, [(512, 4)], [⟨fCAL_QUAL_CH_V_RES, .ro, 0xFF⟩, ⟨fCAL_QUAL_CH_I_RES, .ro, 0xFF⟩, ⟨fCAL_QUAL_CH_DAC_RES, .ro, 0xFF⟩, ⟨fCAL_QUAL_CH_STALE, .ro, 0⟩, ⟨fCAL_QUAL_CH_PERM, .ro, 0⟩, ⟨fCAL_QUAL_CH_SUSPECT, .ro, 0⟩, ⟨fCAL_QUAL_CH_PROD, .ro, 1⟩], 0⟩,
  ⟨"CAL_QUAL_WIN", 0x62800, [(512, 4)], [⟨fCAL_QUAL_WIN_V_HI, .ro, 0xFF⟩, ⟨fCAL_QUAL_WIN_V_LO, .ro, 0xFF⟩, ⟨fCAL_QUAL_WIN_I_HI, .ro, 0xFF⟩, ⟨fCAL_QUAL_WIN_I_LO, .ro, 0xFF⟩], 0⟩,
  ⟨"CAL_BOARD_GAIN", 0x64000, [(512, 0x50), (10, 8)], [⟨⟨0, 32⟩, .sh, 0x1400000⟩], 0⟩,
  ⟨"CAL_BOARD_OFFSET", 0x64004, [(512, 0x50), (10, 8)], [⟨⟨0, 32⟩, .sh, 0⟩], 0⟩,
  ⟨"TST_CTL", 0x70000, [], [⟨fTST_CTL_TEST_LOCK, .rw, 0⟩], 0⟩,
  ⟨"TST_STAT", 0x70004, [], [⟨fTST_STAT_IR, .ro, 1⟩, ⟨fTST_STAT_TEST_MODE, .ro, 0⟩, ⟨fTST_STAT_ENTERED, .w1c, 0⟩, ⟨fTST_STAT_EXCLUDED, .w1c, 0⟩, ⟨fTST_STAT_PWR_REFUSED, .w1c, 0⟩], 0⟩,
  ⟨"TST_SEG_SEL", 0x70008, [], [⟨fTST_SEG_SEL_CLUSTERS, .ro, 0xFFFF⟩, ⟨fTST_SEG_SEL_HUB, .ro, 1⟩], 0⟩,
  ⟨"TST_SEG_IN", 0x7000C, [], [⟨fTST_SEG_IN_CLUSTERS, .ro, 0xFFFF⟩, ⟨fTST_SEG_IN_HUB, .ro, 1⟩], 0⟩,
  ⟨"TST_IDCODE", 0x70010, [], [⟨⟨0, 32⟩, .ro, 0⟩], 0⟩]
/-- Every register of the hub space. -/
def hubRegs : List RegDef := hubRegs0 ++ hubRegs1 ++ hubRegs2 ++ hubRegs3 ++ hubRegs4 ++ hubRegs5

def cluRegs0 : List RegDef := [
  ⟨"CLU_INT_CH", 0x80, [], [⟨⟨0, 32⟩, .ro, 0⟩], 0⟩,
  ⟨"CLU_INT_STAT", 0x88, [], [⟨fCLU_INT_STAT_VALIDATED, .w1c, 0⟩, ⟨fCLU_INT_STAT_COMMIT, .w1c, 0⟩, ⟨fCLU_INT_STAT_GANG, .w1c, 0⟩, ⟨fCLU_INT_STAT_ENGINE, .w1c, 0⟩, ⟨fCLU_INT_STAT_CAPTURE, .w1c, 0⟩], 0⟩,
  ⟨"CLU_INT_EN", 0x8C, [], [⟨fCLU_INT_EN_VALIDATED, .rw, 0⟩, ⟨fCLU_INT_EN_COMMIT, .rw, 0⟩, ⟨fCLU_INT_EN_GANG, .rw, 0⟩, ⟨fCLU_INT_EN_ENGINE, .rw, 0⟩, ⟨fCLU_INT_EN_CAPTURE, .rw, 0⟩], 0⟩,
  ⟨"CLU_BANK_CTL", 0x100, [], [⟨fCLU_BANK_CTL_VALIDATE, .wo, 0⟩, ⟨fCLU_BANK_CTL_INVALIDATE, .wo, 0⟩], 0⟩,
  ⟨"CLU_BANK_STAT", 0x104, [], [⟨fCLU_BANK_STAT_ACTIVE, .ro, 0⟩, ⟨fCLU_BANK_STAT_STBY_VALID, .ro, 0⟩, ⟨fCLU_BANK_STAT_ACTIVE_VALID, .ro, 0⟩, ⟨fCLU_BANK_STAT_GANG_MISMATCH, .w1c, 0⟩, ⟨fCLU_BANK_STAT_CODE, .ro, 0⟩], 0⟩,
  ⟨"CLU_BANK_FAIL", 0x108, [], [⟨fCLU_BANK_FAIL_OFFSET, .ro, 0⟩, ⟨fCLU_BANK_FAIL_CHANNEL, .ro, 0⟩], 0⟩,
  ⟨"CLU_ACTIVE_ID", 0x10C, [], [⟨⟨0, 32⟩, .ro, 0⟩], 0⟩,
  ⟨"CLU_STBY_ID", 0x110, [], [⟨⟨0, 32⟩, .ro, 0⟩], 0⟩,
  ⟨"CLU_COMMIT", 0x140, [], [⟨fCLU_COMMIT_GO, .wo, 0⟩, ⟨fCLU_COMMIT_BANK, .wo, 0⟩, ⟨fCLU_COMMIT_AT, .wo, 0⟩], 0⟩,
  ⟨"CLU_COMMIT_AT_LO", 0x144, [], [⟨⟨0, 32⟩, .rw, 0⟩], 1⟩,
  ⟨"CLU_COMMIT_AT_HI", 0x148, [], [⟨⟨0, 32⟩, .rw, 0⟩], 2⟩,
  ⟨"CLU_COMMIT_CANCEL", 0x14C, [], [⟨fCLU_COMMIT_CANCEL_CANCEL, .wo, 0⟩], 0⟩,
  ⟨"CLU_COMMIT_STAT", 0x150, [], [⟨fCLU_COMMIT_STAT_GEN, .ro, 0⟩, ⟨fCLU_COMMIT_STAT_PENDING, .ro, 0⟩, ⟨fCLU_COMMIT_STAT_HELD_COMMIT, .ro, 0⟩, ⟨fCLU_COMMIT_STAT_BANK_PENDING, .ro, 0⟩, ⟨fCLU_COMMIT_STAT_SHADOW_BUSY, .w1c, 0⟩, ⟨fCLU_COMMIT_STAT_COMMIT_REFUSED, .w1c, 0⟩, ⟨fCLU_COMMIT_STAT_LATE_STAMP, .w1c, 0⟩], 0⟩,
  ⟨"CLU_REFUSED_ADDR", 0x154, [], [⟨⟨0, 32⟩, .ro, 0⟩], 0⟩,
  ⟨"CLU_SWAP_STAMP_LO", 0x158, [], [⟨⟨0, 32⟩, .ro, 0⟩], 1⟩,
  ⟨"CLU_SWAP_STAMP_HI", 0x15C, [], [⟨⟨0, 32⟩, .ro, 0⟩], 2⟩,
  ⟨"CLU_ENG_STAT", 0x200, [], [⟨fCLU_ENG_STAT_LANE_FAIL, .ro, 0⟩, ⟨fCLU_ENG_STAT_RES_FAIL, .w1c, 0⟩, ⟨fCLU_ENG_STAT_RECOMPUTED, .w1c, 0⟩, ⟨fCLU_ENG_STAT_UNRECOVERED, .w1c, 0⟩, ⟨fCLU_ENG_STAT_EXP_MISMATCH, .w1c, 0⟩], 0⟩,
  ⟨"CLU_ENG_SAT", 0x204, [], [⟨fCLU_ENG_SAT_STAGE, .w1c, 0⟩, ⟨fCLU_ENG_SAT_DRIVE, .w1c, 0⟩], 0⟩,
  ⟨"CLU_ENG_CTL", 0x208, [], [⟨fCLU_ENG_CTL_GUARD_ALL, .rw, 0⟩], 0⟩,
  ⟨"CLU_ENG_TEST", 0x20C, [], [⟨fCLU_ENG_TEST_GO, .wo, 0⟩, ⟨fCLU_ENG_TEST_TEST_LANE, .wo, 0⟩, ⟨fCLU_ENG_TEST_TEST_CH, .wo, 0⟩], 0⟩,
  ⟨"CLU_ENG_EXP", 0x210, [(4, 4)], [⟨fCLU_ENG_EXP_EXP_ERR, .ro, 0xE0⟩, ⟨fCLU_ENG_EXP_EXP_P, .ro, 0xE0⟩, ⟨fCLU_ENG_EXP_EXP_I, .ro, 0xE0⟩, ⟨fCLU_ENG_EXP_EXP_OUT, .ro, 0xE0⟩], 0⟩,
  ⟨"CLU_ENG_EXP4", 0x220, [], [⟨fCLU_ENG_EXP4_EXP_DRIVE, .ro, 0xE0⟩], 0⟩,
  ⟨"CLU_ENG_CNT", 0x228, [], [⟨fCLU_ENG_CNT_RECOMPUTES, .ro, 0⟩, ⟨fCLU_ENG_CNT_UNRECOVERED, .ro, 0⟩], 0⟩,
  ⟨"CLU_CAP_CFG", 0x300, [], [⟨fCLU_CAP_CFG_WAYS, .rw, 0⟩, ⟨fCLU_CAP_CFG_TRIG, .rw, 0⟩, ⟨fCLU_CAP_CFG_TRIG_WAY, .rw, 0⟩, ⟨fCLU_CAP_CFG_PRE, .rw, 0⟩], 0⟩]
def cluRegs1 : List RegDef := [
  ⟨"CLU_CAP_LEVEL", 0x304, [], [⟨⟨0, 32⟩, .rw, 0⟩], 0⟩,
  ⟨"CLU_CAP_AT_LO", 0x308, [], [⟨⟨0, 32⟩, .rw, 0⟩], 1⟩,
  ⟨"CLU_CAP_AT_HI", 0x30C, [], [⟨⟨0, 32⟩, .rw, 0⟩], 2⟩,
  ⟨"CLU_CAP_WAY", 0x310, [(8, 4)], [⟨fCLU_CAP_WAY_CH0, .rw, 0⟩, ⟨fCLU_CAP_WAY_CH1, .rw, 0⟩, ⟨fCLU_CAP_WAY_CH2, .rw, 0⟩, ⟨fCLU_CAP_WAY_CH3, .rw, 0⟩, ⟨fCLU_CAP_WAY_EN0, .rw, 0⟩, ⟨fCLU_CAP_WAY_EN1, .rw, 0⟩, ⟨fCLU_CAP_WAY_EN2, .rw, 0⟩, ⟨fCLU_CAP_WAY_EN3, .rw, 0⟩], 0⟩,
  ⟨"CLU_CAP_GO", 0x330, [], [⟨fCLU_CAP_GO_ARM, .wo, 0⟩, ⟨fCLU_CAP_GO_STOP, .wo, 0⟩, ⟨fCLU_CAP_GO_FORCE, .wo, 0⟩], 0⟩,
  ⟨"CLU_CAP_STAT", 0x334, [], [⟨fCLU_CAP_STAT_STATE, .ro, 0⟩, ⟨fCLU_CAP_STAT_PRE_SHORT, .w1c, 0⟩, ⟨fCLU_CAP_STAT_LATE, .w1c, 0⟩, ⟨fCLU_CAP_STAT_STOPPED, .w1c, 0⟩, ⟨fCLU_CAP_STAT_TRIG_IDX, .ro, 0⟩], 0⟩,
  ⟨"CLU_CAP_TSTAMP_LO", 0x338, [], [⟨⟨0, 32⟩, .ro, 0⟩], 1⟩,
  ⟨"CLU_CAP_TSTAMP_HI", 0x33C, [], [⟨⟨0, 32⟩, .ro, 0⟩], 2⟩,
  ⟨"CLU_SEQ_START", 0x400, [], [⟨⟨0, 32⟩, .wo, 0⟩], 0⟩,
  ⟨"CLU_SEQ_START_AT", 0x404, [], [⟨⟨0, 32⟩, .wo, 0⟩], 0⟩,
  ⟨"CLU_SEQ_AT_LO", 0x408, [], [⟨⟨0, 32⟩, .rw, 0⟩], 1⟩,
  ⟨"CLU_SEQ_AT_HI", 0x40C, [], [⟨⟨0, 32⟩, .rw, 0⟩], 2⟩,
  ⟨"CLU_SEQ_STOP", 0x410, [], [⟨⟨0, 32⟩, .wo, 0⟩], 0⟩,
  ⟨"CLU_SEQ_HOST", 0x414, [], [⟨⟨0, 32⟩, .wo, 0⟩], 0⟩,
  ⟨"CLU_MRK_CTL", 0x418, [], [⟨fCLU_MRK_CTL_CH, .rw, 0⟩, ⟨fCLU_MRK_CTL_BIT, .rw, 0⟩, ⟨fCLU_MRK_CTL_EN, .rw, 0⟩], 0⟩,
  ⟨"CLU_SEQ_UR", 0x41C, [], [⟨⟨0, 32⟩, .w1c, 0⟩], 0⟩,
  ⟨"EVL_GRP_CTL", 0x500, [(2, 0x80)], [⟨fEVL_GRP_CTL_MODE, .sh, 0⟩], 0⟩,
  ⟨"EVL_GRP_BASE", 0x504, [(2, 0x80)], [⟨⟨0, 32⟩, .rw, 0⟩], 0⟩,
  ⟨"EVL_GRP_LEN", 0x508, [(2, 0x80)], [⟨fEVL_GRP_LEN_LEN, .rw, 0⟩], 0⟩,
  ⟨"EVL_GRP_AT", 0x50C, [(2, 0x80)], [⟨⟨0, 32⟩, .rw, 0⟩], 0⟩,
  ⟨"EVL_GRP_GO", 0x510, [(2, 0x80)], [⟨fEVL_GRP_GO_ARM, .wo, 0⟩, ⟨fEVL_GRP_GO_START, .wo, 0⟩, ⟨fEVL_GRP_GO_AT, .wo, 0⟩, ⟨fEVL_GRP_GO_STOP, .wo, 0⟩], 0⟩,
  ⟨"EVL_GRP_FILL", 0x514, [(2, 0x80)], [⟨fEVL_GRP_FILL_ADD, .wo, 0⟩], 0⟩,
  ⟨"EVL_GRP_STAT", 0x518, [(2, 0x80)], [⟨fEVL_GRP_STAT_STATE, .ro, 0⟩, ⟨fEVL_GRP_STAT_TS_NOW, .ro, 0⟩, ⟨fEVL_GRP_STAT_LATE, .w1c, 0⟩, ⟨fEVL_GRP_STAT_REFUSED, .w1c, 0⟩, ⟨fEVL_GRP_STAT_UNDERRUN, .w1c, 0⟩, ⟨fEVL_GRP_STAT_FILL_OVER, .w1c, 0⟩, ⟨fEVL_GRP_STAT_TS_BAD, .w1c, 0⟩, ⟨fEVL_GRP_STAT_ECC, .w1c, 0⟩, ⟨fEVL_GRP_STAT_ENDED, .w1c, 0⟩, ⟨fEVL_GRP_STAT_DONE, .w1c, 0⟩], 0⟩,
  ⟨"EVL_GRP_POS", 0x51C, [(2, 0x80)], [⟨fEVL_GRP_POS_VECTOR, .ro, 0⟩], 0⟩]
def cluRegs2 : List RegDef := [
  ⟨"EVL_GRP_CREDIT", 0x520, [(2, 0x80)], [⟨fEVL_GRP_CREDIT_CREDIT, .ro, 0⟩, ⟨fEVL_GRP_CREDIT_OWED, .ro, 0⟩], 0⟩,
  ⟨"EVL_GRP_UR_CYCLE", 0x524, [(2, 0x80)], [⟨⟨0, 32⟩, .ro, 0⟩], 0⟩,
  ⟨"EVL_GRP_CYCLE0", 0x528, [(2, 0x80)], [⟨⟨0, 32⟩, .ro, 0⟩], 0⟩,
  ⟨"EVL_TS_E1", 0x600, [(2, 0x100), (8, 0x20), (4, 8)], [⟨⟨0, 32⟩, .sh, 0⟩], 0⟩,
  ⟨"EVL_TS_E2", 0x604, [(2, 0x100), (8, 0x20), (4, 8)], [⟨⟨0, 32⟩, .sh, 0x80000000⟩], 0⟩,
  ⟨"EVL_LANE_CTL", 0x800, [(8, 0x20)], [⟨fEVL_LANE_CTL_IDLE, .sh, 0⟩, ⟨fEVL_LANE_CTL_INV, .sh, 0⟩, ⟨fEVL_LANE_CTL_SAFE, .sh, 0⟩, ⟨fEVL_LANE_CTL_CAP_EDGE, .sh, 0⟩], 0⟩,
  ⟨"EVL_LANE_STAT", 0x804, [(8, 0x20)], [⟨fEVL_LANE_STAT_OWNED, .ro, 0⟩, ⟨fEVL_LANE_STAT_OWNER, .ro, 0⟩, ⟨fEVL_LANE_STAT_DIR, .ro, 0⟩, ⟨fEVL_LANE_STAT_LEVEL, .ro, 0⟩, ⟨fEVL_LANE_STAT_HIZ, .ro, 1⟩, ⟨fEVL_LANE_STAT_COLLAPSED, .w1c, 0⟩, ⟨fEVL_LANE_STAT_COND_SEEN, .w1c, 0⟩, ⟨fEVL_LANE_STAT_CAP_NEW, .w1c, 0⟩, ⟨fEVL_LANE_STAT_CAP_OVER, .w1c, 0⟩], 0⟩,
  ⟨"EVL_LANE_CAP_LO", 0x808, [(8, 0x20)], [⟨⟨0, 32⟩, .ro, 0⟩], 1⟩,
  ⟨"EVL_LANE_CAP_HI", 0x80C, [(8, 0x20)], [⟨⟨0, 32⟩, .ro, 0⟩], 2⟩,
  ⟨"EVL_LANE_CAP_CNT", 0x810, [(8, 0x20)], [⟨⟨0, 32⟩, .ro, 0⟩], 0⟩]
/-- Every register of the clu space. -/
def cluRegs : List RegDef := cluRegs0 ++ cluRegs1 ++ cluRegs2

def chRegs0 : List RegDef := [
  ⟨"CH_SETPOINT", 0, [], [⟨⟨0, 32⟩, .sh, 0⟩], 0⟩,
  ⟨"CH_SLEW_RATE", 4, [], [⟨⟨0, 32⟩, .sh, 0⟩], 0⟩,
  ⟨"CH_SLEW_ACC", 8, [], [⟨⟨0, 32⟩, .sh, 0⟩], 0⟩,
  ⟨"CH_DRIVE_HI", 0xC, [], [⟨⟨0, 32⟩, .sh, 0x3FFFFF80⟩], 0⟩,
  ⟨"CH_DRIVE_LO", 0x10, [], [⟨⟨0, 32⟩, .sh, 0xC0000000⟩], 0⟩,
  ⟨"CH_RAIL_NOM", 0x14, [], [⟨⟨0, 32⟩, .sh, 0⟩], 0⟩,
  ⟨"CH_LOOP_STAT", 0x20, [], [⟨fCH_LOOP_STAT_CTRL, .ro, 7⟩, ⟨fCH_LOOP_STAT_CONFLICT_NOW, .ro, 0⟩, ⟨fCH_LOOP_STAT_AUX_STALE_NOW, .ro, 0⟩, ⟨fCH_LOOP_STAT_SEEN, .w1c, 0⟩, ⟨fCH_LOOP_STAT_SEEN_HI, .w1c, 0⟩, ⟨fCH_LOOP_STAT_SEEN_LO, .w1c, 0⟩, ⟨fCH_LOOP_STAT_CONFLICT, .w1c, 0⟩, ⟨fCH_LOOP_STAT_AUX_STALE, .w1c, 0⟩], 0⟩,
  ⟨"CH_DRIVE_NOW", 0x24, [], [⟨⟨0, 32⟩, .ro, 0⟩], 0⟩,
  ⟨"CH_SLEW_NOW", 0x28, [], [⟨⟨0, 32⟩, .ro, 0⟩], 0⟩,
  ⟨"CH_COEF_SWAP", 0x30, [], [⟨fCH_COEF_SWAP_SWAP, .wo, 0⟩, ⟨fCH_COEF_SWAP_AT, .wo, 0⟩, ⟨fCH_COEF_SWAP_CANCEL, .wo, 0⟩], 0⟩,
  ⟨"CH_COEF_AT_LO", 0x34, [], [⟨⟨0, 32⟩, .rw, 0⟩], 1⟩,
  ⟨"CH_COEF_AT_HI", 0x38, [], [⟨⟨0, 32⟩, .rw, 0⟩], 2⟩,
  ⟨"CH_COEF_STAT", 0x3C, [], [⟨fCH_COEF_STAT_ACTIVE, .ro, 0⟩, ⟨fCH_COEF_STAT_PENDING, .ro, 0⟩, ⟨fCH_COEF_STAT_REFUSED, .w1c, 0⟩, ⟨fCH_COEF_STAT_LATE, .w1c, 0⟩, ⟨fCH_COEF_STAT_CLAMPED, .w1c, 0⟩, ⟨fCH_COEF_STAT_SWAPS, .ro, 0⟩], 0⟩,
  ⟨"CH_GANG_STAT", 0x40, [], [⟨fCH_GANG_STAT_MEMBER, .ro, 0⟩, ⟨fCH_GANG_STAT_LEADER, .ro, 0⟩, ⟨fCH_GANG_STAT_MATCH, .ro, 0⟩, ⟨fCH_GANG_STAT_MISMATCH, .w1c, 0⟩, ⟨fCH_GANG_STAT_COUNT_SHORT, .w1c, 0⟩, ⟨fCH_GANG_STAT_RECEIVED, .ro, 0⟩, ⟨fCH_GANG_STAT_GANG_ID, .ro, 0xFF⟩], 0⟩,
  ⟨"CH_GANG_SHARE", 0x44, [], [⟨⟨0, 32⟩, .ro, 0⟩], 0⟩,
  ⟨"CH_DAC_CTL", 0x48, [], [⟨fCH_DAC_CTL_FORCE_SAFE, .rw, 0⟩], 0⟩,
  ⟨"CH_DAC_CODE", 0x4C, [], [⟨fCH_DAC_CODE_CODE, .ro, 0x80000⟩, ⟨fCH_DAC_CODE_SAFE, .ro, 1⟩], 0⟩,
  ⟨"CH_SAFE_CODE", 0x50, [], [⟨fCH_SAFE_CODE_SAFE, .rw, 0x80000⟩], 0⟩,
  ⟨"CH_DAC_SUP_CTL", 0x54, [], [⟨fCH_DAC_SUP_CTL_OPEN_N, .sh, 4⟩, ⟨fCH_DAC_SUP_CTL_COMPL_N, .sh, 1⟩, ⟨fCH_DAC_SUP_CTL_OPEN_ACT, .sh, 0⟩, ⟨fCH_DAC_SUP_CTL_COMPL_ACT, .sh, 0⟩], 0⟩,
  ⟨"CH_DAC_STAT", 0x58, [], [⟨fCH_DAC_STAT_MODE, .ro, 0⟩, ⟨fCH_DAC_STAT_PARK, .ro, 0⟩, ⟨fCH_DAC_STAT_HIZ, .ro, 1⟩, ⟨fCH_DAC_STAT_SWITCHING, .ro, 0⟩, ⟨fCH_DAC_STAT_OPEN_NOW, .ro, 0⟩, ⟨fCH_DAC_STAT_COMPL_NOW, .ro, 0⟩, ⟨fCH_DAC_STAT_OPEN, .w1c, 0⟩, ⟨fCH_DAC_STAT_COMPL, .w1c, 0⟩, ⟨fCH_DAC_STAT_DEGLITCH, .w1c, 0⟩, ⟨fCH_DAC_STAT_OPEN_CNT, .ro, 0⟩, ⟨fCH_DAC_STAT_COMPL_CNT, .ro, 0⟩], 0⟩,
  ⟨"CH_SAFE_SRC", 0x5C, [], [⟨fCH_SAFE_SRC_HOLD, .ro, 0x100⟩, ⟨fCH_SAFE_SRC_SEEN, .w1c, 0⟩], 0⟩,
  ⟨"CH_RANGE_CTL", 0x60, [], [⟨fCH_RANGE_CTL_MAKE, .sh, 1⟩, ⟨fCH_RANGE_CTL_BLIND, .sh, 8⟩, ⟨fCH_RANGE_CTL_BURDEN_EN, .sh, 0⟩, ⟨fCH_RANGE_CTL_NORESCALE, .sh, 0⟩, ⟨fCH_RANGE_CTL_USER, .sh, 0⟩], 0⟩,
  ⟨"CH_RANGE_AUTO", 0x64, [], [⟨fCH_RANGE_AUTO_EN, .sh, 0⟩, ⟨fCH_RANGE_AUTO_MIN, .sh, 0⟩, ⟨fCH_RANGE_AUTO_MAX, .sh, 0⟩, ⟨fCH_RANGE_AUTO_N_UP, .sh, 1⟩, ⟨fCH_RANGE_AUTO_N_DOWN, .sh, 0x40⟩, ⟨fCH_RANGE_AUTO_HOLD, .sh, 0x10⟩], 0⟩,
  ⟨"CH_RANGE_UP_TH", 0x68, [], [⟨⟨0, 32⟩, .sh, 0x7FFFFFFF⟩], 0⟩]
def chRegs1 : List RegDef := [
  ⟨"CH_RANGE_DN_TH", 0x6C, [], [⟨⟨0, 32⟩, .sh, 0⟩], 0⟩,
  ⟨"CH_IRANGE_SCALE", 0x70, [(6, 4)], [⟨fCH_IRANGE_SCALE_M, .sh, 1⟩, ⟨fCH_IRANGE_SCALE_E, .sh, 0⟩], 0⟩,
  ⟨"CH_IRANGE_CFG", 0x88, [(6, 4)], [⟨fCH_IRANGE_CFG_EN, .sh, 0⟩, ⟨fCH_IRANGE_CFG_BANK, .sh, 0⟩], 0⟩,
  ⟨"CH_IRANGE_BURDEN", 0xA0, [(6, 4)], [⟨⟨0, 32⟩, .sh, 0⟩], 0⟩,
  ⟨"CH_VRANGE_SCALE", 0xB8, [(4, 4)], [⟨fCH_VRANGE_SCALE_M, .sh, 1⟩, ⟨fCH_VRANGE_SCALE_E, .sh, 0⟩], 0⟩,
  ⟨"CH_RANGE_NOW", 0xC8, [], [⟨fCH_RANGE_NOW_WORD, .ro, 0⟩, ⟨fCH_RANGE_NOW_IRANGE, .ro, 0⟩, ⟨fCH_RANGE_NOW_VRANGE, .ro, 0⟩, ⟨fCH_RANGE_NOW_PHASE, .ro, 0⟩], 0⟩,
  ⟨"CH_RANGE_REQ", 0xCC, [], [⟨fCH_RANGE_REQ_IRANGE, .wo, 0⟩, ⟨fCH_RANGE_REQ_I_GO, .wo, 0⟩, ⟨fCH_RANGE_REQ_VRANGE, .wo, 0⟩, ⟨fCH_RANGE_REQ_V_GO, .wo, 0⟩, ⟨fCH_RANGE_REQ_AT, .wo, 0⟩, ⟨fCH_RANGE_REQ_CANCEL, .wo, 0⟩], 0⟩,
  ⟨"CH_RANGE_AT_LO", 0xD0, [], [⟨⟨0, 32⟩, .rw, 0⟩], 1⟩,
  ⟨"CH_RANGE_AT_HI", 0xD4, [], [⟨⟨0, 32⟩, .rw, 0⟩], 2⟩,
  ⟨"CH_RANGE_STAT", 0xD8, [], [⟨fCH_RANGE_STAT_PENDING, .ro, 0⟩, ⟨fCH_RANGE_STAT_IN_PROGRESS, .ro, 0⟩, ⟨fCH_RANGE_STAT_REFUSED, .w1c, 0⟩, ⟨fCH_RANGE_STAT_INVALID, .w1c, 0⟩, ⟨fCH_RANGE_STAT_DEFERRED, .w1c, 0⟩, ⟨fCH_RANGE_STAT_LATE, .w1c, 0⟩, ⟨fCH_RANGE_STAT_RESCALE_SAT, .w1c, 0⟩, ⟨fCH_RANGE_STAT_BURDEN_CLAMP, .w1c, 0⟩, ⟨fCH_RANGE_STAT_UNMODELLED, .w1c, 0⟩, ⟨fCH_RANGE_STAT_AUTO_UP, .w1c, 0⟩, ⟨fCH_RANGE_STAT_AUTO_DOWN, .w1c, 0⟩, ⟨fCH_RANGE_STAT_CHANGES, .ro, 0⟩], 0⟩,
  ⟨"CH_RANGE_STAMP_LO", 0xDC, [], [⟨⟨0, 32⟩, .ro, 0⟩], 1⟩,
  ⟨"CH_RANGE_STAMP_HI", 0xE0, [], [⟨⟨0, 32⟩, .ro, 0⟩], 2⟩,
  ⟨"CH_RANGE_SAFE", 0xE4, [], [⟨fCH_RANGE_SAFE_WORD, .rw, 0⟩], 0⟩,
  ⟨"CH_ADC_CTL", 0xE8, [], [⟨fCH_ADC_CTL_CHOP, .sh, 0⟩], 0⟩,
  ⟨"CH_ADC_STAT", 0xEC, [], [⟨fCH_ADC_STAT_CHOP_NOW, .ro, 0⟩, ⟨fCH_ADC_STAT_V_CLIP, .w1c, 0⟩, ⟨fCH_ADC_STAT_I_CLIP, .w1c, 0⟩, ⟨fCH_ADC_STAT_V_OVER, .w1c, 0⟩, ⟨fCH_ADC_STAT_I_OVER, .w1c, 0⟩], 0⟩,
  ⟨"CH_ENG_CTL", 0xF0, [], [⟨fCH_ENG_CTL_GUARD_FORCE, .rw, 0⟩], 0⟩,
  ⟨"CH_ENG_STAT", 0xF4, [], [⟨fCH_ENG_STAT_MODE, .ro, 0⟩, ⟨fCH_ENG_STAT_TIMER, .ro, 0⟩, ⟨fCH_ENG_STAT_INJECT, .ro, 0⟩, ⟨fCH_ENG_STAT_FORCED, .ro, 0⟩, ⟨fCH_ENG_STAT_GUARD_LEFT, .ro, 0⟩, ⟨fCH_ENG_STAT_RES_FAIL, .w1c, 0⟩, ⟨fCH_ENG_STAT_RECOMPUTED, .w1c, 0⟩, ⟨fCH_ENG_STAT_UNRECOVERED, .w1c, 0⟩], 0⟩,
  ⟨"CH_INT_EN", 0xF8, [], [⟨fCH_INT_EN_TRIP, .rw, 0⟩, ⟨fCH_INT_EN_MODEL, .rw, 0⟩, ⟨fCH_INT_EN_SUPV, .rw, 0⟩, ⟨fCH_INT_EN_UNDERRUN, .rw, 0⟩, ⟨fCH_INT_EN_SEQ_END, .rw, 0⟩, ⟨fCH_INT_EN_SEQ_FAULT, .rw, 0⟩, ⟨fCH_INT_EN_APT_LOST, .rw, 0⟩, ⟨fCH_INT_EN_RANGE, .rw, 0⟩], 0⟩,
  ⟨"CH_INT_STAT", 0xFC, [], [⟨fCH_INT_STAT_TRIP, .w1c, 0⟩, ⟨fCH_INT_STAT_MODEL, .w1c, 0⟩, ⟨fCH_INT_STAT_SUPV, .w1c, 0⟩, ⟨fCH_INT_STAT_UNDERRUN, .w1c, 0⟩, ⟨fCH_INT_STAT_SEQ_END, .w1c, 0⟩, ⟨fCH_INT_STAT_SEQ_FAULT, .w1c, 0⟩, ⟨fCH_INT_STAT_APT_LOST, .w1c, 0⟩, ⟨fCH_INT_STAT_RANGE, .w1c, 0⟩], 0⟩,
  ⟨"LOOP_LIMIT", 0x100, [(4, 0x80)], [⟨⟨0, 32⟩, .sh, 0⟩], 0⟩,
  ⟨"LOOP_STAT", 0x104, [(4, 0x80)], [⟨fLOOP_STAT_KIND, .ro, 0⟩, ⟨fLOOP_STAT_SRC, .ro, 0⟩, ⟨fLOOP_STAT_IN_CTRL, .ro, 0⟩, ⟨fLOOP_STAT_TRACKING, .ro, 0⟩, ⟨fLOOP_STAT_CTRL_SEEN, .w1c, 0⟩, ⟨fLOOP_STAT_TRACKED, .w1c, 0⟩], 0⟩,
  ⟨"LOOP_ERR", 0x108, [(4, 0x80)], [⟨⟨0, 32⟩, .ro, 0⟩], 0⟩,
  ⟨"LOOP_OUT", 0x10C, [(4, 0x80)], [⟨⟨0, 32⟩, .ro, 0⟩], 0⟩,
  ⟨"LOOP_INT", 0x110, [(4, 0x80)], [⟨⟨0, 32⟩, .ro, 0⟩], 0⟩]
def chRegs2 : List RegDef := [
  ⟨"LOOP_SAT", 0x17C, [(4, 0x80)], [⟨fLOOP_SAT_ERR, .w1c, 0⟩, ⟨fLOOP_SAT_P, .w1c, 0⟩, ⟨fLOOP_SAT_I, .w1c, 0⟩, ⟨fLOOP_SAT_OUT, .w1c, 0⟩, ⟨fLOOP_SAT_FROZEN, .w1c, 0⟩, ⟨fLOOP_SAT_I_NOW, .ro, 0⟩, ⟨fLOOP_SAT_FROZEN_NOW, .ro, 0⟩], 0⟩,
  ⟨"CH_MODEL_CTL", 0x300, [], [⟨fCH_MODEL_CTL_MU, .sh, 8⟩, ⟨fCH_MODEL_CTL_GATE, .sh, 0⟩, ⟨fCH_MODEL_CTL_FREEZE, .sh, 0⟩, ⟨fCH_MODEL_CTL_ACTION, .sh, 0⟩, ⟨fCH_MODEL_CTL_N, .sh, 0⟩], 0⟩,
  ⟨"CH_MODEL_TH", 0x304, [], [⟨⟨0, 32⟩, .sh, 0x7FFFFFFF⟩], 0⟩,
  ⟨"CH_MODEL_SETTLE", 0x308, [], [⟨fCH_MODEL_SETTLE_SETTLE, .sh, 0x1000⟩], 0⟩,
  ⟨"CH_MODEL_G_INIT", 0x30C, [], [⟨⟨0, 32⟩, .sh, 0⟩], 0⟩,
  ⟨"CH_MODEL_C_INIT", 0x310, [], [⟨⟨0, 32⟩, .sh, 0⟩], 0⟩,
  ⟨"CH_MODEL_G", 0x314, [], [⟨⟨0, 32⟩, .ro, 0⟩], 0⟩,
  ⟨"CH_MODEL_C", 0x318, [], [⟨⟨0, 32⟩, .ro, 0⟩], 0⟩,
  ⟨"CH_MODEL_RES", 0x31C, [], [⟨⟨0, 32⟩, .ro, 0⟩], 0⟩,
  ⟨"CH_MODEL_STAT", 0x320, [], [⟨fCH_MODEL_STAT_COUNT, .ro, 0⟩, ⟨fCH_MODEL_STAT_SETTLING, .ro, 0⟩, ⟨fCH_MODEL_STAT_HELD, .ro, 0⟩, ⟨fCH_MODEL_STAT_EPISODE, .ro, 0⟩, ⟨fCH_MODEL_STAT_FAULT, .w1c, 0⟩], 0⟩,
  ⟨"CH_MODEL_CMD", 0x324, [], [⟨fCH_MODEL_CMD_REINIT, .wo, 0⟩], 0⟩,
  ⟨"CH_MODEL_FSTAMP_LO", 0x328, [], [⟨⟨0, 32⟩, .ro, 0⟩], 1⟩,
  ⟨"CH_MODEL_FSTAMP_HI", 0x32C, [], [⟨⟨0, 32⟩, .ro, 0⟩], 2⟩,
  ⟨"CH_INJ_CTL", 0x340, [], [⟨fCH_INJ_CTL_SOURCE, .sh, 0⟩, ⟨fCH_INJ_CTL_NODE, .sh, 0⟩, ⟨fCH_INJ_CTL_SLOT, .sh, 0⟩], 0⟩,
  ⟨"CH_INJ_AMP", 0x344, [], [⟨⟨0, 32⟩, .sh, 0⟩], 0⟩,
  ⟨"CH_INJ_FREQ", 0x348, [], [⟨⟨0, 32⟩, .sh, 0⟩], 0⟩,
  ⟨"CH_INJ_PERIOD", 0x34C, [], [⟨fCH_INJ_PERIOD_PERIOD, .sh, 1⟩], 0⟩,
  ⟨"CH_INJ_LEN", 0x350, [], [⟨⟨0, 32⟩, .sh, 0⟩], 0⟩,
  ⟨"CH_INJ_GO", 0x354, [], [⟨fCH_INJ_GO_START, .wo, 0⟩, ⟨fCH_INJ_GO_STOP, .wo, 0⟩, ⟨fCH_INJ_GO_AT, .wo, 0⟩], 0⟩,
  ⟨"CH_INJ_AT_LO", 0x358, [], [⟨⟨0, 32⟩, .rw, 0⟩], 1⟩,
  ⟨"CH_INJ_AT_HI", 0x35C, [], [⟨⟨0, 32⟩, .rw, 0⟩], 2⟩,
  ⟨"CH_INJ_STAT", 0x360, [], [⟨fCH_INJ_STAT_ACTIVE, .ro, 0⟩, ⟨fCH_INJ_STAT_PENDING, .ro, 0⟩, ⟨fCH_INJ_STAT_DONE, .w1c, 0⟩, ⟨fCH_INJ_STAT_ENDED, .w1c, 0⟩, ⟨fCH_INJ_STAT_ABSENT, .w1c, 0⟩, ⟨fCH_INJ_STAT_LATE, .w1c, 0⟩], 0⟩,
  ⟨"CH_CAP_SEL", 0x364, [], [⟨fCH_CAP_SEL_SIG0, .sh, 0⟩, ⟨fCH_CAP_SEL_SIG1, .sh, 0⟩, ⟨fCH_CAP_SEL_SIG2, .sh, 0⟩, ⟨fCH_CAP_SEL_SIG3, .sh, 0⟩], 0⟩,
  ⟨"WIN_CTL", 0x400, [(2, 0x20)], [⟨fWIN_CTL_EN_HI, .sh, 1⟩, ⟨fWIN_CTL_EN_LO, .sh, 1⟩, ⟨fWIN_CTL_HYS, .sh, 0⟩, ⟨fWIN_CTL_BLANK, .sh, 0⟩], 0⟩]
def chRegs3 : List RegDef := [
  ⟨"WIN_TH", 0x404, [(2, 0x20)], [⟨fWIN_TH_TH_LO, .sh, 0x800⟩, ⟨fWIN_TH_TH_HI, .sh, 0x7FF⟩], 0⟩,
  ⟨"WIN_STAT", 0x408, [(2, 0x20)], [⟨fWIN_STAT_HI_OUT, .ro, 0⟩, ⟨fWIN_STAT_LO_OUT, .ro, 0⟩, ⟨fWIN_STAT_MASKED, .ro, 0⟩, ⟨fWIN_STAT_SEEN_HI, .w1c, 0⟩, ⟨fWIN_STAT_SEEN_LO, .w1c, 0⟩, ⟨fWIN_STAT_BLANKED_OUT, .w1c, 0⟩, ⟨fWIN_STAT_ACTED, .w1c, 0⟩], 0⟩,
  ⟨"WIN_TEST", 0x40C, [(2, 0x20)], [⟨fWIN_TEST_MODE, .rw, 0⟩, ⟨fWIN_TEST_LEVEL, .rw, 0⟩], 0⟩,
  ⟨"WIN_TEST_STAT", 0x410, [(2, 0x20)], [⟨fWIN_TEST_STAT_BUSY, .ro, 0⟩, ⟨fWIN_TEST_STAT_STEP1, .ro, 0⟩, ⟨fWIN_TEST_STAT_STEP2, .ro, 0⟩, ⟨fWIN_TEST_STAT_STEP3, .ro, 0⟩, ⟨fWIN_TEST_STAT_STEP4, .ro, 0⟩, ⟨fWIN_TEST_STAT_DONE, .w1c, 0⟩, ⟨fWIN_TEST_STAT_FAIL, .w1c, 0⟩, ⟨fWIN_TEST_STAT_REFUSED, .w1c, 0⟩], 0⟩,
  ⟨"WIN_BLANK_CTL", 0x440, [], [⟨fWIN_BLANK_CTL_SRC, .sh, 0⟩], 0⟩,
  ⟨"WIN_BLANK_LEN", 0x444, [], [⟨fWIN_BLANK_LEN_LEN, .sh, 0⟩], 0⟩,
  ⟨"WIN_BLANK_STEP", 0x448, [], [⟨⟨0, 32⟩, .sh, 0x7FFFFFFF⟩], 0⟩,
  ⟨"WIN_BLANK_GO", 0x44C, [], [⟨fWIN_BLANK_GO_NOW, .wo, 0⟩], 0⟩,
  ⟨"WIN_BLANK_NOW", 0x450, [], [⟨fWIN_BLANK_NOW_REMAIN, .ro, 0⟩, ⟨fWIN_BLANK_NOW_ACTIVE, .ro, 0⟩], 0⟩,
  ⟨"PG_CTL", 0x500, [], [⟨fPG_CTL_UNIT, .sh, 0⟩, ⟨fPG_CTL_START_SRC, .sh, 0⟩, ⟨fPG_CTL_MKR, .sh, 0⟩, ⟨fPG_CTL_REPEAT, .sh, 0⟩], 0⟩,
  ⟨"PG_AMP", 0x504, [], [⟨⟨0, 32⟩, .sh, 0⟩], 0⟩,
  ⟨"PG_DELAY", 0x508, [], [⟨fPG_DELAY_VALUE, .sh, 0⟩], 0⟩,
  ⟨"PG_WIDTH", 0x50C, [], [⟨fPG_WIDTH_VALUE, .sh, 1⟩], 0⟩,
  ⟨"PG_PERIOD", 0x510, [], [⟨fPG_PERIOD_VALUE, .sh, 1⟩], 0⟩,
  ⟨"PG_COUNT", 0x514, [], [⟨⟨0, 32⟩, .sh, 0⟩], 0⟩,
  ⟨"PG_AT_LO", 0x518, [], [⟨⟨0, 32⟩, .rw, 0⟩], 1⟩,
  ⟨"PG_AT_HI", 0x51C, [], [⟨⟨0, 32⟩, .rw, 0⟩], 2⟩,
  ⟨"PG_GO", 0x520, [], [⟨fPG_GO_START, .wo, 0⟩, ⟨fPG_GO_STOP, .wo, 0⟩, ⟨fPG_GO_AT, .wo, 0⟩, ⟨fPG_GO_RELEASE, .wo, 0⟩], 0⟩,
  ⟨"PG_STAT", 0x524, [], [⟨fPG_STAT_ARMED, .ro, 0⟩, ⟨fPG_STAT_ACTIVE, .ro, 0⟩, ⟨fPG_STAT_TRIPPED, .ro, 0⟩, ⟨fPG_STAT_DONE, .w1c, 0⟩, ⟨fPG_STAT_ABORTED, .w1c, 0⟩, ⟨fPG_STAT_LATE, .w1c, 0⟩, ⟨fPG_STAT_REFUSED, .w1c, 0⟩, ⟨fPG_STAT_MISSED, .w1c, 0⟩, ⟨fPG_STAT_RELEASE_REFUSED, .w1c, 0⟩, ⟨fPG_STAT_AUTO_EXHAUSTED, .w1c, 0⟩, ⟨fPG_STAT_AUTO_COUNT, .ro, 0⟩], 0⟩,
  ⟨"PG_REL_CTL", 0x528, [], [⟨fPG_REL_CTL_AUTO, .sh, 0⟩, ⟨fPG_REL_CTL_RAMP, .sh, 1⟩, ⟨fPG_REL_CTL_MAX, .sh, 1⟩, ⟨fPG_REL_CTL_HOLDOFF, .sh, 0x800⟩], 0⟩,
  ⟨"PG_TRIP_SRC", 0x52C, [], [⟨fPG_TRIP_SRC_NOW, .ro, 0⟩, ⟨fPG_TRIP_SRC_LAST, .ro, 0⟩, ⟨fPG_TRIP_SRC_QUAD_LANE, .ro, 0⟩, ⟨fPG_TRIP_SRC_SEEN, .w1c, 0⟩], 0⟩,
  ⟨"PG_TRIP_STAMP_LO", 0x530, [], [⟨⟨0, 32⟩, .ro, 0⟩], 1⟩,
  ⟨"PG_TRIP_STAMP_HI", 0x534, [], [⟨⟨0, 32⟩, .ro, 0⟩], 2⟩,
  ⟨"PG_TRIP_FINE", 0x538, [], [⟨fPG_TRIP_FINE_CYCLE, .ro, 0⟩], 0⟩]
def chRegs4 : List RegDef := [
  ⟨"PG_TRIP_CNT", 0x53C, [], [⟨⟨0, 32⟩, .ro, 0⟩], 0⟩,
  ⟨"SEQ_CTL", 0x600, [], [⟨fSEQ_CTL_STREAM, .sh, 0⟩, ⟨fSEQ_CTL_UR_MODE, .sh, 0⟩, ⟨fSEQ_CTL_TRG_EN, .sh, 0⟩, ⟨fSEQ_CTL_TRG_SEL, .sh, 0⟩], 0⟩,
  ⟨"SEQ_TABLE_BASE", 0x604, [], [⟨⟨0, 32⟩, .rw, 0⟩], 0⟩,
  ⟨"SEQ_TABLE_LEN", 0x608, [], [⟨fSEQ_TABLE_LEN_TABLE_LEN, .rw, 0⟩], 0⟩,
  ⟨"SEQ_START_IDX", 0x60C, [], [⟨fSEQ_START_IDX_START_IDX, .rw, 0⟩], 0⟩,
  ⟨"SEQ_RING", 0x610, [], [⟨fSEQ_RING_FIRST, .rw, 0⟩, ⟨fSEQ_RING_LAST, .rw, 0⟩], 0⟩,
  ⟨"SEQ_AT_LO", 0x614, [], [⟨⟨0, 32⟩, .rw, 0⟩], 1⟩,
  ⟨"SEQ_AT_HI", 0x618, [], [⟨⟨0, 32⟩, .rw, 0⟩], 2⟩,
  ⟨"SEQ_GO", 0x61C, [], [⟨fSEQ_GO_ARM, .wo, 0⟩, ⟨fSEQ_GO_START, .wo, 0⟩, ⟨fSEQ_GO_AT, .wo, 0⟩, ⟨fSEQ_GO_STOP, .wo, 0⟩, ⟨fSEQ_GO_HOST_EVT, .wo, 0⟩], 0⟩,
  ⟨"SEQ_JUMP", 0x620, [], [⟨fSEQ_JUMP_TARGET, .wo, 0⟩, ⟨fSEQ_JUMP_GO, .wo, 0⟩, ⟨fSEQ_JUMP_AT, .wo, 0⟩], 0⟩,
  ⟨"SEQ_JUMP_AT_LO", 0x624, [], [⟨⟨0, 32⟩, .rw, 0⟩], 1⟩,
  ⟨"SEQ_JUMP_AT_HI", 0x628, [], [⟨⟨0, 32⟩, .rw, 0⟩], 2⟩,
  ⟨"SEQ_FILL", 0x62C, [], [⟨fSEQ_FILL_ADD, .wo, 0⟩], 0⟩,
  ⟨"SEQ_STAT", 0x630, [], [⟨fSEQ_STAT_STATE, .ro, 0⟩, ⟨fSEQ_STAT_STREAM_NOW, .ro, 0⟩, ⟨fSEQ_STAT_HOST_FLAG, .ro, 0⟩, ⟨fSEQ_STAT_LATE_PENDING, .ro, 0⟩, ⟨fSEQ_STAT_UNDERRUN, .w1c, 0⟩, ⟨fSEQ_STAT_LATE_JUMP, .w1c, 0⟩, ⟨fSEQ_STAT_JUMP_DROPPED, .w1c, 0⟩, ⟨fSEQ_STAT_LATE, .w1c, 0⟩, ⟨fSEQ_STAT_REFUSED, .w1c, 0⟩, ⟨fSEQ_STAT_BAD_DESC, .w1c, 0⟩, ⟨fSEQ_STAT_ECC, .w1c, 0⟩, ⟨fSEQ_STAT_ENDED, .w1c, 0⟩, ⟨fSEQ_STAT_DONE, .w1c, 0⟩, ⟨fSEQ_STAT_FILL_OVER, .w1c, 0⟩, ⟨fSEQ_STAT_RATE_CLAMP, .w1c, 0⟩], 0⟩,
  ⟨"SEQ_POS", 0x634, [], [⟨fSEQ_POS_ACTIVE, .ro, 0⟩, ⟨fSEQ_POS_NEXT, .ro, 0⟩], 0⟩,
  ⟨"SEQ_SAMPLE", 0x638, [], [⟨fSEQ_SAMPLE_INDEX, .ro, 0⟩], 0⟩,
  ⟨"SEQ_CREDIT", 0x63C, [], [⟨fSEQ_CREDIT_CREDIT, .ro, 0⟩, ⟨fSEQ_CREDIT_OWED, .ro, 0⟩], 0⟩,
  ⟨"SEQ_UR_STAMP_LO", 0x640, [], [⟨⟨0, 32⟩, .ro, 0⟩], 1⟩,
  ⟨"SEQ_UR_STAMP_HI", 0x644, [], [⟨⟨0, 32⟩, .ro, 0⟩], 2⟩,
  ⟨"SEQ_DROPPED", 0x648, [], [⟨⟨0, 32⟩, .ro, 0⟩], 0⟩,
  ⟨"SEQ_LOOP01", 0x64C, [], [⟨fSEQ_LOOP01_CTR_LO, .ro, 0⟩, ⟨fSEQ_LOOP01_CTR_HI, .ro, 0⟩], 0⟩,
  ⟨"SEQ_LOOP23", 0x650, [], [⟨fSEQ_LOOP23_CTR_LO, .ro, 0⟩, ⟨fSEQ_LOOP23_CTR_HI, .ro, 0⟩], 0⟩,
  ⟨"SEQ_ERR", 0x654, [], [⟨fSEQ_ERR_INDEX, .ro, 0⟩, ⟨fSEQ_ERR_CODE, .ro, 0⟩], 0⟩,
  ⟨"SEQ_SEG_STAMP_LO", 0x658, [], [⟨⟨0, 32⟩, .ro, 0⟩], 1⟩]
def chRegs5 : List RegDef := [
  ⟨"SEQ_SEG_STAMP_HI", 0x65C, [], [⟨⟨0, 32⟩, .ro, 0⟩], 2⟩,
  ⟨"SEQ_SEGS", 0x660, [], [⟨⟨0, 32⟩, .ro, 0⟩], 0⟩,
  ⟨"APT_CTL", 0x700, [], [⟨fAPT_CTL_REPEAT, .sh, 0⟩, ⟨fAPT_CTL_START_SRC, .sh, 0⟩, ⟨fAPT_CTL_MKR, .sh, 0⟩, ⟨fAPT_CTL_RING_MODE, .sh, 0⟩], 0⟩,
  ⟨"APT_LEN_LO", 0x704, [], [⟨⟨0, 32⟩, .sh, 0⟩], 1⟩,
  ⟨"APT_LEN_HI", 0x708, [], [⟨⟨0, 32⟩, .sh, 1⟩], 2⟩,
  ⟨"APT_PERIOD_LO", 0x70C, [], [⟨⟨0, 32⟩, .sh, 0⟩], 1⟩,
  ⟨"APT_PERIOD_HI", 0x710, [], [⟨⟨0, 32⟩, .sh, 1⟩], 2⟩,
  ⟨"APT_COUNT", 0x714, [], [⟨⟨0, 32⟩, .sh, 0⟩], 0⟩,
  ⟨"APT_AT_LO", 0x718, [], [⟨⟨0, 32⟩, .rw, 0⟩], 1⟩,
  ⟨"APT_AT_HI", 0x71C, [], [⟨⟨0, 32⟩, .rw, 0⟩], 2⟩,
  ⟨"APT_GO", 0x720, [], [⟨fAPT_GO_START, .wo, 0⟩, ⟨fAPT_GO_STOP, .wo, 0⟩, ⟨fAPT_GO_AT, .wo, 0⟩], 0⟩,
  ⟨"APT_STAT", 0x724, [], [⟨fAPT_STAT_ARMED, .ro, 0⟩, ⟨fAPT_STAT_OPEN, .ro, 0⟩, ⟨fAPT_STAT_LATE, .w1c, 0⟩, ⟨fAPT_STAT_REFUSED, .w1c, 0⟩, ⟨fAPT_STAT_UNBOUND, .w1c, 0⟩, ⟨fAPT_STAT_MISSED_START, .w1c, 0⟩, ⟨fAPT_STAT_EMPTY, .w1c, 0⟩, ⟨fAPT_STAT_LOST, .w1c, 0⟩, ⟨fAPT_STAT_TRUNCATED, .w1c, 0⟩], 0⟩,
  ⟨"APT_RING_BASE", 0x728, [], [⟨⟨0, 32⟩, .rw, 0⟩], 0⟩,
  ⟨"APT_RING_LEN", 0x72C, [], [⟨⟨0, 32⟩, .rw, 0⟩], 0⟩,
  ⟨"APT_RING_WR", 0x730, [], [⟨⟨0, 32⟩, .ro, 0⟩], 0⟩,
  ⟨"APT_RING_RD", 0x734, [], [⟨⟨0, 32⟩, .rw, 0⟩], 0⟩,
  ⟨"APT_LOST", 0x738, [], [⟨⟨0, 32⟩, .ro, 0⟩], 0⟩,
  ⟨"APT_EMPTY", 0x73C, [], [⟨⟨0, 32⟩, .ro, 0⟩], 0⟩,
  ⟨"APT_RECORDS", 0x740, [], [⟨⟨0, 32⟩, .ro, 0⟩], 0⟩,
  ⟨"APT_LAST_WEIGHT_LO", 0x744, [], [⟨⟨0, 32⟩, .ro, 0⟩], 1⟩,
  ⟨"APT_LAST_WEIGHT_HI", 0x748, [], [⟨⟨0, 32⟩, .ro, 0⟩], 2⟩,
  ⟨"APT_RAW_CTL", 0x760, [], [⟨fAPT_RAW_CTL_SEL, .sh, 0⟩, ⟨fAPT_RAW_CTL_UNCAL, .sh, 0⟩, ⟨fAPT_RAW_CTL_TAG, .sh, 0⟩, ⟨fAPT_RAW_CTL_DECIM, .sh, 0⟩, ⟨fAPT_RAW_CTL_STOP_FULL, .sh, 0⟩], 0⟩,
  ⟨"APT_RAW_BASE", 0x764, [], [⟨⟨0, 32⟩, .rw, 0⟩], 0⟩,
  ⟨"APT_RAW_LEN", 0x768, [], [⟨⟨0, 32⟩, .rw, 0⟩], 0⟩]
def chRegs6 : List RegDef := [
  ⟨"APT_RAW_AT_LO", 0x76C, [], [⟨⟨0, 32⟩, .rw, 0⟩], 1⟩,
  ⟨"APT_RAW_AT_HI", 0x770, [], [⟨⟨0, 32⟩, .rw, 0⟩], 2⟩,
  ⟨"APT_RAW_GO", 0x774, [], [⟨fAPT_RAW_GO_START, .wo, 0⟩, ⟨fAPT_RAW_GO_STOP, .wo, 0⟩, ⟨fAPT_RAW_GO_AT, .wo, 0⟩], 0⟩,
  ⟨"APT_RAW_WR", 0x778, [], [⟨⟨0, 32⟩, .ro, 0⟩], 0⟩,
  ⟨"APT_RAW_STAT", 0x77C, [], [⟨fAPT_RAW_STAT_RUNNING, .ro, 0⟩, ⟨fAPT_RAW_STAT_PENDING, .ro, 0⟩, ⟨fAPT_RAW_STAT_LATE, .w1c, 0⟩, ⟨fAPT_RAW_STAT_FULL, .w1c, 0⟩, ⟨fAPT_RAW_STAT_ENDED, .w1c, 0⟩, ⟨fAPT_RAW_STAT_WRAPS, .ro, 0⟩], 0⟩,
  ⟨"APT_RAW_TICK0_LO", 0x780, [], [⟨⟨0, 32⟩, .ro, 0⟩], 1⟩,
  ⟨"APT_RAW_TICK0_HI", 0x784, [], [⟨⟨0, 32⟩, .ro, 0⟩], 2⟩,
  ⟨"APT_RAW_STAMP0_LO", 0x788, [], [⟨⟨0, 32⟩, .ro, 0⟩], 1⟩,
  ⟨"APT_RAW_STAMP0_HI", 0x78C, [], [⟨⟨0, 32⟩, .ro, 0⟩], 2⟩]
/-- Every register of the ch space. -/
def chRegs : List RegDef := chRegs0 ++ chRegs1 ++ chRegs2 ++ chRegs3 ++ chRegs4 ++ chRegs5 ++ chRegs6

def quadRegs0 : List RegDef := [
  ⟨"QUAD_WELT_CMD", 0, [], [⟨fQUAD_WELT_CMD_KIND, .wo, 0⟩, ⟨fQUAD_WELT_CMD_LANE, .wo, 0⟩, ⟨fQUAD_WELT_CMD_TAKE, .wo, 0⟩, ⟨fQUAD_WELT_CMD_RESTORE, .wo, 0⟩], 0⟩,
  ⟨"QUAD_WELT_STAT", 4, [], [⟨fQUAD_WELT_STAT_PHASE, .ro, 0⟩, ⟨fQUAD_WELT_STAT_ACTIVE, .ro, 0⟩, ⟨fQUAD_WELT_STAT_SESSION, .ro, 0⟩, ⟨fQUAD_WELT_STAT_LANE, .ro, 0⟩, ⟨fQUAD_WELT_STAT_CROSS_MISMATCH, .w1c, 0⟩, ⟨fQUAD_WELT_STAT_DISCARDED, .w1c, 0⟩, ⟨fQUAD_WELT_STAT_ROTATIONS, .ro, 0⟩], 0⟩,
  ⟨"QUAD_SLICE_MAP", 8, [], [⟨fQUAD_SLICE_MAP_DAC, .ro, 4⟩, ⟨fQUAD_SLICE_MAP_V, .ro, 4⟩, ⟨fQUAD_SLICE_MAP_I, .ro, 4⟩], 0⟩,
  ⟨"QUAD_SLICE_FAIL", 0xC, [], [⟨fQUAD_SLICE_FAIL_FAILED, .ro, 0⟩], 0⟩,
  ⟨"QUAD_SL_GAIN", 0x40, [(15, 0xC)], [⟨⟨0, 32⟩, .ro, 0⟩], 0⟩,
  ⟨"QUAD_SL_OFS", 0x44, [(15, 0xC)], [⟨⟨0, 32⟩, .ro, 0⟩], 0⟩,
  ⟨"QUAD_SL_QUAL", 0x48, [(15, 0xC)], [⟨fQUAD_SL_QUAL_RES, .ro, 0xFF⟩, ⟨fQUAD_SL_QUAL_AGE, .ro, 0xFF⟩, ⟨fQUAD_SL_QUAL_FAILS, .ro, 0⟩, ⟨fQUAD_SL_QUAL_SUSPECT, .ro, 0⟩, ⟨fQUAD_SL_QUAL_FAILED, .ro, 0⟩, ⟨fQUAD_SL_QUAL_PROD, .ro, 1⟩], 0⟩]
/-- Every register of the quad space. -/
def quadRegs : List RegDef := quadRegs0

def tileRegs0 : List RegDef := [
  ⟨"TILE_CELL", 0x3F0100, [(4, 4)], [⟨⟨0, 32⟩, .ro, 0⟩], 0⟩,
  ⟨"TILE_CELL_MEAS", 0x3F0110, [(4, 4)], [⟨⟨0, 32⟩, .ro, 0⟩], 0⟩,
  ⟨"TILE_CAL_STAT", 0x3F0120, [], [⟨fTILE_CAL_STAT_ACCEPTED, .ro, 0⟩, ⟨fTILE_CAL_STAT_REJECTED, .w1c, 0⟩, ⟨fTILE_CAL_STAT_PROD, .ro, 1⟩], 0⟩]
/-- Every register of the tile space. -/
def tileRegs : List RegDef := tileRegs0

def bar4Regs0 : List RegDef := [
  ⟨"MBX_GO", 0, [], [⟨fMBX_GO_GO, .wo, 0⟩], 0⟩,
  ⟨"MBX_STAT", 4, [], [⟨fMBX_STAT_BUSY, .ro, 1⟩, ⟨fMBX_STAT_DONE, .w1c, 0⟩, ⟨fMBX_STAT_OVERRUN, .w1c, 0⟩], 0⟩,
  ⟨"MBX_INT_EN", 8, [], [⟨fMBX_INT_EN_DONE, .rw, 0⟩], 0⟩,
  ⟨"MBX_EVT_STAT", 0xC, [], [⟨fMBX_EVT_STAT_WARN, .w1c, 0⟩, ⟨fMBX_EVT_STAT_ALARM, .w1c, 0⟩, ⟨fMBX_EVT_STAT_LOG, .w1c, 0⟩, ⟨fMBX_EVT_STAT_TAKEOVER, .w1c, 0⟩], 0⟩,
  ⟨"MBX_EVT_EN", 0x10, [], [⟨fMBX_EVT_EN_WARN, .rw, 0⟩, ⟨fMBX_EVT_EN_ALARM, .rw, 0⟩, ⟨fMBX_EVT_EN_LOG, .rw, 0⟩, ⟨fMBX_EVT_EN_TAKEOVER, .rw, 0⟩, ⟨fMBX_EVT_EN_LOG_SEV, .rw, 2⟩], 0⟩,
  ⟨"MBX_CORE", 0x14, [], [⟨fMBX_CORE_ACTIVE, .ro, 0⟩, ⟨fMBX_CORE_STBY_STATE, .ro, 0⟩, ⟨fMBX_CORE_PROBATION, .ro, 0⟩, ⟨fMBX_CORE_TAKEOVERS, .ro, 0⟩], 0⟩,
  ⟨"MBX_ENV", 0x18, [], [⟨fMBX_ENV_HELD, .ro, 0⟩, ⟨fMBX_ENV_ALARMED, .ro, 0⟩], 0⟩]
/-- Every register of the bar4 space. -/
def bar4Regs : List RegDef := bar4Regs0

/-- The value a register holds at reset: its fields' reset values (R8; chapter 21). -/
def RegDef.resetValue (r : RegDef) : Nat := r.fields.foldl (fun a f => a + f.reset * 2 ^ f.fld.lsb) 0

/-- The bits of a register whose fields have access type `a`. -/
def RegDef.mask (r : RegDef) (a : Acc) : Nat :=
  r.fields.foldl (fun m f => if f.acc = a then m + (2 ^ f.fld.width - 1) * 2 ^ f.fld.lsb else m) 0

/-- Does local offset `x` name an element of the array with these (count, stride) pairs? -/
def dimsMatch : List (Nat × Nat) → Nat → Bool
  | [], x => x == 0
  | (c, s) :: ds, x => x / s < c && dimsMatch ds (x % s)

/-- Does a local offset name this register? -/
def RegDef.at (r : RegDef) (x : Nat) : Bool := r.off ≤ x && dimsMatch r.dims (x - r.off)

/-- The space a word-aligned address lies in and the offset inside that space (R33, R34, Table 01-9). -/
def spaceOf (a : Nat) : Space × Nat :=
  if bar4Base ≤ a then (.bar4, a - bar4Base)
  else if a < 0x1000000 then (.hub, a)
  else
    let y := a % 0x400000
    if 0x3F0000 ≤ y then (.tile, if a % 0x1000000 < 0x400000 then y else 0)
    else if y < 0x10000 then (.clu, y)
    else if y < 0x30000 then (.ch, y % 0x1000)
    else if y < 0x30800 then (.quad, y % 0x100)
    else (.tile, 0)

/-- The registers of a space. -/
def spaceRegs : Space → List RegDef
  | .hub => hubRegs | .clu => cluRegs | .ch => chRegs | .quad => quadRegs | .tile => tileRegs | .bar4 => bar4Regs

/-- The register at a BAR0 offset (or BAR4 offset above `bar4Base`); none at a reserved address (R6). -/
def regAt (a : Nat) : Option RegDef :=
  if a < 0x5000000 || bar4Base ≤ a then
    let (sp, x) := spaceOf a
    (spaceRegs sp).find? (·.at x)
  else none

/-- What a register that nothing has written since reset reads as; 0 at a reserved address (R6). -/
def regReset (a : Nat) : Word :=
  match regAt a with
  | some r => BitVec.ofNat 32 r.resetValue
  | none => 0

/-- The bits of the register at `a` with access type `k`. -/
def maskAt (a : Nat) (k : Acc) : Word :=
  match regAt a with
  | some r => BitVec.ofNat 32 (r.mask k)
  | none => 0

end Sys2Proof.Machine
end

