-- ==== Sys2Proof/Machine/State.lean ====
section
/-!
DEFINITION. The state of the device: every register (in `regs`, by its BAR0 offset, and `live` for the live values of
shadowed fields), the memories, and what each block holds beside its registers. Plain data.
-/

namespace Sys2Proof.Machine
/-! ### Scheduling and commits (chapters 02, 03) -/

/-- When a scheduled item may act: no earlier than tick `notBefore`, and, with a stamp, at the first tick whose stamp
is at or after it (R76, R77, R78). -/
structure Sched where
  notBefore : Nat
  stamp : Option Nat
deriving DecidableEq, Repr

/-- A pending commit of a cluster or of the hub (R59, R65): when it acts, whether it exchanges banks, whether it was
written with AT (only such a commit can be cancelled, R66). -/
structure PendCommit where
  due : Sched
  bank : Bool
  at_ : Bool
deriving DecidableEq, Repr

/-- A commit held under R62: its BANK and AT bits and the CLU_COMMIT_AT stamp read when it arrived. -/
structure HeldCommit where
  bank : Bool
  at_ : Bool
  stamp : Nat
deriving DecidableEq, Repr

/-- A write held under R61: register address, data, byte enables. -/
structure HeldWrite where
  addr : Nat
  data : Word
  be : Nat
deriving DecidableEq, Repr

/-- The commit group of one cluster, or of the hub (R58 to R66). -/
structure CommitSt where
  pend : Option PendCommit := none
  /-- After a cancel the shadows stay frozen up to this tick (R66). -/
  freezeEnd : Option Nat := none
  held : List HeldWrite := []
  heldCommit : Option HeldCommit := none
deriving DecidableEq, Repr

/-- A reference event: its instant in units of 1/1638400 sample, the phase P there, whether it was accepted. -/
structure RefEvent where
  time : Nat
  phase : Nat
  accepted : Bool := true
deriving DecidableEq, Repr

/-- The phase base (chapter 03): accumulator P(k), its value one tick earlier, the increment Δ(k), and what tracking, the sampling of
PHREF, INDEX operation, QUAD operation and holdover keep. -/
structure PhaseSt where
  p : Nat := 0
  pPrev : Nat := 0
  delta : Nat := 0x1A36E2EB1C433
  /-- P(k+1), fixed in the period before (R73), and whether the coming tick is a forward jump (R82). -/
  next : Nat := 0x1A36E2EB1C433
  nextJump : Bool := false
  /-- Held increment of the tracking loop, and the proportional offset with the ticks it still lasts; what an event accepted in the
  present period makes of the three. -/
  held : Nat := 0x1A36E2EB1C433
  offset : Int := 0
  offsetLeft : Nat := 0
  track : Option (Nat × Int × Nat) := none
  /-- Consecutive small errors (ACQUIRE), rejections (LOCKED), valid events or counts (HOLDOVER). -/
  lockCount : Nat := 0
  rejectCount : Nat := 0
  validCount : Nat := 0
  /-- Instant of the entry into the present mode, of the last reference event of any kind, the time between the last two, the last
  events, newest first (at most 17), and the mean increment of the cycles that ended at the last accepted one (R87). -/
  entered : Nat := 0
  lastEvent : Option Nat := none
  interval : Option Nat := none
  events : List RefEvent := []
  mean : Option Nat := none
  /-- SINE (R80), in microvolts of PHREF_P - PHREF_N: the last sample, whether the signal has been below -25 mV since the last
  counted crossing, the last positive-going zero crossing, the one counted and not yet taken, the peak of the present cycle, the
  held peak of the last one. -/
  sample : Int := 0
  low : Bool := false
  cross : Option RefEvent := none
  ready : Option RefEvent := none
  peakNow : Int := 0
  peak : Int := 0
  /-- Index pulses not yet in effect: (tick of effect, edge instant). -/
  index : List (Nat × Nat) := []
  /-- QUAD: levels of A and B and the instant of the last transition, position, highest position, whether the position has not yet
  passed it again after reverse motion, the origin (position and phase), the last counts (instant, positive), newest first. -/
  qa : Bool := false
  qb : Bool := false
  qlast : Option Nat := none
  qpos : Int := 0
  qhigh : Int := 0
  qback : Bool := false
  qorgPos : Int := 0
  qorgP : Nat := 0
  qtimes : List (Nat × Bool) := []
  /-- P(k+2) as a chain master's TIME frame of the present period k gives it (CHAIN; chapter 16). -/
  chainNext : Option Nat := none
  /-- The increments of the last 16 periods, newest first (R339). -/
  deltas : List Nat := []
  /-- The forward jump of the present tick: the span from the first to the second value was skipped (R82). -/
  jump : Option (Nat × Nat) := none
deriving DecidableEq, Repr
/-! ### Loop engine, load model, injection (chapters 04 to 06) -/

/-- What one loop slot carries from period to period. Values are exact, in units of 2^-128 of full scale. -/
structure SlotSt where
  /-- Integrator, last error, last output (R122), proportional and feed-forward terms of the last period (R135). -/
  i : Int := 0
  e : Int := 0
  u : Int := 0
  p : Int := 0
  f : Int := 0
  /-- Direction in which the output of the last period was saturated or not passed (R113): 1 up, -1 down, 0 passed. -/
  satDir : Int := 0
  /-- The slot is preloaded in the next computed period (R67, R103). -/
  preload : Bool := false
  /-- The integrator before a transfer at the coming tick, so that a second transfer there starts from it (R169). -/
  base : Option Int := none
deriving DecidableEq, Repr

/-- Loop engine state of one channel. -/
structure EngSt where
  slots : List SlotSt := [{}, {}, {}, {}]
  /-- Slew limiter r and v (units of 2^-30), and the last second difference (R130, R132). -/
  r : Int := 0
  v : Int := 0
  d2r : Int := 0
  /-- The next computed period is the first in RUN (R103, R126, R133). -/
  entry : Bool := false
  /-- The drive d(k+1) before conversion, and the DAC holding register (R100). -/
  drive : Int := 0
  hold : Nat := 0x80000
  /-- The selector's own outcome in the last period, before any substitution (R127). -/
  sel : Nat := 7
  /-- A pending coefficient bank swap (R134), and whether its stamp was late. -/
  coefPend : Option Sched := none
  coefLate : Bool := false
  /-- Auxiliary input of the last period (R135, R139). -/
  aux : Int := 0
  /-- The GUARD timer loads at the coming tick (R115). -/
  guardLoad : Bool := false
  /-- The present period is one in RUN in which the GUARD timer counts (R114). -/
  ran : Bool := false
  /-- Blanking events of Table 10-4 that fall at the coming tick. -/
  blankNext : Nat := 0
  /-- The raw setpoint of the last period (capture code 3), and whether its results were discarded (R117). -/
  raw : Int := 0
  discarded : Bool := false
deriving DecidableEq, Repr

/-- Load model of one channel (R145 to R149). G and C are held in CH_MODEL_G and CH_MODEL_C. -/
structure ModelSt where
  v1 : Int := 0
  settle : Nat := 0
  /-- Ticks of the initialisations MODEL_REINIT asked for; an initialisation due in the next computed period. -/
  reinitAt : List Nat := []
  init : Bool := false
  /-- The fault presents its EVENT condition (Table 06-1), from the period after it is raised. -/
  cond : Bool := false
  /-- The residual of the last period (0 where it is not evaluated), the prediction, whether |rho| exceeded the threshold. -/
  rho : Int := 0
  ihat : Int := 0
  above : Bool := false
deriving DecidableEq, Repr

/-- Test-signal injection of one channel (R152 to R154): the pending start, whether it is active, periods so far, the place in a
half cycle or bit and the sign, the LFSR, the free sine's phase, the tick of a stop, the signal of the last period and whether
that was the first. -/
structure InjSt where
  pend : Option Sched := none
  active : Bool := false
  n : Nat := 0
  cnt : Nat := 0
  neg : Bool := false
  lfsr : Nat := 0x7FFF
  phi : Nat := 0
  stopAt : Option Nat := none
  x : Int := 0
  first : Bool := false
deriving DecidableEq, Repr

/-- The calibrated samples of one tick and what Table 08-4 judges about them. -/
structure Sample where
  v : Int := 0
  i : Int := 0
  /-- Raw 20-bit codes of the two slices. -/
  vcode : Int := 0
  icode : Int := 0
  /-- I as the loops, the gang and an aperture take it: the bridge value in a blind interval (R166, R188). -/
  iUse : Int := 0
  /-- What an aperture accumulates: the samples of the tick before where the period was discarded (R188). -/
  accV : Int := 0
  accI : Int := 0
  /-- What a capture shows: the calibrated samples, those of the tick before where the period was discarded (R156). -/
  capV : Int := 0
  capI : Int := 0
  ir : Nat := 0
  vr : Nat := 0
  /-- The ranges in which `accV` and `accI` were sampled. -/
  accIr : Nat := 0
  accVr : Nat := 0
  /-- A sample was taken at the tick (the converters are biased), so that the channel contributes to its gang (R144). -/
  taken : Bool := false
  /-- Range changes of the channel so far. -/
  rseq : Nat := 0
  ctrl : Nat := 7
  vOver : Bool := false
  iOver : Bool := false
  /-- V sample of the tick before (R166). -/
  vPrev : Int := 0
  bridged : Bool := false
  repeated : Bool := false
  holdover : Bool := false
  skip : Bool := false
  chop : Bool := false
  welt : Bool := false
deriving DecidableEq, Repr

/-! ### Range changes (chapter 07) -/

/-- A pending or deferred range request (R164, R172, R174). -/
structure RangeReq where
  volt : Bool
  target : Nat
  due : Sched
deriving DecidableEq, Repr

/-- A current range change in progress (R165): ranges a and b, start tick j, make and blind lengths, the SHUNT bits
before the change, the bridge's estimates and its last value (R166). -/
structure RangeProg where
  a : Nat
  b : Nat
  j : Nat
  m : Nat
  bl : Nat
  oldShunts : Nat
  g0 : Int
  c0 : Int
  ib : Int
  modelled : Bool
  nominal : Int
deriving DecidableEq, Repr

/-- Range state of one channel: the request, the change in progress, the SHUNT bits an ordinary frame carries, whether a
current change has happened since OFF, consecutive counts and hold-off end of automatic ranging, and the range ticks and voltage
changes so far (R160, R163, R173). -/
structure RangeSt where
  req : Option RangeReq := none
  prog : Option RangeProg := none
  shunts : Nat := 1
  changed : Bool := false
  up : Nat := 0
  down : Nat := 0
  holdEnd : Option Nat := none
  seq : Nat := 0
deriving DecidableEq, Repr

/-! ### Apertures and raw capture (chapter 08) -/

/-- The APT_ fields an aperture run took at START (R184, R448). -/
structure AptCfg where
  len : Nat
  period : Nat
  count : Nat
  rep : Bool
  marker : Bool
  mkr : Nat
  overwrite : Bool
  base : Nat
  ringLen : Nat
deriving DecidableEq, Repr

/-- An open aperture: start and end stamps, exact weighted sums (weights in units of 2^-32, in the units of the start ranges),
N, W, the start ranges and the count of range changes then, flags (Table 08-7), the loop-in-control history, the weight still
to be given to the sample last taken, and the tick it opened at. -/
structure Aperture where
  s : Nat
  e : Nat
  sumV : Rat := 0
  sumI : Rat := 0
  n : Nat := 0
  w : Nat := 0
  ir : Nat := 0
  vr : Nat := 0
  rseq : Nat := 0
  flags : Nat := 0
  chopAll : Bool := true
  hist : Nat := 0
  lastCtrl : Option Nat := none
  wPend : Nat := 0
  tick : Nat := 0
deriving DecidableEq, Repr

/-- The aperture unit of one channel: the run's configuration, the start of the next aperture (a stamp, or the tick
`notBefore` itself, or a marker edge from it on), whether that start was late, apertures opened, the open one, the tick at
which a STOP ends it (R186), and whether a record was lost since the last written one. -/
structure AptSt where
  cfg : Option AptCfg := none
  next : Option Nat := none
  notBefore : Nat := 0
  late : Bool := false
  opened : Nat := 0
  ap : Option Aperture := none
  stopAt : Option Nat := none
  lostBefore : Bool := false
  /-- Ring offset of the next record; APT_RING_WR follows it a tick later (R197). -/
  wr : Nat := 0
  /-- Runs so far, and of runs before the present one, while records of theirs wait for the writer: the run, its ring offset and the
  APT_RING_RD it had (R196). -/
  run : Nat := 0
  tails : List (Nat × Nat × Nat) := []
  /-- The gang of the unit's sample last taken, as the structure then had it: sum and count of the members here, MEMBERS (R188). -/
  gang : Int × Nat × Nat := (0, 0, 0)
deriving DecidableEq, Repr

/-- A raw capture's fields taken at START (R199), and the channel it captures. -/
structure RawCfg where
  src : Nat
  sel : Nat
  uncal : Bool
  tag : Bool
  decim : Nat
  stopFull : Bool
  base : Nat
  len : Nat
deriving DecidableEq, Repr

/-- Raw capture of one channel: its fields, the pending start, the open block (samples so far, exact sums, its ranges), bytes
written and bytes APT_RAW_WR has advanced over since the start, the tick after whose block a STOP ends it. -/
structure RawSt where
  cfg : Option RawCfg := none
  pend : Option Sched := none
  running : Bool := false
  cnt : Nat := 0
  accV : Rat := 0
  accI : Rat := 0
  ir : Nat := 0
  vr : Nat := 0
  written : Nat := 0
  advanced : Nat := 0
  stopAt : Option Nat := none
deriving DecidableEq, Repr

/-! ### Force DAC (chapter 09) -/

/-- DAC path of one channel: the safe code as the slice converts it (R206), the code the slice took at the last tick, the last
output-mode change begun (its tick t and the new mode, R203) and one not yet begun, what the two detectors have raised in the present episode and whether it presents its EVENT condition (R211). -/
structure DacSt where
  safe : Nat := 0x80000
  last : Nat := 0x80000
  modeStart : Option Nat := none
  newMode : Bool := false
  modeNext : Option (Nat × Bool) := none
  openRaised : Bool := false
  complRaised : Bool := false
  openCond : Bool := false
  complCond : Bool := false
deriving DecidableEq, Repr

/-! ### Windows and pulse generator (chapter 10) -/

/-- One window: raw comparator latches live in WIN_x_STAT; here the episode, the masks and the self-check. -/
structure WinSt where
  /-- The present episode acted, was masked so far, has raised FAULT. -/
  episode : Bool := false
  masked : Bool := false
  faulted : Bool := false
  /-- Outside and unmasked at some instant of the present period, and of the period before (EVENT, Table 10-2). -/
  seen : Bool := false
  cond : Bool := false
  /-- Self-check: mode in force (0 normal), steps of AUTO completed, start tick of AUTO, tick from which routes act again. -/
  test : Nat := 0
  step : Nat := 0
  autoStart : Nat := 0
  actFrom : Nat := 0
  trim : Bool := false
deriving DecidableEq, Repr

/-- A pulse generator run with the fields it took at START (R221). -/
structure PgRun where
  unit : Bool
  marker : Bool
  mkr : Nat
  rep : Bool
  amp : Int
  delay : Nat
  width : Nat
  period : Nat
  count : Nat
  due : Sched
  /-- T0 once the run has begun; pulse starts known so far in 12.5 ns steps from T0 (under MARKER), newest first. -/
  t0 : Option Nat := none
  starts : List Nat := []
  stopAt : Option Nat := none
deriving DecidableEq, Repr

/-- Pulse generator and trip latch of one channel. -/
structure PgSt where
  run : Option PgRun := none
  /-- A pending release: its tick, whether the host asked (R223). -/
  release : Option (Nat × Bool) := none
  quiet : Nat := 0
  /-- A synchronous cause raised in the present period; asynchronous inputs asserted at some instant of it. -/
  syncCause : Bool := false
  asyncSeen : Bool := false
  lastTerm : Int := 0
  exhausted : Bool := false
deriving DecidableEq, Repr

/-- Blanking timer of one channel: the instant it reaches 0, in 12.5 ns steps since tick 0 (R218). -/
structure BlankSt where
  ends : Option Nat := none
deriving DecidableEq, Repr
/-! ### Event log, host side (chapters 15, 17) -/

/-- An entry of the Cobbler event log without its CRC word (Table 17-3). -/
structure LogEntry where
  bit : Nat
  src : Nat
  sev : Nat
  seq : Nat
  stamp : Nat
  addr : Nat
  d0 : Nat
  d1 : Nat
deriving DecidableEq, Repr

/-- Event log: the RAM ring (newest first, at most 512), SEQ of the next entry, the ceiling stored in NOR, the mirror in
NOR (newest first), entries of the RAM ring not yet mirrored, entries skipped (R353, R354). -/
structure LogSt where
  ring : List LogEntry := []
  seq : Nat := 0
  ceiling : Nat := 0
  nor : List LogEntry := []
  unmirrored : Nat := 0
  skipped : Nat := 0
deriving DecidableEq, Repr

/-- Power states of the PCIe function (R312). -/
inductive DState where
  | d0 | d3hot
deriving DecidableEq, Repr

/-- Severities of an error message (R326). -/
inductive ErrSev where
  | cor | nonFatal | fatal
deriving DecidableEq, Repr

/-- A TLP that the device transmits (R310, R313, R314): a read or write of host memory (address, bytes), a vector's message, an error
message, or a completion with its status code, EP bit and byte count. -/
inductive TxKind where
  | memRead (addr len : Nat)
  | memWrite (addr len : Nat)
  | msix (v : Nat)
  | err (sev : ErrSev)
  | completion (status : Nat) (ep : Bool) (len : Nat)
deriving DecidableEq, Repr

/-- A TLP with its traffic class, virtual channel, Relaxed Ordering, No Snoop (R314) and whether it carries an ECRC (R310). -/
structure TxTlp where
  kind : TxKind
  tc : Nat := 0
  vc : Nat := 0
  ro : Bool := false
  ns : Bool := false
  ecrc : Bool := false
deriving DecidableEq, Repr

/-- Endpoint: link and configuration bits, the BAR registers (address bits as written, R32), Max Payload Size and Max Read Request
Size as codes, the MSI-X table (words by BAR4 offset), pending bits, messages sent by vector, TLPs made ready in the present period
and those of the period before in the order of their transmission, and the host memory as the device has written it. -/
structure HostSt where
  linkUp : Bool := false
  memEnable : Bool := false
  msixEnable : Bool := false
  funcMask : Bool := false
  dstate : DState := .d0
  /-- The link is in Recovery on the way to another width (R329); the widest width the partner offers. -/
  retraining : Bool := false
  partner : Nat := 4
  /-- Receiver errors of the last millisecond: lane and tick (R328). -/
  errTicks : List (Nat × Nat) := []
  bars : List Word := [0, 0, 0, 0, 0, 0]
  limits : Nat × Nat := (0, 2)
  msix : SMap Word := []
  pba : Nat := 0
  ready : List TxTlp := []
  out : List TxTlp := []
  sent : SMap Nat := []
  /-- AER (R326): the Header Log, which is the header of the last PCIe error that carried one, and the status registers of uncorrectable
  and correctable errors; further settings of configuration space (R310). -/
  aer : Tlp := ⟨0, 0, 0, 0⟩
  aerUnc : Word := 0
  aerCor : Word := 0
  cfg : CfgRegs := {}
  /-- Subsystem Vendor ID and Subsystem ID in the configuration header (R311). -/
  subsys : Word := 0
  mem : Mem := []
deriving DecidableEq, Repr
/-! ### Sequencer tracks (chapter 11) -/

/-- A staged granule of a DATA segment (R19, R245): the address of its setpoint area, the granule's index, its 64 setpoints and marker
nibbles as they were read. -/
structure Granule where
  addr : Nat
  idx : Nat
  words : List Nat
  marks : List Nat
deriving DecidableEq, Repr

/-- A segment descriptor (Table 11-1), with the entry it was read from, its check code (0: passed) and, of a DATA segment, the granule of
its first samples as it was staged when the segment was queued (R244). -/
structure Seg where
  idx : Nat
  code : Nat
  kind : Nat
  interp : Bool
  ratePhase : Bool
  mkrEn : Bool
  wait : Bool
  cont : Bool
  trg : Bool
  mkrConst : Nat
  cond : Nat
  srcCh : Nat
  sel : Nat
  loopCtr : Nat
  len : Nat
  skip : Nat
  a : Nat
  b : Nat
  c : Nat
  d : Nat
  next : Nat
  target : Nat
  loopTo : Nat
  loopCount : Nat
  head : Option Granule := none
deriving DecidableEq, Repr

/-- A segment being played, waited for, or followed by the virtual position: the tick of sample 0, the start point, the
position of an interpolated segment and how far cuts of its advance have put it behind its stamp (R235; units of 2^-32 source sample),
the tone's effective PH0 (units of 2^-48 cycle), the index of the sample last computed, and whether the segment has begun (a segment
waited for has not: R234). -/
structure Play where
  seg : Seg
  t0 : Nat
  start : Nat
  pos : Nat
  lost : Nat
  ph0 : Nat
  i : Nat
  began : Bool := false
deriving DecidableEq, Repr

/-- What Table 11-7 chose for the end of the active segment: the next entry (none: END), its descriptor, which order
applied, whether it is an under-run from its first tick. -/
structure Choice where
  seg : Option Seg
  order : Nat
  underrun : Bool
  play : Option Play
deriving DecidableEq, Repr

/-- A host jump not yet recorded (R242). -/
structure HostJump where
  target : Nat
  notBefore : Nat
  stamp : Option Nat
deriving DecidableEq, Repr

/-- A sequencer track: the setup ARM took, the segment, descriptors queued and granules staged, recorded jumps (with the sample index of
the recording, host jumps oldest first; `New`: recorded in the period that computes the next segment's sample 0), the segment and index
of a sample computed in the present period, credits that arrived in the last 16 ticks, the tick from which a credit consumed in
under-run may resume the segment and the resume it has come to, the address of a granule whose error is reported, the ticks from whose
periods the host flag is to be set, whether the sample of the coming tick could not be staged, whether the under-run is one for want of
sequence memory (R31), and whether the active segment has its credit or needs none (R248). -/
structure TrackSt where
  stream : Bool := false
  safeMode : Bool := false
  trgEn : Bool := false
  trgSel : Nat := 0
  base : Nat := 0
  len : Nat := 0
  startIdx : Nat := 0
  first : Nat := 0
  last : Nat := 0
  queued : List Seg := []
  staged : List Granule := []
  startPend : Option Sched := none
  play : Option Play := none
  choice : Option Choice := none
  computed : Option (Seg × Nat) := none
  badLine : Option Nat := none
  ownRec : Option Nat := none
  ownRecNew : Option Nat := none
  hostReq : Option HostJump := none
  hostRecs : List (Nat × Nat) := []
  hostRecsNew : List (Nat × Nat) := []
  carried : Option Nat := none
  hostFlagAt : List Nat := []
  lost : Bool := false
  memLost : Bool := false
  paid : Bool := false
  stopAt : Option Nat := none
  arrivals : List (Nat × Nat) := []
  creditFrom : Option Nat := none
  resumeAt : Option (Nat × Nat) := none
  /-- Setpoint last supplied; whether the track supplies one; markers of the next tick's and the present tick's sample. -/
  val : Int := 0
  has : Bool := false
  marks : Nat := 0
  marksNow : Nat := 0
  marksPrev : Nat := 0
  /-- The tick at which a trigger pulse ends, and its ball (R239). -/
  trgEnd : Option Nat := none
  trgBall : Nat := 0
deriving DecidableEq, Repr
/-! ### Event lanes (chapter 12) -/

/-- What an edge of a lane does (Table 12-3): set the logical level, strobe for a level, open or close a WINDOW watch. -/
inductive EdgeKind where
  | level (b : Bool)
  | strobe (b : Bool)
  | watchOn
  | watchOff
deriving DecidableEq, Repr

/-- An edge of the present cycle not yet placed: its stamp, whether it is an E2, what it does. -/
structure LaneEdge where
  stamp : Nat
  second : Bool
  kind : EdgeKind
deriving DecidableEq, Repr

/-- One event lane: logical level of an output, edges not yet placed, the last tick of a safe-code hold it has seen (R261) and the tick
of a change of the lane table (R252), each until a cycle boundary after it, the core clock cycle of the last edge that changed the
level, a WINDOW watch by the core clock cycle it began at and the first change of level in it, the period in which a condition is
presented, and the changes of the ball in the present period, oldest first: core clock cycle and the level before. -/
structure LaneSt where
  level : Bool := false
  edges : List LaneEdge := []
  safeWait : Option Nat := none
  swapWait : Option Nat := none
  last : Option Nat := none
  watch : Option Nat := none
  seen : Option Nat := none
  condAt : Option Nat := none
  ins : List (Nat × Bool) := []
deriving DecidableEq, Repr

/-- A cycle fixed ahead (R259): its number, its vector, E1 and E2 of the four lanes in its timing set. -/
structure FixedCycle where
  cycle : Nat
  vec : Nat
  es : List (Nat × Nat)
deriving DecidableEq, Repr

/-- One event-lane group: what ARM took, the sixteen planes of the staged block, the first cycle, the present cycle and how many
cycles have passed since the first, the cycle fixed ahead, recent credits by tick, the tick at which a STOP acts, and whether the staged
block could not be read (R31). -/
structure GrpSt where
  mode : Nat := 0
  base : Nat := 0
  len : Nat := 0
  atCyc : Nat := 0
  planes : List Nat := []
  /-- The staged block is block 0 as EVL_READY staged it, not yet played. -/
  ready : Bool := false
  c0 : Option Nat := none
  cyc : Nat := 0
  v : Nat := 0
  fixed : Option FixedCycle := none
  arrivals : List (Nat × Nat) := []
  stopAt : Option Nat := none
  lost : Bool := false
deriving DecidableEq, Repr
/-! ### DMA (chapter 13) -/

/-- A MOVE in progress: its fields with effective addresses, the stream spacing, 64-byte destination lines written so far; what is left of
a burst in progress, as destination addresses and bytes of its lines (R275); the host bytes of the block that a transpose is in; whether
an ABORT waits for the burst to end (R277). -/
structure MoveSt where
  ssp : Nat
  dsp : Nat
  barrier : Bool
  reqEn : Bool
  req : Nat
  shuf : Nat
  factor : Nat
  esize : Nat
  src : Nat
  dst : Nat
  len : Nat
  stride : Nat
  lines : Nat
  buf : List (Nat × List Byte) := []
  block : List Byte := []
  abort : Bool := false
deriving DecidableEq, Repr

/-- The active loop of a channel (R271): instruction index L, first instruction of the body, modulus, increments. -/
structure LoopSt where
  idx : Nat
  target : Nat
  mod : Nat
  sinc : Nat
  dinc : Nat
deriving DecidableEq, Repr

/-- What a WAIT waits for. -/
inductive WaitFor where
  | event (e : Nat)
  | kick
  | stamp (x : Nat)
deriving DecidableEq, Repr

/-- One DMA channel: the MOVE in progress, what a WAIT waits for, the active loop, bytes a resumed MOVE skips (R281). -/
structure DmaSt where
  move : Option MoveSt := none
  wait : Option WaitFor := none
  loop : Option LoopSt := none
  skip : Nat := 0
deriving DecidableEq, Repr
/-! ### Calibration (chapter 14) -/

/-- A crossfade of one kind of slice of a quad (R292): the lane, whether it goes to the Welt slice, its first tick. -/
structure Fade where
  lane : Nat
  toWelt : Bool
  start : Nat
deriving DecidableEq, Repr

/-- One kind of slice of a quad: the lane its Welt slice serves (4: none), a crossfade in progress, the sum of the differences
between the two sets' calibrated samples in it (R293; units of 2^-128 of full scale). -/
structure KindSt where
  serve : Nat := 4
  fade : Option Fade := none
  diff : Int := 0
deriving DecidableEq, Repr

/-- Welt rotation of one quad (R290 to R294): DAC, V and I kinds, whether the present step rotates, is borrowed by a session,
goes straight on to HANDBACK because WELT_EN was cleared in TAKEOVER, and the kinds whose restored slice has passed its
calibration (R304), as a bit mask, the kinds whose slice was restored in the present step of its lane, which is calibrated in a later one
(R304), as a bit mask, and the lanes on which a takeover has become permanent since the last sample (Table 08-4). -/
structure QuadSt where
  dac : KindSt := {}
  v : KindSt := {}
  i : KindSt := {}
  rotating : Bool := false
  borrowed : Bool := false
  stopping : Bool := false
  passed : Nat := 0
  restored : Nat := 0
  changed : List Nat := []
deriving DecidableEq, Repr

/-- A reference session (R286 to R289): the tiles still to measure, FORCE, the quad borrowed in the present step, whether the
present tile's measurement is discarded, whether a cell value has been accepted; CAL_CERT, CAL_REFV and CAL_REFR of the session whose
cell values are held (R308). -/
structure SessSt where
  tiles : Nat := 0
  force : Bool := false
  quad : Option Nat := none
  bad : Bool := false
  any : Bool := false
  cert : Word := 0
  refv : Word := 0
  refr : Word := 0
deriving DecidableEq, Repr

/-- A window threshold trim in progress (R300): the channel, the window (0 V, 1 I), the tick its 256 periods began, whether the I
window follows. -/
structure WTrimSt where
  ch : Nat
  win : Nat
  start : Nat
  more : Bool
deriving DecidableEq, Repr

/-- A correction that moves in 256 steps (R301): its register, whether it is in the format of R106, start and target as exact
values, steps made, the tick of the next step. -/
structure Ramp where
  addr : Nat
  coef : Bool
  start : Int
  target : Int
  k : Nat
  next : Nat
deriving DecidableEq, Repr
/-! ### Skidline (chapter 16) -/

/-- What a frame or an ordered set carries (Table 16-3, R340, R342). -/
inductive SklMsg where
  | time (p : Nat) (offset : Nat) (mstate : Nat)
  | share (entries : List SklShare)
  | sum (entries : List SklSum)
  | nack (kind : Nat) (seq : Nat)
  | enum (e : SklEnum)
  | release (stamp : Nat)
  | haltSet (origin : Nat)
  | faultSet (origin : Nat)
deriving DecidableEq, Repr

/-- A frame or set the device has sent in the present period: its port (false UP, true DN), originating position, SEQ (0 for an
ordered set), whether it was stomped. -/
structure SklSent where
  dn : Bool
  src : Nat
  seq : Nat
  stomped : Bool
  msg : SklMsg
deriving DecidableEq, Repr

/-- Skidline beside its registers: SEQ last sent and last received by port, violations answered in the present period by port, the
last ENUM of each position and the last log entry of each kind and port (a tick plus 1; 0: none), whether an ENUM has come on UP
since that port came up or EN was set, whether the device takes no part until EN is cleared (R337), whether a LAST frame has
given the length of the chain below, the master's P of the coming tick, valid TIME frames and misses in a row, whether CHAIN was lost,
the pending releases of the chain halt, what was sent. -/
structure SklSt where
  txUp : Nat := 0
  txDn : Nat := 0
  rxUp : Option Nat := none
  rxDn : Option Nat := none
  nackUp : Bool := false
  nackDn : Bool := false
  enumAt : SMap Nat := []
  logAt : SMap Nat := []
  upSeen : Bool := false
  barred : Bool := false
  lenKnown : Bool := false
  master : Option Nat := none
  timeRun : Nat := 0
  missRun : Nat := 0
  lost : Bool := false
  release : List Sched := []
  out : List SklSent := []
deriving DecidableEq, Repr
/-! ### NOR flash, Cobbler, boot (chapters 14, 17, 18) -/

/-- A copy of the safe-value table (R210, Table 09-5): MAGIC, GEN, COUNT, TABLE_CRC and the 512 entries. -/
structure SafeTable where
  magic : Nat
  gen : Nat
  count : Nat
  crc : Nat
  entries : List Word
deriving DecidableEq, Repr

/-- A copy of the calibration table (R308, Tables 14-9 and 14-10): the header's fields, register words that differ from reset (cells,
slice corrections and quality, slice map), the live board corrections, tap values that differ from production. -/
structure CalTable where
  magic : Nat
  gen : Nat
  format : Nat
  length : Nat
  crc : Nat
  sessGen : Nat
  cert : Word
  refv : Word
  refr : Word
  hours : Nat
  words : SMap Word
  board : SMap Word
  taps : SMap (Option Int)
deriving DecidableEq, Repr

/-- A copy of the boot structure file (R363). -/
structure StructFile where
  gen : Nat
  bytes : List Byte
deriving DecidableEq, Repr

/-- A firmware image in its region (R364): VERSION, ROLLBACK, the bytes of header, signature block and body. -/
structure FwImage where
  version : Nat
  rollback : Nat
  bytes : List Byte
deriving DecidableEq, Repr

/-- KIND of a Tally record (Table 18-7). -/
inductive TallyKind where
  | started | ok | failed | skipped | clear | boot
deriving DecidableEq, Repr

/-- A Tally record (Table 18-7): `quads` are the suspect quads that a DATA word of step 9 names; how it names 128 of them the spec does not
say, so the model keeps both (DESIGN CHOICE, assumption 39). `bad`: its CRC fails, and it is ignored (R383). -/
structure TallyRec where
  step : Nat
  kind : TallyKind
  alt : Bool
  detail : Nat
  ms : Nat
  boot : Nat
  data : Nat
  quads : List Nat := []
  bad : Bool := false
deriving DecidableEq, Repr

/-- What the NOR flash holds beside the event log: two copies of each table, the firmware slots (A is slot 0), the default slot and
the rollback level of the image last made default, keys, policy, subsystem identifiers, the two Tally sectors (the one in use and
the full one before it, newest record first), and, until a new table is stored, the copy of the calibration table that a CAL_RESTORE
chose, whose taps and slice map take effect at the next start (R366). -/
structure NorSt where
  safe : Option SafeTable × Option SafeTable := (none, none)
  cal : Option CalTable × Option CalTable := (none, none)
  struct_ : Option StructFile × Option StructFile := (none, none)
  fw : Option FwImage × Option FwImage := (some ⟨0, 0, []⟩, some ⟨0, 0, []⟩)
  fwDefault : Nat := 0
  rollback : Nat := 0
  keys : SMap (Option (List Byte)) := []
  polSigned : Bool := false
  subsys : Word := 0
  tally : List TallyRec := []
  tallyOld : List TallyRec := []
  restored : Option CalTable := none
deriving DecidableEq, Repr

/-- A level of a sensor (R351): consecutive readings beyond its threshold and back inside by the margin, each up to 4; whether the level
is entered. -/
structure LevelSt where
  out : Nat := 0
  back : Nat := 0
  on : Bool := false
deriving DecidableEq, Repr

/-- A sensor (R350, R351): thresholds, ACT, last reading, the level of each threshold. -/
structure SensorSt where
  warnLo : Int
  warnHi : Int
  alarmLo : Int
  alarmHi : Int
  act : Bool
  reading : Int
  wHi : LevelSt := {}
  wLo : LevelSt := {}
  aHi : LevelSt := {}
  aLo : LevelSt := {}
deriving DecidableEq, Repr

/-- Cobbler: a core runs the firmware; image slot of the standby; end of a probation (a tick); sensors that differ from reset; the
nonce and its expiry tick; keys in force; request and response area (by offset in the area); hours of the last automatic store;
mirror credit in entries times 125,000 and the tick it was brought up to. -/
structure CobSt where
  up : Bool := false
  stbyImage : Nat := 0
  probation : Option Nat := none
  sensors : List (Nat × SensorSt) := []
  nonce : Option (List Byte × Nat) := none
  keys : SMap (Option (List Byte)) := []
  req : Mem := []
  resp : Mem := []
  storeHours : Nat := 0
  credit : Nat := 64000000
  creditAt : Nat := 0
deriving DecidableEq, Repr

/-- Where the boot stands (R378, R381). -/
inductive BootSt where
  | pending | hung (step : Nat) | done
deriving DecidableEq, Repr

/-- A pending power transition of a cluster (R369, R372). -/
structure PwrPend where
  target : Nat
  due : Sched
deriving DecidableEq, Repr

/-- Power passage of a cluster: the pending transition, the target of a passage in progress, the tick PARK or IDLE was entered, the
tick the next step falls (biasing ends, RUN entry, a step down). -/
structure PwrSt where
  pend : Option PwrPend := none
  goal : Option Nat := none
  entered : Nat := 0
  next : Nat := 0
deriving DecidableEq, Repr

/-- Hub power, resets, isolation and clocks: the boot, PERST_N low, a device reset and its cause, the tick of KEY 0x5A, the DRAM
target, the tick and TILES of the first isolation key, tiles on their way to isolation and when, straps, tiles whose VDDA_5
reads low, the REFCLK input being switched to, whether the input that this switch leaves was declared lost, the DMA channel last
served at each priority (R275), an LPDDR5 stack that has failed, tiles whose fabric port has (Table 19-4), the milliseconds since the
release of PERST_N at tick `relTick` (R383). -/
structure HubSt where
  boot : BootSt := .pending
  perstLow : Bool := false
  resetAt : Option (Nat × Nat) := none
  rstKey : Option Nat := none
  dramGoal : Option Nat := none
  isoKey : Option (Nat × Nat) := none
  isoAt : List (Nat × Nat) := []
  straps : Nat := 0
  supplyLow : Nat := 0
  clkGoal : Option Nat := none
  clkLost : Bool := false
  dmaTurn : List Nat := [31, 31, 31, 31]
  stackBad : Bool := false
  portBad : List Nat := []
  bootMs : Nat := 0
  relTick : Nat := 0
deriving DecidableEq, Repr
/-! ### Boundary scan (chapter 20) -/

/-- Test access port beside its registers: segments in test mode (bit g cluster g, bit 16 the hub), what the instruction register captured
(R399), update cells of the boundary
register by 64 times segment plus cell, what the selected data register captured last and its length; TRST_N low holds Test-Logic-Reset (R398). -/
structure TapSt where
  test : Nat := 0
  ir : Nat := 1
  cells : SMap Bool := []
  dr : Nat := 0
  len : Nat := 32
  trst : Bool := false
deriving DecidableEq, Repr
/-! ### The whole machine -/

/-- Everything a channel holds beside its registers. -/
structure ChSt where
  eng : EngSt := {}
  model : ModelSt := {}
  inj : InjSt := {}
  smp : Sample := {}
  rng : RangeSt := {}
  apt : AptSt := {}
  raw : RawSt := {}
  dac : DacSt := {}
  winV : WinSt := {}
  winI : WinSt := {}
  pg : PgSt := {}
  blank : BlankSt := {}
  trk : TrackSt := {}
deriving DecidableEq, Repr

/-- A record waiting in the record writer's FIFO (R195): the channel, the record's 32 bytes, W, the tick it was formed in, its run, and the
ring that run took at START: address, length, whether it overwrites (R196). -/
structure RecEntry where
  ch : Nat
  words : List Word
  weight : Nat
  tick : Nat
  run : Nat
  base : Nat
  ringLen : Nat
  overwrite : Bool
deriving DecidableEq, Repr

/-- The entry of the present period, until the next tick settles its CTRL (R127, R156): its tick and stamp, whether it is stored (the
period before the first armed one only serves the comparisons of Table 06-5), whether a trigger other than 5, 6 and 7 holds, signal 0
and CTRL of the trigger way's channel, whether that signal is code 14, and address and channel of each stored word of code 14. -/
structure CapEntry where
  tick : Nat
  stamp : Nat
  stored : Bool
  hold : Bool
  sig : Option Int
  status : Bool
  ctrl : Option Nat
  words : List (Nat × Nat)
deriving DecidableEq, Repr

/-- Capture state of a cluster (R155 to R158): configuration taken at ARM, first tick, force, trigger. -/
structure CapSt where
  running : Bool := false
  ways : Nat := 0
  trig : Nat := 0
  trigWay : Nat := 0
  pre : Nat := 0
  level : Int := 0
  way : List Nat := []
  start : Nat := 0
  at_ : Option Nat := none
  forceFrom : Option Nat := none
  idx : Nat := 0
  written : Nat := 0
  after : Nat := 0
  prevSig : Option Int := none
  prevCtrl : Option Nat := none
  entry : Option CapEntry := none
  stopAt : Option Nat := none
deriving DecidableEq, Repr

/-- A gang's share message (R141). -/
structure Share where
  gang : Nat
  dev : Nat
  leader : Nat
  range : Nat
  value : Int
deriving DecidableEq, Repr

/-- Everything a cluster holds beside its registers. -/
structure CluSt where
  commit : CommitSt := {}
  /-- Consecutive periods with a residue failure, by lane (R118). -/
  laneFails : List Nat := [0, 0, 0, 0, 0, 0, 0, 0]
  /-- CLU_ENG_TEST: the period in which the test acts, its lane and channel (R119). -/
  test : Option (Nat × Nat × Nat) := none
  fifo : List RecEntry := []
  /-- The period in which the record writer last wrote, and the records it has written in it (R195). -/
  recTick : Nat := 0
  recCount : Nat := 0
  cap : CapSt := {}
  /-- The active bank has met an uncorrectable error (R387). -/
  bankBad : Bool := false
  /-- Comparators not yet settled after OFF (R215). -/
  settling : Bool := false
  /-- A gang mismatch episode lasts (R70). -/
  mismatch : Bool := false
  pwr : PwrSt := {}
  /-- Alternating SEQ bit of the range-link frames (Table 07-2), one per quad. -/
  seq : List Bool := [false, false, false, false, false, false, false, false]
deriving DecidableEq, Repr

/-- An effect with no row of its own that falls at a later tick. -/
inductive Later where
  /-- Select or release a source of Table 09-3 on a channel. -/
  | hold (n : Nat) (src : Nat) (on : Bool)
  /-- The DAC slice's safe code (R206). -/
  | safeDac (n : Nat) (code : Nat)
  /-- MANUAL blanking event (R218). -/
  | blank (n : Nat)
  /-- APT_RING_WR of a ring of length `len` covers the records that have reached sequence memory (R197). -/
  | ringWr (n : Nat) (len : Nat)
  /-- FAULT_N cleared (R391). -/
  | faultClear
  /-- A window's test mode at tick k+2 (R226): 0 V, 1 I; mode. -/
  | winTest (n : Nat) (w : Nat) (mode : Nat)
  /-- A window's trim begins (R300). -/
  | trim (n : Nat) (w : Nat)
  /-- Release of the doorbell and ball halts (R325). -/
  | haltRelease
  /-- A group's STOP acts (R258). -/
  | evlStop (x : Nat)
  /-- A held commit is treated as written in the period that starts (R62, R66). -/
  | heldCommit (g : Nat)
  /-- End of the freeze of a cancelled commit (R66). -/
  | freezeEnd (g : Nat)
  /-- A FAULT route's assertion at the next tick (Table 10-2). -/
  | fault (cause : Nat)
  /-- A window (0 V, 1 I) whose route has changed, or whose mask ends at the tick, acts right after it if it is outside (R216, R226). -/
  | routeAct (n : Nat) (w : Nat)
  /-- A tile goes DOWN (R367, R374). -/
  | tileDown (t : Nat)
deriving DecidableEq, Repr

/-- The state. -/
structure State where
  /-- The last sample tick: the present period's number (PHB_TICK). -/
  tick : Nat := 0
  regs : SMap Word := []
  live : SMap Word := []
  /-- Holding latches of _LO/_HI pairs, by 2 * LO address + virtual channel (R17). -/
  latches : SMap Word := []
  phase : PhaseSt := {}
  ch : SMap ChSt := []
  clu : SMap CluSt := []
  quad : SMap QuadSt := []
  lanes : SMap LaneSt := []
  grps : SMap GrpSt := []
  dma : SMap DmaSt := []
  ramps : List Ramp := []
  sess : SessSt := {}
  wtrim : Option WTrimSt := none
  /-- Tap values of Table 14-8 that differ from production, by tap number (`sliceTap`, `winTap`); none: the production value. -/
  taps : SMap (Option Int) := []
  /-- Power-on hours. -/
  hours : Nat := 0
  /-- Share messages for the coming period, and gang partial sums of the last sample received from the chain: gang, sum, count
  (R141, R144). -/
  shares : List Share := []
  sums : List (Nat × Int × Nat) := []
  /-- The last sample of each of the 64 auxiliary inputs, by 16 * tile + input (R139). -/
  aux : SMap Int := []
  /-- Event-lane balls that read high as inputs (chapter 12). -/
  laneIn : SMap Bool := []
  /-- The tick at which a cause of FAULT_N was last raised (R391). -/
  faultTick : Option Nat := none
  hubCommit : CommitSt := {}
  log : LogSt := {}
  host : HostSt := {}
  skl : SklSt := {}
  /-- Entries the link and error log has made since reset (NEXT and the ring are in registers). -/
  elogCount : Nat := 0
  /-- Tiles whose present isolation has had its first discarded write logged (R38). -/
  isoLogged : Nat := 0
  /-- The first BAR2 access outside ACTIVE has been logged since the entry (R375). -/
  dramLogged : Bool := false
  /-- Words of coefficient RAM that read uncorrectable, with the value the engine uses (R387), and the words the host has
  overwritten in the present period, with the value before. -/
  coefBad : SMap Word := []
  coefOld : SMap Word := []
  /-- The structure signature policy is SIGNED (R360). -/
  polSigned : Bool := false
  cob : CobSt := {}
  nor : NorSt := {}
  hub : HubSt := {}
  jtag : TapSt := {}
  banks : Mem := []
  seqMem : Mem := []
  capMem : Mem := []
  later : List (Nat × Later) := []
  freeCount : Nat := 0
  pending : List Instr := []
deriving DecidableEq, Repr

/-- Why the machine stops with a fault. No command of the device does: each has an effect the spec gives, on every operand and in
every state, so the type has no constructor. Safe. -/
inductive Fault where
deriving DecidableEq, Repr

/-- Why a command has no meaning. -/
inductive Refusal where
  /-- Raised by an arm of the dispatch whose command has no meaning yet; there is none. Safe: the machine stops. -/
  | notModelled (mnemonic : String)
deriving DecidableEq, Repr

/-- The machine right after reset (R8): every register at its reset value, nothing running, no command waiting. -/
def State.reset : State := {}

end Sys2Proof.Machine
end

