-- ==== Sys2Proof/Machine/Ops.lean ====
section
/-!
DEFINITION. The named operations every meaning uses: register fields, live values, phase stamps and schedules, the later
agenda, interrupts, the event log, the link and error log, FAULT_N.
-/

namespace Sys2Proof.Machine

/-- What a meaning answers. -/
abbrev Out := Host.Outcome State Fault Refusal

/-! ### Bit fields and signed words -/

/-- The value of a field. -/
def Fld.get (f : Fld) (w : Word) : Nat := w.toNat / 2 ^ f.lsb % 2 ^ f.width

/-- A word with one field replaced. -/
def Fld.put (f : Fld) (w : Word) (v : Nat) : Word :=
  let m : Word := BitVec.ofNat 32 ((2 ^ f.width - 1) * 2 ^ f.lsb)
  (w &&& ~~~m) ||| (BitVec.ofNat 32 (v * 2 ^ f.lsb) &&& m)

/-- The bits of the bytes enabled by `be` (R36). -/
def beMask (be : Nat) : Word :=
  (if be.testBit 0 then 0xFF else 0) ||| (if be.testBit 1 then 0xFF00 else 0) |||
  (if be.testBit 2 then 0xFF0000 else 0) ||| (if be.testBit 3 then 0xFF000000 else 0)

/-- Clamp to a range. -/
def clampI (lo hi x : Int) : Int := if x < lo then lo else if hi < x then hi else x

/-- Saturate to 32 bits two's complement (R13). -/
def sat32 (x : Int) : Int := clampI (-0x80000000) 0x7FFFFFFF x

/-- A number as a register word, modulo 2^32. -/
def wordOf (x : Int) : Word := BitVec.ofInt 32 x

/-- Two's complement reading of the low `w` bits. -/
def signed (w : Nat) (x : Nat) : Int :=
  let y := x % 2 ^ w
  if 2 * y < 2 ^ w then (y : Int) else (y : Int) - 2 ^ w

/-- A number as little-endian bytes. -/
def leBytes (v : Nat) (n : Nat) : List Byte := (List.range n).map (fun i => BitVec.ofNat 8 (v / 256 ^ i))

/-! ### Registers (R15) -/

/-- The value a register holds (the shadow, for SH fields). -/
def State.rd (s : State) (a : Nat) : Word := SMap.get (regReset a) s.regs a

/-- Store a register word. -/
def State.wr (s : State) (a : Nat) (v : Word) : State := { s with regs := SMap.set (regReset a) s.regs a v }

/-- The live value of a shadowed register (R58, R448). -/
def State.lv (s : State) (a : Nat) : Word := SMap.get (regReset a) s.live a

/-- Make a live value. -/
def State.wl (s : State) (a : Nat) (v : Word) : State := { s with live := SMap.set (regReset a) s.live a v }

def State.fld (s : State) (a : Nat) (f : Fld) : Nat := f.get (s.rd a)
def State.bit (s : State) (a : Nat) (f : Fld) : Bool := s.fld a f != 0
def State.lfld (s : State) (a : Nat) (f : Fld) : Nat := f.get (s.lv a)
def State.lbit (s : State) (a : Nat) (f : Fld) : Bool := s.lfld a f != 0
def State.setFld (s : State) (a : Nat) (f : Fld) (v : Nat) : State := s.wr a (f.put (s.rd a) v)
def State.setBit (s : State) (a : Nat) (f : Fld) (b : Bool) : State := s.setFld a f b.toNat
/-- Set a sticky flag. -/
def State.raise (s : State) (a : Nat) (f : Fld) : State := s.setFld a f 1
/-- Set a sticky flag where a condition holds. -/
def State.raiseIf (s : State) (c : Bool) (a : Nat) (f : Fld) : State := if c then s.raise a f else s
/-- Set bit `b` of a register. -/
def State.setBitAt (s : State) (a : Nat) (b : Nat) : State := s.wr a (s.rd a ||| BitVec.ofNat 32 (2 ^ b))
/-- Clear bit `b` of a register. -/
def State.clrBitAt (s : State) (a : Nat) (b : Nat) : State := s.wr a (s.rd a &&& ~~~(BitVec.ofNat 32 (2 ^ b)))

/-- The 64 bits of a _LO/_HI pair, as stored and as live; `lo` is the address of the _LO register. -/
def State.rd64 (s : State) (lo : Nat) : Nat := (s.rd lo).toNat + 2 ^ 32 * (s.rd (lo + 4)).toNat
def State.lv64 (s : State) (lo : Nat) : Nat := (s.lv lo).toNat + 2 ^ 32 * (s.lv (lo + 4)).toNat
def State.wr64 (s : State) (lo : Nat) (v : Nat) : State :=
  (s.wr lo (BitVec.ofNat 32 v)).wr (lo + 4) (BitVec.ofNat 32 (v / 2 ^ 32))

/-- A counter that stops at `top`. -/
def State.incSat (s : State) (a : Nat) (f : Fld) : State :=
  let v := s.fld a f
  if v + 1 < 2 ^ f.width then s.setFld a f (v + 1) else s
/-- A counter that wraps. -/
def State.incWrap (s : State) (a : Nat) (f : Fld) : State := s.setFld a f (s.fld a f + 1)
/-- The whole register as a field. -/
def fWord : Fld := ⟨0, 32⟩

/-- Fresh open value (assumption 2). -/
def State.free (s : State) : Word × State := (Config.freeWord s.freeCount, { s with freeCount := s.freeCount + 1 })

/-! ### Units -/

def State.chan (s : State) (n : Nat) : ChSt := SMap.get {} s.ch n
def State.setChan (s : State) (n : Nat) (c : ChSt) : State := { s with ch := SMap.set {} s.ch n c }
def State.updChan (s : State) (n : Nat) (f : ChSt → ChSt) : State := s.setChan n (f (s.chan n))
def State.cluster (s : State) (g : Nat) : CluSt := SMap.get {} s.clu g
def State.setCluster (s : State) (g : Nat) (c : CluSt) : State := { s with clu := SMap.set {} s.clu g c }
def State.updCluster (s : State) (g : Nat) (f : CluSt → CluSt) : State := s.setCluster g (f (s.cluster g))

/-- Fold a state through a list. -/
def State.over {α : Type} (s : State) (xs : List α) (f : State → α → State) : State := xs.foldl f s

/-- The channels of cluster g. -/
def chansOf (g : Nat) : List Nat := (List.range 32).map (32 * g + ·)
/-- The channels of global quad q. -/
def quadChans (q : Nat) : List Nat := (List.range 4).map (4 * q + ·)
/-- All clusters. -/
def allClu : List Nat := List.range 16

/-- Power state of a cluster (Table 18-1 codes): 0 OFF, 1 PARK, 2 IDLE, 3 RUN. -/
def State.pwr (s : State) (g : Nat) : Nat := s.fld (PWR_CLU_STAT g) fPWR_CLU_STAT_STATE
/-- Is the cluster of channel n in RUN? -/
def State.inRun (s : State) (n : Nat) : Bool := s.pwr (n / 32) == 3
/-- Is the cluster of channel n in IDLE or RUN? -/
def State.biased (s : State) (n : Nat) : Bool := 2 ≤ s.pwr (n / 32)

/-! ### Phase stamps and schedules (R12, R72 to R78) -/

/-- The stamp of an accumulator value: bits [95:32]. -/
def stampOf (p : Nat) : Nat := p / 2 ^ 32 % 2 ^ 64

/-- A stamp is at or after another (R76). -/
def atOrAfter (a b : Nat) : Bool := (a + 2 ^ 64 - b) % 2 ^ 64 < 2 ^ 63

/-- The bounds of R92 on an increment. -/
def boundInc (i : Nat) : Nat :=
  if 0x0CCCCCCCCCCCCCCC < i then 0x0CCCCCCCCCCCCCCC else if i < 0x15798EE230 then 0x15798EE230 else i

/-- The live PHB_FREE_INC as it acts. -/
def State.freeInc (s : State) : Nat := boundInc (s.lv64 PHB_FREE_INC_LO)

/-- P of the coming tick, fixed in the period before (R72, R73). -/
def State.nextP (s : State) : Nat := s.phase.next

/-- The coming tick is a forward jump (R82): P advances by more than the present Δ through an index pulse. -/
def State.nextIsJump (s : State) : Bool := s.phase.nextJump

/-- Stamp of the present tick. -/
def State.now (s : State) : Nat := stampOf s.phase.p
/-- Stamp of the coming tick (R73). -/
def State.nextStamp (s : State) : Nat := stampOf s.nextP

/-- Is an item due at the coming tick (R77, R78, R97)? -/
def State.due (s : State) (d : Sched) : Bool :=
  decide (d.notBefore ≤ s.tick + 1) && match d.stamp with
    | none => true
    | some x => atOrAfter s.nextStamp x

/-- Is a stamp armed in the present period late (R78)? -/
def State.isLate (s : State) (x : Nat) : Bool := atOrAfter s.nextStamp x

/-- Schedule an item armed in the present period k: at tick k+2, or at the due tick of a stamp that is not late. -/
def State.sched (s : State) (stamp : Option Nat) : Sched :=
  match stamp with
  | none => ⟨s.tick + 2, none⟩
  | some x => if s.isLate x then ⟨s.tick + 2, none⟩ else ⟨s.tick + 2, some x⟩

/-- Does a stamp option count as late? -/
def State.lateOpt (s : State) : Option Nat → Bool
  | none => false
  | some x => s.isLate x

/-- The edge fraction of a stamp whose due tick is the coming tick (R77); 0 in the span of a forward jump (R82). -/
def State.edgeFrac (s : State) (x : Nat) : Nat :=
  if s.nextIsJump then 0
  else
    let num := ((s.nextP + 2 ^ 96 - x * 2 ^ 32 % 2 ^ 96) % 2 ^ 96) * 2 ^ 32
    let den := (s.nextP + 2 ^ 96 - s.phase.p) % 2 ^ 96
    if den = 0 then 0 else min 0xFFFFFFFF ((2 * num + den) / (2 * den))

/-- Put an effect into the agenda of tick `t`. -/
def State.after (s : State) (t : Nat) (l : Later) : State := { s with later := s.later ++ [(t, l)] }

/-! ### Interrupts (R317, R318) -/

/-- A vector's sources, set and enabled (Table 15-3). -/
def State.vecSource (s : State) (v : Nat) : Bool :=
  if v = 0 then (s.rd HUB_INT_STAT &&& s.rd HUB_INT_EN) != 0
  else if v = 1 then (s.rd PCI_INT_STAT &&& s.rd PCI_INT_EN) != 0
  else if v = 2 then (s.rd PHB_STAT &&& s.rd PHB_INT_EN &&& 0x7F00) != 0
  else if v = 3 then (s.rd DMA_INT_STAT &&& s.rd DMA_INT_EN) != 0
  else if v = 4 then s.bit MBX_STAT fMBX_STAT_DONE && s.bit MBX_INT_EN fMBX_INT_EN_DONE
  else if v = 5 then (s.rd MBX_EVT_STAT &&& s.rd MBX_EVT_EN &&& 0xF) != 0
  else if v = 6 then (s.rd SKL_INT_STAT &&& s.rd SKL_INT_EN) != 0
  else if v = 7 then (s.rd CAL_SESS_STAT &&& 0x1F00) != 0 || (s.rd CAL_WTRIM_STAT &&& 0x700) != 0 ||
      (s.rd CAL_FAIL_SUM) != 0
  else if v < 24 then (chansOf (v - 8)).any (fun n => (s.rd (CH_INT_STAT n) &&& s.rd (CH_INT_EN n)) != 0)
  else if v < 40 then (s.rd (CLU_INT_STAT (v - 24)) &&& s.rd (CLU_INT_EN (v - 24))) != 0
  else false

/-- A vector's condition (R317). -/
def State.vecCond (s : State) (v : Nat) : Bool :=
  (if v < 32 then (s.rd PCI_VEC_EN_LO).getLsbD v else (s.rd PCI_VEC_EN_HI).getLsbD (v - 32)) && s.vecSource v

/-- Word `w` of a vector's MSI-X table entry (Table 01-10); the vector control word resets to masked (assumption 9). -/
def State.msixWord (s : State) (v w : Nat) : Word :=
  SMap.get (if w = 3 then 1 else 0) s.host.msix (4 * v + w)

/-- Make a TLP ready for transmission (R314): a request or a message, always TC0 on VC0, Relaxed Ordering and No Snoop 0. -/
def State.issue (s : State) (k : TxKind) : State := { s with host := { s.host with
  ready := s.host.ready ++ [⟨k, 0, 0, false, false, s.host.cfg.ecrcGen⟩] } }

/-- The completion of a request: on its virtual channel, in its traffic class (header bits [22:20]), Relaxed Ordering and No Snoop 0
(R314). -/
def State.complete (s : State) (rq : Req) (status : Nat) (ep : Bool) (len : Nat) : State :=
  { s with host := { s.host with ready := s.host.ready ++
      [⟨.completion status ep len, rq.hdr.h0.toNat / 2 ^ 20 % 8, rq.vc % 2, false, false, s.host.cfg.ecrcGen⟩] } }

/-- Bytes [a, a + len) in pieces of at most `most` bytes, none of which crosses a multiple of it. -/
def splitReq (most a len : Nat) : List (Nat × Nat) :=
  (List.range (len / most + 2)).filterMap (fun i =>
    let lo := max a ((a / most + i) * most)
    let hi := min (a + len) ((a / most + i + 1) * most)
    if lo < hi then some (lo, hi - lo) else none)

/-- The completions of a read of `len` bytes at `a` (R313): one for each block of 64 bytes that it touches (DESIGN CHOICE, assumption 33: R313
says where they are split, not how many blocks one may hold), and one for a read of length 0. -/
def State.completeRead (s : State) (rq : Req) (ep : Bool) (a len : Nat) : State :=
  if len = 0 then s.complete rq 0 ep 0 else (splitReq 64 a len).foldl (fun t x => t.complete rq 0 ep x.2) s

/-- The order in which TLPs that are ready together go out: VC1 first (R314). -/
def txOrder (xs : List TxTlp) : List TxTlp := xs.filter (fun x => x.vc = 1) ++ xs.filter (fun x => x.vc != 1)

/-- What is ready is transmitted; nothing is while the link is down. -/
def State.transmit (s : State) : State :=
  { s with host := { s.host with out := if s.host.linkUp then txOrder s.host.ready else [], ready := [] } }

/-- No message may go out: MSI-X is disabled or the Function Mask set (R318), the function is in D3hot (R312) or, by the PCIe
specification (R310), may not issue requests. -/
def HostSt.shut (h : HostSt) : Bool := !h.msixEnable || h.funcMask || h.dstate == .d3hot || !h.cfg.busMaster

/-- Send a vector's message, or set its pending bit where it is masked (R318). -/
def State.sendVec (s : State) (v : Nat) : State :=
  let h := s.host
  if h.shut || (s.msixWord v 3).getLsbD 0 then
    { s with host := { h with pba := h.pba ||| 2 ^ v } }
  else
    let a := (s.msixWord v 0).toNat + 2 ^ 32 * (s.msixWord v 1).toNat
    { s with host := { (s.issue (.msix v)).host with
        pba := h.pba &&& (2 ^ 64 - 1 - 2 ^ v)
        mem := h.mem.writeLE a (s.msixWord v 2).toNat 4
        sent := SMap.set 0 h.sent v (SMap.get 0 h.sent v + 1) } }

/-- Apply an update of a vector's sources: a condition that turns true sends the message (R318). -/
def State.withVec (s : State) (v : Nat) (f : State → State) : State :=
  let t := f s
  if !s.vecCond v && t.vecCond v then t.sendVec v else t

/-- Set bit(s) of CH_INT_STAT of a channel (R319). -/
def State.chEvent (s : State) (n : Nat) (f : Fld) : State :=
  s.withVec (8 + n / 32) (fun t => t.raise (CH_INT_STAT n) f)
/-- Set a bit of CLU_INT_STAT (R319). -/
def State.cluEvent (s : State) (g : Nat) (f : Fld) : State :=
  s.withVec (24 + g) (fun t => t.raise (CLU_INT_STAT g) f)
/-- Set a bit of HUB_INT_STAT. -/
def State.hubEvent (s : State) (f : Fld) : State := s.withVec 0 (fun t => t.raise HUB_INT_STAT f)
/-- Set a sticky of PHB_STAT (R93). -/
def State.phbEvent (s : State) (f : Fld) : State := s.withVec 2 (fun t => t.raise PHB_STAT f)

/-! ### Request tokens (R274, Table 13-6) -/

/-- A line's tokens have changed: the channels whose MOVE waits for one, or may now begin its next burst, show it (R274, R282). -/
def State.tokenShow (s : State) (line : Nat) : State :=
  let none_ := s.fld (DMA_REQ_TOK line) fDMA_REQ_TOK_TOKENS == 0
  s.over (s.dma.map (·.1)) (fun t d =>
    match (SMap.get {} s.dma d).move with
    | some m =>
      let st := t.fld (DMA_CH_STAT d) fDMA_CH_STAT_STATE
      if m.reqEn && m.req == line && m.buf.isEmpty && decide (m.lines < m.len / 64) && (st == 1 || st == 2) then
        (t.setFld (DMA_CH_STAT d) fDMA_CH_STAT_STATE (if none_ then 2 else 1)).setBit (DMA_CH_STAT d) fDMA_CH_STAT_TOKEN_WAIT none_
      else t
    | none => t)

/-- Add `k` tokens to every request line whose source is (kind, index). -/
def State.addTokens (s : State) (kind index k : Nat) : State :=
  s.over ((List.range 64).filter (fun r => (s.rd (DMA_REQ_CFG r)) != 0 && s.fld (DMA_REQ_CFG r) fDMA_REQ_CFG_KIND == kind &&
    s.fld (DMA_REQ_CFG r) fDMA_REQ_CFG_INDEX == index)) (fun t r =>
      let v := t.fld (DMA_REQ_TOK r) fDMA_REQ_TOK_TOKENS + k
      ((t.setFld (DMA_REQ_TOK r) fDMA_REQ_TOK_TOKENS (min v 0xFFFF)).raiseIf (0xFFFF < v) (DMA_REQ_TOK r) fDMA_REQ_TOK_OVER).tokenShow r)

/-! ### Sources of the safe code (R207) -/

/-- Bits of CH_SAFE_SRC.HOLD. -/
def srcTrip : Nat := 0
def srcHalt : Nat := 1
def srcUnderrun : Nat := 2
def srcLaneFail : Nat := 3
def srcDisabled : Nat := 4
def srcModeSwitch : Nat := 5
def srcForce : Nat := 6
def srcEnv : Nat := 7
def srcState : Nat := 8
def srcSupply : Nat := 9

/-- Sources holding channel n now. -/
def State.holdBits (s : State) (n : Nat) : Nat := s.fld (CH_SAFE_SRC n) fCH_SAFE_SRC_HOLD
/-- Is the safe code applied? -/
def State.isHeld (s : State) (n : Nat) : Bool := s.holdBits n != 0
def State.heldBy (s : State) (n b : Nat) : Bool := (s.holdBits n).testBit b

/-! ### Event log, link and error log, FAULT_N -/

/-- The SEQ ceiling that an entry brings (R353): stored by Cobbler, 65,536 above, when SEQ comes within 16,384 of it. -/
def nextCeiling (running : Bool) (seq ceiling : Nat) : Nat :=
  if running && ceiling ≤ seq + 16384 then seq + 65536 else ceiling

/-- Make an entry in the Cobbler event log with a given stamp (R353, R355, R447). -/
def State.logEvAt (s : State) (stamp src bit sev addr d0 d1 : Nat) : State :=
  let e : LogEntry := ⟨bit, src, sev, s.log.seq, stamp, addr, d0, d1⟩
  let t := { s with log := { s.log with
    ring := (e :: s.log.ring).take 512
    seq := s.log.seq + 1
    ceiling := nextCeiling s.cob.up (s.log.seq + 1) s.log.ceiling
    unmirrored := s.log.unmirrored + 1 } }
  if s.fld MBX_EVT_EN fMBX_EVT_EN_LOG_SEV ≤ sev then
    t.withVec 5 (fun u => u.raise MBX_EVT_STAT fMBX_EVT_STAT_LOG)
  else t
/-- Make an entry in the Cobbler event log with the stamp of the tick at or before the event (Table 17-8). -/
def State.logEv (s : State) (src bit sev addr d0 d1 : Nat) : State := s.logEvAt s.now src bit sev addr d0 d1

/-- No TLP header. -/
def Tlp.zero : Tlp := ⟨0, 0, 0, 0⟩

/-- SEVERITY of a link and error log entry's copy (Table 17-9). -/
def elogSev (cls : Nat) : Nat := if 1 ≤ cls && cls ≤ 4 then 1 else if cls = 0x23 then 3 else 2

/-- A TLP of this header is posted: a memory write or a message (PRESUMED: the header layout of PCIe; assumption 33). -/
def Tlp.posted (h : Tlp) : Bool :=
  let type := h.h0.toNat / 2 ^ 24 % 32
  (h.h0.getLsbD 30 && type == 0) || (16 ≤ type && type < 24)

/-- Where the AER status registers show a class of Table 15-5: whether it is a correctable error, and its bit; the others have none
(PRESUMED: the layout of PCIe; assumption 33). -/
def aerBit (cls : Nat) : Option (Bool × Nat) :=
  [(0x01, true, 0), (0x02, true, 6), (0x03, true, 7), (0x04, true, 12), (0x05, true, 8), (0x06, false, 18), (0x07, false, 12), (0x08, false, 16),
    (0x09, false, 14), (0x0A, false, 20), (0x0B, false, 15), (0x0C, false, 13), (0x0D, false, 17), (0x0E, false, 19)].lookup cls

/-- A PCIe error (R326): its header in the Header Log, its status bit and, unless masked or not reported, its message. A non-fatal error
that the completer of a non-posted request meets, or an unexpected completion, is an advisory one: a correctable error of bit 13. Classes
0x20 and above are none. -/
def State.aerNote (s : State) (cls : Nat) (hdr : Tlp) : State :=
  let h := s.host
  let c := h.cfg
  let say (h : HostSt) (on : Bool) (sev : ErrSev) : HostSt :=
    if on then { h with ready := h.ready ++ [⟨.err sev, 0, 0, false, false, false⟩] } else h
  let h1 := if 0x20 ≤ cls || hdr = Tlp.zero then h else { h with aer := hdr }
  let h2 := match aerBit cls with
    | none => h1
    | some (true, b) => say { h1 with aerCor := h1.aerCor ||| BitVec.ofNat 32 (2 ^ b) } (c.report.1 && !c.corMask.getLsbD b) .cor
    | some (false, b) =>
      let fatal := c.uncSev.getLsbD b
      let t := { h1 with aerUnc := h1.aerUnc ||| BitVec.ofNat 32 (2 ^ b) }
      if !fatal && (cls = 8 || ((cls = 0xA || cls = 0xB) && !Tlp.posted hdr)) then
        say { t with aerCor := t.aerCor ||| 0x2000 } (c.report.1 && !c.corMask.getLsbD 13 && !c.uncMask.getLsbD b) .cor
      else say t (!c.uncMask.getLsbD b && (if fatal then c.report.2.2.1 else c.report.2.1 || (cls == 0xA && c.report.2.2.2)))
        (if fatal then .fatal else .nonFatal)
  { s with host := h2 }

/-- Make an entry in the link and error log (R327): the newest entry's REPEAT grows when class and header words 0 and 1 are
equal; a new entry also goes to the event log and raises the vector. -/
def State.elog (s : State) (cls vc : Nat) (hdr : Tlp) (addr : Nat) : State :=
  let nx := s.fld PCI_ELOG_STAT fPCI_ELOG_STAT_NEXT
  let last := (nx + 63) % 64
  let w0 := s.rd (PCI_ELOG last 0)
  if (s.elogCount != 0) && w0.toNat % 256 = cls && s.rd (PCI_ELOG last 1) = hdr.h0 && s.rd (PCI_ELOG last 2) = hdr.h1 then
    let rep := w0.toNat / 65536
    (if rep < 0xFFFF then s.wr (PCI_ELOG last 0) (BitVec.ofNat 32 (w0.toNat + 65536)) else s).aerNote cls hdr
  else
    let e (t : State) (w : Nat) (v : Nat) : State := t.wr (PCI_ELOG nx w) (BitVec.ofNat 32 v)
    let s1 := e s 0 (cls + 256 * (vc % 2))
    let s2 := e (e (e (e s1 1 hdr.h0.toNat) 2 hdr.h1.toNat) 3 hdr.h2.toNat) 4 hdr.h3.toNat
    let s3 := e (e (e s2 5 s.now) 6 (s.now / 2 ^ 32)) 7 addr
    let s4 := (s3.raiseIf (decide (64 ≤ s.elogCount)) PCI_ELOG_STAT fPCI_ELOG_STAT_WRAPPED).setFld PCI_ELOG_STAT
      fPCI_ELOG_STAT_NEXT (nx + 1)
    let s5 := { s4 with elogCount := s.elogCount + 1 }.aerNote cls hdr
    let seen := if cls < 32 then PCI_ELOG_SEEN_LO else PCI_ELOG_SEEN_HI
    let s6 := s5.setBitAt seen (cls % 32)
    let s7 := s6.logEv 7 (cls % 32) (elogSev cls) seen cls nx
    s7.withVec 1 (fun t => t.raise PCI_INT_STAT fPCI_INT_STAT_ELOG)

/-! ### Memory requests (R312, R313) -/

/-- The function takes memory requests: Memory Space Enable is 1 and it is in D0. -/
def State.memOn (s : State) : Bool := s.host.memEnable && s.host.dstate == .d0

/-- A request that the function does not support: class 0x0A, discarded, and a non-posted one is answered with Unsupported Request
(status code 1). -/
def State.unsupported (s : State) (rq : Req) (addr : Nat) (posted : Bool) : State :=
  let t := s.elog 0x0A rq.vc rq.hdr addr
  if posted then t else t.complete rq 1 false 0

/-- A host write by a memory request. -/
def State.memWrite (s : State) (rq : Req) (addr : Nat) (f : State → Out) : Out :=
  if s.memOn then f s else .next (s.unsupported rq addr true)

/-! ### Tile spans (R38, R374, R379, R392) -/

/-- Tile t is UP (R374). -/
def State.tileOn (s : State) (t : Nat) : Bool := (s.rd PWR_TILE_STAT).getLsbD t
/-- The span of tile t answers: it is UP and its fabric port works (R38, Table 19-4). DESIGN CHOICE (assumption 38): while the port has
failed its span reads 0 and discards writes, as that of a tile that is DOWN. -/
def State.tileUp (s : State) (t : Nat) : Bool := s.tileOn t && !s.hub.portBad.contains t
/-- Tile t is isolated. -/
def State.isolated (s : State) (t : Nat) : Bool := (s.rd PWR_TILE_STAT).getLsbD (8 + t)

/-- A TLP header the model does not know (assumption 10): fresh open values. -/
def State.freeTlp (s : State) : Tlp × State :=
  let (a, s1) := s.free
  let (b, s2) := s1.free
  let (c, s3) := s2.free
  let (d, s4) := s3.free
  (⟨a, b, c, d⟩, s4)

/-- A write discarded at the span of tile t is the first one of the tile's isolation (R38). -/
def State.firstDiscard (s : State) (t : Nat) : Bool := s.isolated t && !s.isoLogged.testBit t

/-- A write discarded at the span of tile t: the first one of an isolation is logged, class 0x21, with the virtual channel and the
header of the request (R38, R327). -/
def State.discardReq (s : State) (t a : Nat) (rq : Req) : State :=
  if s.firstDiscard t then { s with isoLogged := s.isoLogged ||| 2 ^ t }.elog 0x21 rq.vc rq.hdr a else s

/-- The same for a command that does not carry the header of its write: the header and the virtual channel are open values. -/
def State.discardWrite (s : State) (t a : Nat) : State :=
  if s.firstDiscard t then
    let (h, s1) := s.freeTlp
    let (v, s2) := s1.free
    s2.discardReq t a ⟨v.toNat % 2, h⟩
  else s

/-- A host write, with its request, of an address in the span of tile t. -/
def State.toTileReq (s : State) (t a : Nat) (rq : Req) (f : State → Out) : Out :=
  if s.tileUp t then f s else .next (s.discardReq t a rq)

/-- A host write command whose register lies in the span of tile t. -/
def State.toTile (s : State) (t a : Nat) (f : State → Out) : Out :=
  if s.tileUp t then f s else .next (s.discardWrite t a)

/-- The LPDDR5 stacks are in ACTIVE (R375). -/
def State.dramActive (s : State) : Bool := s.fld PWR_DRAM_STAT fPWR_DRAM_STAT_STATE == 2

/-- Sequence memory serves tile t: the stacks are ACTIVE and have not failed, and the tile's fabric port works (R31, R375,
Table 19-4). -/
def State.memUp (s : State) (t : Nat) : Bool := s.dramActive && !s.hub.stackBad && !s.hub.portBad.contains t

/-- Raise a cause of FAULT_N (R390): `b` is its bit in HUB_FAULT_STAT. -/
def State.raiseFault (s : State) (b : Nat) : State :=
  let t := ({ s with faultTick := some s.tick }.setBitAt HUB_FAULT_STAT b).raise HUB_FAULT_STAT fHUB_FAULT_STAT_ASSERTED
  (t.raiseIf (!s.jtag.test.testBit 16) HUB_FAULT_STAT fHUB_FAULT_STAT_PIN_LOW).hubEvent fHUB_INT_STAT_FAULT

/-! ### ECC (R387) -/

/-- Count a corrected error. -/
def State.eccCe (s : State) : State := (s.incSat HUB_ECC_CE fWord).raise HUB_ECC_STAT fHUB_ECC_STAT_CE

/-- Report an uncorrectable memory error, all but its log entry: memory code, cluster, address. -/
def State.eccLoad (s : State) (mem clu a : Nat) : State :=
  let s1 := ((s.setFld HUB_ECC_STAT fHUB_ECC_STAT_MEM mem).setFld HUB_ECC_STAT fHUB_ECC_STAT_CLUSTER clu).raise HUB_ECC_STAT
    fHUB_ECC_STAT_UE
  ((s1.wr HUB_ECC_ADDR (BitVec.ofNat 32 a)).incSat HUB_ECC_UE fWord).raiseFault 13

/-- The same with its event log entry. -/
def State.eccUe (s : State) (mem clu a : Nat) : State := (s.eccLoad mem clu a).logEv 0xC 9 3 HUB_ECC_STAT 0 0

end Sys2Proof.Machine
end

