-- ==== Sys2Proof/Machine/Phase.lean ====
section
/-!
DEFINITION. The phase base (chapter 03): the sampling of PHREF, reference events, index pulses, encoder counts, loss of reference,
holdover, and the increment of each period.
-/

namespace Sys2Proof.Machine

/-! ### Modes and states -/

/-- PHB_STAT.STATE codes. -/
def phFree : Nat := 0
def phAcquire : Nat := 1
def phLocked : Nat := 2
def phHoldover : Nat := 3
def phChain : Nat := 4

def State.phState (s : State) : Nat := s.fld PHB_STAT fPHB_STAT_STATE
def State.setPhState (s : State) (v : Nat) : State := s.setFld PHB_STAT fPHB_STAT_STATE v
/-- The chain drives the phase base, or has been lost and not found again (R339): the device's own reference is not used. -/
def State.chained (s : State) : Bool := s.phState == phChain || s.skl.lost
def State.phMode (s : State) : Nat := s.lfld PHB_CTL fPHB_CTL_MODE
/-- SINE, or PULSE tracked as a periodic reference (R81). -/
def State.phPeriodic (s : State) : Bool := s.phMode == 1 || (s.phMode == 2 && !s.lbit PHB_CTL fPHB_CTL_INDEX)
/-- INDEX operation (R82). -/
def State.phIndex (s : State) : Bool := s.phMode == 2 && s.lbit PHB_CTL fPHB_CTL_INDEX
/-- An edge of PHREF is of the kind PHB_CTL.EDGE selects (Table 03-1). -/
def State.edgeTaken (s : State) (rising : Bool) : Bool := rising != s.lbit PHB_CTL fPHB_CTL_EDGE
def State.updPhase (s : State) (f : PhaseSt → PhaseSt) : State := { s with phase := f s.phase }
def State.refPresent (s : State) (b : Bool) : State := s.setBit PHB_STAT fPHB_STAT_REF_PRESENT b

/-- Leave LOCKED (R85). -/
def State.unlock (s : State) : State := if s.phState = phLocked then s.phbEvent fPHB_STAT_UNLOCK else s

/-- One sample, and one core clock cycle, in the time units of the phase base. -/
def unitT : Nat := 1638400
def cycT : Nat := 4096

/-- The instant of core clock cycle `cyc` of the present period. -/
def State.instant (s : State) (cyc : Nat) : Nat := s.tick * unitT + cyc % 400 * cycT

/-- Counts per cycle (R83). -/
def State.cpc (s : State) : Nat := max 4 (s.lfld PHB_QUAD_CPC fPHB_QUAD_CPC_CPC)

/-- Mean velocity over the last 16 count intervals, as an increment per sample (R83, R87): counts in the negative direction count
down, and motion that is not forward has velocity 0. DESIGN CHOICE (assumption 46): where fewer than 16 intervals are known, the mean
of those; 0 with none; rounded down. -/
def State.quadVelocity (s : State) : Nat :=
  let last := s.phase.qtimes.take 16
  match s.phase.qtimes, (s.phase.qtimes.drop 1).take 16 with
  | x :: _, o :: older =>
    let t0 := ((o :: older).getLast?.map (·.1)).getD x.1
    let net : Int := (last.take (older.length + 1)).foldl (fun a y => a + (if y.2 then 1 else -1)) 0
    if t0 < x.1 then 2 ^ 64 * net.toNat * unitT / (s.cpc * (x.1 - t0)) else 0
  | _, _ => 0

/-- Mean increment of the 16 cycles of the reference that ended at the newest of some events (R87). DESIGN CHOICE (assumption 46): R87
speaks of 16 cycles only; with fewer known it is the mean of those, and none with no cycle known. -/
def meanOf (events : List RefEvent) : Option Nat :=
  match events with
  | [] => none
  | e :: es =>
    match (es.take 16).getLast? with
    | some e0 => if e0.time < e.time then some ((e.phase + 2 ^ 96 - e0.phase) % 2 ^ 96 * unitT / (e.time - e0.time)) else none
    | none => none

/-- The increment of a HOLDOVER of a periodic reference: the mean of the 16 cycles that ended at the last accepted event (R87). DESIGN
CHOICE (assumption 46): the held increment where no cycle is known. -/
def State.meanIncrement (s : State) : Nat := s.phase.mean.getD s.phase.held

/-- Enter HOLDOVER (R85, R87): the first tick in it is the coming one. -/
def State.enterHoldover (s : State) (inc : Nat) : State :=
  let s1 := (s.unlock.setPhState phHoldover).updPhase (fun p => { p with held := min inc (2 ^ 64 / 20), offsetLeft := 0,
                                                                         track := none, validCount := 0 })
  let s2 := (s1.phbEvent fPHB_STAT_LOSS).incSat PHB_EVENT_CNT fPHB_EVENT_CNT_LOSSES
  (s2.wr64 PHB_HOLD_STAMP_LO s.nextStamp).logEv 5 8 1 PHB_STAT (s2.rd PHB_STAT).toNat 0

/-- Set the QUAD position origin so that the present phase equals the present position (R83, R89, R91). DESIGN CHOICE (assumption
46): PHB_QUAD_POS keeps its count here; entry to QUAD mode zeroes it. -/
def State.quadOrigin (s : State) : State :=
  s.updPhase (fun p => { p with qorgPos := p.qpos, qhigh := p.qpos, qback := false, qorgP := p.next })

/-- Enter ACQUIRE. DESIGN CHOICE (assumption 46): R90 and Table 03-3 do not say what the held increment is there; it is the increment of
the present period, with whatever temporary offset that period has. -/
def State.enterAcquire (s : State) : State :=
  (s.unlock.setPhState phAcquire).updPhase (fun p => { p with lockCount := 0, rejectCount := 0, validCount := 0, held := p.delta,
                                                              offsetLeft := 0, track := none })

/-- Enter the state that Table 03-3 gives for the live MODE, at the coming tick, with nothing known of the reference (R85, R91,
R339). -/
def State.enterMode (s : State) : State :=
  if s.phMode = 0 then (s.unlock.setPhState phFree).refPresent false
  else
    let s1 := (s.enterAcquire.refPresent false).updPhase (fun p => { p with
      entered := (s.tick + 1) * unitT, lastEvent := none, interval := none, events := [], mean := none, index := []
      low := false, cross := none, ready := none, peakNow := 0, qtimes := [], qpos := 0, qhigh := 0, qback := false })
    if s.phMode = 3 then s1.quadOrigin.wr PHB_QUAD_POS 0 else s1

/-! ### Periodic references (R80, R81, R84 to R90) -/

/-- The sample of PHREF at the present tick (R80): a positive-going zero crossing, placed by interpolation to 2^-16 of a sample,
counts once the signal, after it was below -25 mV, is above +25 mV; the peak of the cycle is then held. DESIGN CHOICE (assumption 46):
the place is rounded to the nearest 2^-16 sample, half up, and of several crossings before the signal is above +25 mV the last counts. -/
def State.phrefTick (s : State) (x : Int) : State :=
  if s.phMode != 1 || s.chained then s.updPhase (fun p => { p with sample := x })
  else
    let ph := s.phase
    let crossed := ph.sample < 0 && 0 ≤ x
    let f := ((-ph.sample * 65536 * 2 + (x - ph.sample)) / (2 * (x - ph.sample))).toNat
    let here : RefEvent := { time := (s.tick - 1) * unitT + f * (unitT / 65536)
                             phase := (ph.pPrev + (ph.p + 2 ^ 96 - ph.pPrev) % 2 ^ 96 * f / 65536) % 2 ^ 96 }
    let cross := if crossed then some here else ph.cross
    let top : Int := max ph.peakNow x.natAbs
    let counts := ph.low && 25000 < x && cross.isSome
    s.updPhase (fun p => { p with
      sample := x
      low := if counts then false else ph.low || decide (x < -25000)
      cross := if counts then none else cross
      ready := if counts then cross else ph.ready
      peak := if counts then top else ph.peak
      peakNow := if counts then 0 else top })

/-- The held peak of the last cycle is below PHB_REF_CFG.SINE_LEVEL, in steps of 10 mV (R86). DESIGN CHOICE (assumption 46): R86 does not
say what the held peak is before SINE mode has seen a whole cycle. It is the one last held, 0 after reset, until the first counted
crossing; there it is the peak since the entry, be that less than a cycle. Either may count as a loss. -/
def State.sineLow (s : State) : Bool := s.phase.peak < 10000 * (s.fld PHB_REF_CFG fPHB_REF_CFG_SINE_LEVEL : Int)

/-- The phase error of an event: the fraction of P there, wrapped into (-1/2, 1/2] cycle, in units of 2^-64 cycle. -/
def phaseError (p : Nat) : Int :=
  let f : Nat := p % 2 ^ 64
  if f ≤ 2 ^ 63 then (f : Int) else (f : Int) - 2 ^ 64

/-- Bandwidth of a code in microhertz (Table 03-2). -/
def bwTable (code : Nat) : Nat := [100000, 500000, 1000000, 2000000, 5000000, 20000000, 100000000, 500000000].getD code 0

/-- The loop's bandwidth in microhertz: the table's or one tenth of the measured reference frequency, the lesser (R84). -/
def State.bandwidth (s : State) (interval : Option Nat) : Nat :=
  let b := bwTable (s.lfld PHB_CTL fPHB_CTL_BW)
  match interval with
  | some i => if i = 0 then b else min b (200000000000 * unitT / i)
  | none => b

/-- The frequency of two events so far apart lies in the range of the mode (Table 03-1). -/
def State.inRange (s : State) (interval : Option Nat) : Bool :=
  match interval with
  | none => true
  | some i => if s.phMode = 1 then decide (15 * i ≤ 2000000 * unitT) && decide (2000000 * unitT ≤ 450 * i)
    else decide (i ≤ 20000000 * unitT) && decide (20 * unitT ≤ i)

/-- An accepted event: the loop's corrections, PHB_PERR. DESIGN CHOICE (assumption 46): Δ of the coming period is fixed by cycle 24 of the
present one (R73, R338), so that the corrections act from the period after the coming one. -/
def State.acceptEvent (s : State) (p : Nat) (interval : Option Nat) : State :=
  let e := phaseError p
  let bw := s.bandwidth interval
  let cycle := interval.getD 0
  let held : Int := (s.phase.held : Int) + Config.trackIntegral e s.phase.held bw cycle
  let off := Config.trackProportional e s.phase.held bw cycle
  (s.updPhase (fun x => { x with track := some (min held.toNat (2 ^ 64 / 20), off, cycle / unitT) })).wr PHB_PERR
    (wordOf (rhe64 e))
where
  /-- An error in units of 2^-32 cycle. DESIGN CHOICE (assumption 46): rounded to nearest, half up, and modulo 2^32 cycle parts, so
  that +1/2 cycle reads 0x80000000. -/
  rhe64 (e : Int) : Int := (e + 2 ^ 31) / 2 ^ 32

/-- A reference event at instant t, where the phase is p (R84, R85, R88, R90). -/
def State.reference (s : State) (t p : Nat) : State :=
  let e := phaseError p
  let interval := s.phase.lastEvent.map (t - ·)
  let note (ok : Bool) : State :=
    let es := ((⟨t, p, ok⟩ : RefEvent) :: s.phase.events).take 17
    (s.refPresent true).updPhase (fun x => { x with
      lastEvent := some t, interval, events := es, mean := if ok then meanOf es else x.mean })
  if s.phState = phHoldover then
    let valid := match interval with
      | some i => decide (((i * s.phase.held / unitT : Nat) - 2 ^ 64 : Int).natAbs ≤ 2 ^ 61)
      | none => false
    let c := if valid then s.phase.validCount + 1 else 0
    if 16 ≤ c then (note false).enterAcquire else (note false).updPhase (fun x => { x with validCount := c })
  else if s.phMode = 1 && s.sineLow then (note false).enterHoldover s.meanIncrement
  else if s.phState = phLocked && 2 ^ (61 - s.fld PHB_REF_CFG fPHB_REF_CFG_WIN) < e.natAbs then
    let s1 := ((note false).phbEvent fPHB_STAT_REJECT).incSat PHB_EVENT_CNT fPHB_EVENT_CNT_REJECTED
    if 4 ≤ s.phase.rejectCount + 1 then s1.enterAcquire else s1.updPhase (fun x => { x with rejectCount := x.rejectCount + 1 })
  else
    let s1 := ((note true).acceptEvent p interval).updPhase (fun x => { x with rejectCount := 0 })
    if s.phState = phAcquire then
      let c := if e.natAbs ≤ 2 ^ 50 && s.inRange interval then s.phase.lockCount + 1 else 0
      let s2 := s1.updPhase (fun x => { x with lockCount := c })
      if 16 ≤ c then s2.setPhState phLocked else s2
    else s1

/-- REFERENCE_EVENT (R80, R81, R84): in SINE mode the crossing that the samples have shown; in periodic PULSE mode an edge of the
selected kind at core clock cycle `cyc` of the present period. -/
def execReferenceEvent (rising : Bool) (cyc : Nat) (s : State) : Out :=
  if !s.phPeriodic || s.chained then .next s
  else if s.phMode = 1 then
    match s.phase.ready with
    | some x => .next ((s.updPhase (fun p => { p with ready := none })).reference x.time x.phase)
    | none => .next s
  else if !s.edgeTaken rising then .next s
  else .next (s.reference (s.instant cyc) ((s.phase.p + s.phase.delta * (cyc % 400) / 400) % 2 ^ 96))

/-- A quadrature fault (R83, R86, R89). -/
def State.quadFault (s : State) : State :=
  let s1 := (s.phbEvent fPHB_STAT_QFAULT).updPhase (fun p => { p with validCount := 0 })
  if s.phState = phAcquire || s.phState = phLocked then
    s1.enterHoldover (if s.lbit PHB_CTL fPHB_CTL_QHOLD then s.quadVelocity else 0)
  else s1

/-- REF_LOSS (R86, R87). DESIGN CHOICE (assumption 46): R86 does not say what the expected cycle is before events have been measured; it is
the cycle of the held increment, which on entry to ACQUIRE is the increment then in force, and the time runs from that entry. -/
def execRefLoss (cause : LossCause) (s : State) : Out :=
  let active := !s.chained && (s.phState = phAcquire || s.phState = phLocked)
  match cause with
  | .missing =>
    let since := (s.tick + 1) * unitT - max s.phase.entered (s.phase.lastEvent.getD 0)
    if s.phPeriodic && !s.chained && 3 * 2 ^ 63 * unitT ≤ since * s.phase.held then
      let s1 := s.refPresent false
      .next (if active then s1.enterHoldover s1.meanIncrement else s1)
    else if s.phIndex && 3 * 2 ^ 63 * unitT ≤ since * s.freeInc then .next (s.refPresent false)
    else .next s
  | .amplitude => .next (if s.phMode = 1 && active && s.sineLow then s.enterHoldover s.meanIncrement else s)
  | .quadrature => .next (if s.phMode = 3 && !s.chained then s.quadFault else s)

/-! ### Index pulses and encoder counts (R82, R83, R89) -/

/-- INDEX_PULSE (R82): a pulse whose selected edge falls in the present period takes effect at tick k+2, and there the phase base leaves
ACQUIRE. -/
def execIndexPulse (e : Edge) (s : State) : Out :=
  if !s.phIndex || s.chained || !s.edgeTaken e.rising then .next s
  else
    let t := s.instant e.cyc
    .next ((s.updPhase (fun p => { p with index := p.index ++ [(s.tick + 2, t)], lastEvent := some t })).refPresent true)

/-- A valid count at instant t, positive or not (R83, R89); `slow`: at most 5 million transitions a second (Table 03-1). DESIGN CHOICE
(assumption 46): R86 defines REF_PRESENT in INDEX operation and FREE only and the register's 'input levels valid' names no instant; in
QUAD it reads 1 from the first valid count after the entry on, a quadrature fault does not clear it, and in CHAIN it keeps its value. -/
def State.quadStep (s : State) (up slow : Bool) (t : Nat) : State :=
  let pos := s.phase.qpos + (if up then 1 else -1)
  let s1 := (s.updPhase (fun p => { p with
    qpos := pos, qhigh := max p.qhigh pos, qback := if pos < p.qhigh then true else if p.qhigh < pos then false else p.qback
    qtimes := ((t, up) :: p.qtimes).take 17 })).refPresent true
  let s2 := (if up then s1 else s1.phbEvent fPHB_STAT_REVERSE).wr PHB_QUAD_POS (wordOf pos)
  if s.phState = phAcquire then (if slow then s2.setPhState phLocked else s2)
  else if s.phState = phHoldover then
    if 16 ≤ s.phase.validCount + 1 then s2.quadOrigin.enterAcquire
    else s2.updPhase (fun p => { p with validCount := p.validCount + 1 })
  else s2

/-- QUAD_COUNT (R83, R89): tracks A and B take new levels. A legal quadrature step at least 25 ns (20 core clock cycles) after the
transition before is a count, forward where A leads B; any other change is a quadrature fault. The levels are followed in every
mode. DESIGN CHOICE (assumption 46): R83 names as a fault only a change of both tracks within 25 ns; a second transition of the same
track in less than 25 ns, which R89 does not count as valid, is taken as one too. -/
def execQuadCount (a b : Bool) (cyc : Nat) (s : State) : Out :=
  let ph := s.phase
  let t := s.instant cyc
  if a == ph.qa && b == ph.qb then .next s
  else
    let s0 := s.updPhase (fun p => { p with qa := a, qb := b, qlast := some t })
    let apart (n : Nat) : Bool := match ph.qlast with | some l => decide (l + n * cycT ≤ t) | none => true
    let one := (a != ph.qa) != (b != ph.qb)
    let forward := (a != ph.qa) == (a != b)
    if s.phMode != 3 || s.chained then .next s0
    else if one && apart 20 then .next (s0.quadStep (forward != s.lbit PHB_CTL fPHB_CTL_QDIR) (apart 160) t)
    else .next s0.quadFault

/-! ### The increment of a period (R72 to R74, R92) -/

/-- Largest increment (R74). -/
def maxInc : Nat := 2 ^ 64 / 20

/-- Clamp an increment to within 1/16 of the measured reference rate (ACQUIRE, Table 03-3). DESIGN CHOICE (assumption 46): that rate
is one cycle in the time between the last two reference events; with fewer than two events nothing is measured. -/
def State.acquireClamp (s : State) (inc : Nat) : Nat :=
  match s.phase.interval with
  | some i =>
    if i = 0 then inc
    else
      let rate := 2 ^ 64 * unitT / i
      max (rate * 15 / 16) (min inc (rate * 17 / 16))
  | none => inc

/-- How far phase x lies ahead of phase p, modulo 2^96; 0 where it lies behind. -/
def aheadOf (x p : Nat) : Nat :=
  let d := (x + 2 ^ 96 - p % 2 ^ 96) % 2 ^ 96
  if d < 2 ^ 95 then d else 0

/-- Δ of the period that begins at the present tick, whose P is in place; the Bool says that the phase is held (CLAMP). DESIGN CHOICE
(assumption 46): R83 does not say how fast P follows a highest position that is ahead of it; P takes the whole difference in one period,
within the bound of R74. -/
def State.increment (s : State) : Nat × Bool :=
  let ph := s.phase
  let st := s.phState
  if st = phChain then
    match ph.chainNext with
    | some m => (min maxInc (aheadOf m ph.p), false)
    | none => (ph.delta, false)
  else if st = phHoldover then (ph.held, false)
  else if s.phMode = 0 then (s.freeInc, false)
  else if s.phPeriodic then
    let off : Int := if ph.offsetLeft = 0 then 0 else ph.offset
    let inc := min maxInc ((ph.held : Int) + off).toNat
    (if st = phAcquire then min maxInc (s.acquireClamp inc) else inc, false)
  else if s.phMode = 2 then
    let room := (2 ^ 32 - 1) * 2 ^ 32 - ph.p % 2 ^ 64
    (min s.freeInc room, room = 0)
  else if ph.qback then (0, false)
  else
    let at_ (k : Int) : Nat := ph.qorgP + k.toNat * 2 ^ 64 / s.cpc
    let room := aheadOf (at_ (ph.qhigh - ph.qorgPos + 1) % 2 ^ 96) ph.p
    let want := max (aheadOf (at_ (ph.qhigh - ph.qorgPos) % 2 ^ 96) ph.p) s.quadVelocity
    (min maxInc (min want room), room = 0 && s.quadVelocity != 0)

/-- In INDEX operation: pulses that take effect at the present tick end ACQUIRE; a pulse is present for 1.5 cycles at
PHB_FREE_INC (Table 03-3, R86). -/
def State.indexTick (s : State) (pulse : Bool) : State :=
  if !s.phIndex || s.chained then s
  else
    let fresh := match s.phase.lastEvent with
      | some t => decide (2 * (s.tick * unitT - t) * s.freeInc < 3 * 2 ^ 64 * unitT)
      | none => false
    let s1 := s.refPresent fresh
    if pulse && s.phState == phAcquire then s1.setPhState phLocked else s1

/-- P of the coming tick through the pulses that take effect there (R82): the next cycle, and the phase covered from the edge on at
PHB_FREE_INC. DESIGN CHOICE (assumption 46): that phase is rounded to the nearest 2^-64 cycle, half up. -/
def State.indexP (s : State) (pulses : List (Nat × Nat)) : Nat :=
  match pulses.getLast? with
  | some (j, edge) =>
    ((s.phase.p / 2 ^ 64 + pulses.length) * 2 ^ 64 + (2 * s.freeInc * (j * unitT - edge) + unitT) / (2 * unitT)) % 2 ^ 96
  | none => s.phase.p

/-- Fix Δ of the present period and P of the coming tick (R72, R73, R82). -/
def State.phaseFix (s : State) : State :=
  let (inc, clamp) := s.increment
  let pulses := if s.phIndex && !s.chained then s.phase.index.filter (fun x => x.1 == s.tick + 1) else []
  if pulses.isEmpty then
    let s1 := s.updPhase (fun x => { x with delta := inc, next := (x.p + inc) % 2 ^ 96, nextJump := false })
    if clamp then s1.phbEvent fPHB_STAT_CLAMP else s1
  else
    let q := s.indexP pulses
    let adv := (q + 2 ^ 96 - s.phase.p) % 2 ^ 96
    s.updPhase (fun x => { x with delta := if s.freeInc < adv then inc else adv, next := q, nextJump := decide (s.freeInc < adv) })

/-- What an event accepted in the period that ends leaves for the next one but one. -/
def PhaseSt.takeTrack (x : PhaseSt) : PhaseSt :=
  match x.track with
  | some (held, off, left) => { x with held := held, offset := off, offsetLeft := left, track := none }
  | none => x

/-- Advance the phase base to the coming tick: P, the stamp, Δ of the new period and with it the tick after (R72, R73, R82). -/
def State.phaseTick (s : State) : State :=
  let jump := s.nextIsJump
  let s1 := { s with tick := s.tick + 1, phase := { s.phase with
    p := s.phase.next, pPrev := s.phase.p, jump := if jump then some (s.phase.p, s.phase.next) else none
    index := s.phase.index.filter (fun x => s.tick + 1 < x.1), offsetLeft := s.phase.offsetLeft - 1 } }
  let s2 := (if jump then s1.phbEvent fPHB_STAT_SKIP else s1).indexTick (s.phase.index.any (fun x => x.1 == s.tick + 1))
  let s3 := s2.phaseFix.updPhase (fun x => { x with chainNext := none, deltas := (x.delta :: x.deltas).take 16 })
  if s3.phState = phAcquire || s3.phState = phLocked then s3.updPhase PhaseSt.takeTrack else s3.updPhase (fun x => { x with track := none })

/-- The effect of a hub commit on the phase base (R91, R92), given the live values before it. -/
def State.phaseCommit (s : State) (ctl cpc : Word) (oldInc : Nat) : State :=
  let new := s.lv PHB_CTL
  let inc := s.lv64 PHB_FREE_INC_LO
  let s0 := if inc = oldInc || boundInc inc = inc then s else s.raise PHB_STAT fPHB_STAT_INC_CLAMP
  if s.chained then s0
  else
    let mode := fPHB_CTL_MODE.get new
    let changed := fPHB_CTL_MODE.get ctl != mode || (mode == 2 && fPHB_CTL_INDEX.get ctl != fPHB_CTL_INDEX.get new)
    if changed then s0.enterMode
    else if mode = 3 && (fPHB_CTL_QDIR.get ctl != fPHB_CTL_QDIR.get new || cpc != s.lv PHB_QUAD_CPC) then s0.quadOrigin
    else s0

end Sys2Proof.Machine
end

