-- ==== Sys2Proof/Machine/Struct.lean ====
section
/-!
DEFINITION. Structure images: reading a structure bank, the descriptors of the active structure, CRC-32C, and the check of
a bank in the order of Table 02-11 (R42 to R57).
-/

namespace Sys2Proof.Machine

/-! ### CRC-32C (R43) -/

/-- One bit of the reflected CRC-32C. -/
def crcBit (c : Nat) : Nat := if c % 2 = 1 then (c / 2) ^^^ 0x82F63B78 else c / 2

/-- One byte. -/
def crcByte (c : Nat) (b : Byte) : Nat :=
  crcBit (crcBit (crcBit (crcBit (crcBit (crcBit (crcBit (crcBit (c ^^^ b.toNat))))))))

/-- CRC-32C of a byte string (R43). -/
def crc32c (bs : List Byte) : Nat := bs.foldl crcByte 0xFFFFFFFF ^^^ 0xFFFFFFFF

/-! ### Descriptors -/

/-- A channel descriptor (Table 02-6); slots as (KIND, SRC). -/
structure ChDesc where
  en : Bool := false
  dacMode : Bool := false
  ffRail : Bool := false
  ffSp2 : Bool := false
  modelEn : Bool := false
  aptEn : Bool := false
  auxEn : Bool := false
  aux : Nat := 0
  track : Nat := 0
  laneCycles : Nat := 0
  slots : List (Nat × Nat) := [(0, 0), (0, 0), (0, 0), (0, 0)]
  gang : Nat := 0xFF
  leader : Bool := false
  routeV : Nat := 0
  routeI : Nat := 0
  aptSrc : Nat := 0
  aptGang : Bool := false
deriving DecidableEq, Repr

/-- Bits [lo+w-1 : lo] of a number. -/
def bits (x lo w : Nat) : Nat := x / 2 ^ lo % 2 ^ w

/-- A descriptor from its five words (Table 02-6). -/
def ChDesc.ofWords (w0 w1 w2 w3 w4 : Nat) : ChDesc where
  en := w0.testBit 0
  dacMode := w0.testBit 1
  ffRail := w0.testBit 2
  ffSp2 := w0.testBit 3
  modelEn := w0.testBit 4
  aptEn := w0.testBit 5
  auxEn := w0.testBit 6
  aux := bits w0 8 4
  track := bits w0 16 5
  laneCycles := bits w0 24 8
  slots := (List.range 4).map (fun s => (bits w1 (8 * s) 2, bits w1 (8 * s + 2) 3))
  gang := bits w2 0 8
  leader := w2.testBit 8
  routeV := bits w3 0 4
  routeI := bits w3 8 4
  aptSrc := bits w4 0 5
  aptGang := w4.testBit 5

def ChDesc.kind (d : ChDesc) (s : Nat) : Nat := (d.slots.getD s (0, 0)).1
def ChDesc.src (d : ChDesc) (s : Nat) : Nat := (d.slots.getD s (0, 0)).2
/-- A slot is present (Table 02-7). -/
def ChDesc.present (d : ChDesc) (s : Nat) : Bool := d.en && d.kind s != 0
/-- The limiter slots present. -/
def ChDesc.limiters (d : ChDesc) : Nat := ([1, 2, 3].filter (fun s => d.kind s != 0)).length

/-- A gang table entry (Table 02-9). -/
structure GangEntry where
  id : Nat
  members : Nat
  dev : Nat
  leaderCh : Nat
  mask : Nat
  devMask : Nat
deriving DecidableEq, Repr

/-- BAR0 offset of structure bank A (0) or B (1) of cluster g (Table 01-8). -/
def bankBase (g b : Nat) : Nat := cluBase g + 0x100000 * (b + 1)

/-- Active bank of a cluster. -/
def State.activeBank (s : State) (g : Nat) : Nat := s.fld (CLU_BANK_STAT g) fCLU_BANK_STAT_ACTIVE
/-- Standby bank of a cluster. -/
def State.stbyBank (s : State) (g : Nat) : Nat := 1 - s.activeBank g
/-- Does the active bank hold a valid structure? -/
def State.activeValid (s : State) (g : Nat) : Bool := s.bit (CLU_BANK_STAT g) fCLU_BANK_STAT_ACTIVE_VALID

/-- A 32-bit word of a bank. -/
def State.bankWord (s : State) (g b off : Nat) : Nat := s.banks.readLE (bankBase g b + off) 4

/-- Descriptor of local channel `i` in a bank. -/
def State.bankDesc (s : State) (g b i : Nat) : ChDesc :=
  let w k := s.bankWord g b (0x80 + 64 * i + 4 * k)
  ChDesc.ofWords (w 0) (w 1) (w 2) (w 3) (w 4)

/-- Gang entry `e` of a bank. -/
def State.bankGang (s : State) (g b e : Nat) : GangEntry :=
  let w k := s.bankWord g b (0x880 + 16 * e + 4 * k)
  ⟨bits (w 0) 0 8, bits (w 0) 8 7, bits (w 0) 16 3, bits (w 0) 19 9, w 1, bits (w 2) 0 8⟩

/-- The descriptor of channel n in the active structure; disabled where no valid structure is active (R202). -/
def State.desc (s : State) (n : Nat) : ChDesc :=
  let g := n / 32
  if s.activeValid g then
    let d := s.bankDesc g (s.activeBank g) (n % 32)
    if d.en then d else {}
  else {}

/-- The gang entry of a gang in the active structure of cluster g. -/
def State.gangEntry (s : State) (g id : Nat) : Option GangEntry :=
  if s.activeValid g && id != 0xFF then
    ((List.range 32).map (s.bankGang g (s.activeBank g))).find? (fun e => e.id == id)
  else none

/-- A lane table entry of the active structure: owned, owner, input (Table 02-10). -/
def State.laneEntry (s : State) (l : Nat) : Bool × Nat × Bool :=
  let g := l / 8
  if s.activeValid g then
    let w := s.bankWord g (s.activeBank g) (0xA80 + 8 * (l % 8))
    (w.testBit 0, bits w 1 5, w.testBit 6)
  else (false, 0, false)

/-- WELT_EN bit of a quad in the active structure (Table 02-5). -/
def State.weltEn (s : State) (q : Nat) : Bool :=
  let g := q / 8
  s.activeValid g && (s.bankWord g (s.activeBank g) 0x24).testBit (q % 8)

/-- Chain position of the device (chapter 16). -/
def State.devPos (s : State) : Nat := s.fld SKL_STAT fSKL_STAT_POS

/-! ### Validation (R56, Table 02-11) -/

/-- Outcome of a check: code, offset of the failing word, local channel. -/
structure Verdict where
  code : Nat
  off : Nat := 0
  chan : Nat := 0
deriving DecidableEq, Repr

/-- The first failure of a list of checks. -/
def firstBad {α : Type} (xs : List α) (f : α → Option Verdict) : Option Verdict := xs.findSome? f

/-- Declared lane-cycles a descriptor must carry (R51, Table 02-8). -/
def ChDesc.cost (d : ChDesc) : Nat :=
  if d.en then 18 + 12 + 8 * d.limiters + (if d.ffRail || d.ffSp2 then 4 else 0) + (if d.modelEn then 6 else 0) else 0

/-- Reserved bits of the word at a bank offset below 0x1000 (Tables 02-4 to 02-10). -/
def reservedMask (off : Nat) : Nat :=
  if off < 0x80 then
    if off = 4 || off = 0x14 then 0xFFFF0000
    else if off = 0x24 then 0xFFFFFF00
    else if 0x28 ≤ off then 0xFFFFFFFF else 0
  else if off < 0x880 then
    let k := (off - 0x80) % 64 / 4
    if k = 0 then 0x00E0F080 else if k = 1 then 0xE0E0E0E0 else if k = 2 then 0xFFFFFE00
    else if k = 3 then 0xFFFFF0F0 else if k = 4 then 0xFFFFFFC0 else 0xFFFFFFFF
  else if off < 0xA80 then
    let k := (off - 0x880) % 16 / 4
    if k = 0 then 0xF0008000 else if k = 2 then 0xFFFFFF00 else if k = 3 then 0xFFFFFFFF else 0
  else if off < 0xAC0 then (if off % 8 = 0 then 0xFFFFFF80 else 0xFFFFFFFF)
  else 0xFFFFFFFF

/-- Is a reserved field of the word at `off` nonzero (Table 02-11, RESERVED)? A nonzero field of an unused gang entry counts as one: R52
wants it 0 and names no code (DESIGN CHOICE, assumption 47). -/
def State.reservedBad (s : State) (g b off : Nat) : Bool :=
  let w := s.bankWord g b off
  if w &&& reservedMask off != 0 then true
  else if 0x80 ≤ off && off < 0x880 then
    let d := s.bankDesc g b ((off - 0x80) / 64)
    if !d.en then w != 0
    else if (off - 0x80) % 64 = 4 then d.slots.any (fun x => x.1 == 0 && x.2 != 0) else false
  else if 0x880 ≤ off && off < 0xA80 then
    let e := s.bankGang g b ((off - 0x880) / 16)
    if e.id = 0xFF then (if (off - 0x880) % 16 = 0 then w != 0xFF else w != 0) else false
  else false

/-- Does a slot of an enabled descriptor break R50 (SLOT)? -/
def slotBad (s k src : Nat) : Bool :=
  if s = 0 then k != 1 || 1 < src else k == 1 || (k != 0 && 5 ≤ src)

/-- The check of the section in bank `b` of cluster `g` (Table 02-11). Where several conditions of one code fail, the order in which they
are tried, and the word reported where R52 names none, are choices (DESIGN CHOICE, assumption 47): CH_EN_MASK before the slots; the
gang fields of the descriptors before the gang entries, and in an entry GANG_ID, MEMBERS, LEADER_CH, then LOCAL_MASK; words and
channels ascending; a descriptor's word is the one that holds the failing field. OWNER is checked only where OWNED is 1 (R53,
assumption 47). -/
def State.checkBank (s : State) (g b : Nat) : Verdict :=
  let w := s.bankWord g b
  let len := w 0x18
  let desc := s.bankDesc g b
  let chans := List.range 32
  let dOff (i k : Nat) : Nat := 0x80 + 64 * i + 4 * k
  let fail (c : Bool) (code off chan : Nat) : Option Verdict := if c then some ⟨code, off, chan⟩ else none
  let header : Option Verdict :=
    (fail (w 0 != 0x43535844) 0x10 0 0).or <|
    (fail (bits (w 4) 8 8 != 1 || bits (w 4) 0 8 != 0) 0x14 4 0).or <|
    (fail (w 8 != 0x5120) 0x12 8 0).or <|
    (fail (!(w 0xC).testBit Config.silicon) 0x13 0xC 0).or <|
    (fail (len % 64 != 0 || len < 0x1000 || 0x100000 < len) 0x15 0x18 0)
  match header with
  | some v => v
  | none =>
  let bytes := s.banks.readBytes (bankBase g b) len
  let zeroed := bytes.take 0x1C ++ [0, 0, 0, 0] ++ bytes.drop 0x20
  let enMask := (chans.filter (fun i => (desc i).en)).foldl (fun a i => a + 2 ^ i) 0
  let enabled (i : Nat) : Bool := (desc i).en
  let reserved := firstBad (List.range 0x400) (fun k => fail (s.reservedBad g b (4 * k)) 0x17 (4 * k)
    (if 0x80 ≤ 4 * k && 4 * k < 0x880 then (4 * k - 0x80) / 64 else 0))
  let slot := (fail (w 0x20 != enMask) 0x19 0x20 0).or <| firstBad chans (fun i =>
    fail ((desc i).en && (List.range 4).any (fun t => slotBad t ((desc i).kind t) ((desc i).src t))) 0x19 (dOff i 1) i)
  let budget := firstBad chans (fun i =>
    fail ((desc i).laneCycles != (desc i).cost || 64 < (desc i).laneCycles) 0x18 (dOff i 0) i)
  let binding := firstBad chans (fun i =>
    let d := desc i
    if !d.en then none else
    (fail (!enabled d.track) 0x1C (dOff i 0) i).or <|
    (fail (d.ffRail && !d.auxEn) 0x1C (dOff i 0) i).or <|
    (fail ([1, 2, 3].any (fun t => d.kind t != 0 && ((d.src t == 3 && !d.auxEn) || (d.src t == 4 && !d.leader))))
      0x1C (dOff i 1) i).or <|
    (fail (d.aptEn && (!enabled d.aptSrc || (d.aptGang && !d.leader))) 0x1C (dOff i 4) i))
  let entries := (List.range 32).map (fun e => (e, s.bankGang g b e))
  let used := entries.filter (fun e => e.2.id != 0xFF)
  let entryOf (id : Nat) := (used.find? (fun e => e.2.id == id)).map (·.2)
  let gangD := firstBad chans (fun i =>
    let d := desc i
    if !d.en then none
    else if d.gang = 0xFF then fail d.leader 0x1A (dOff i 2) i
    else match entryOf d.gang with
      | none => some ⟨0x1A, dOff i 2, i⟩
      | some e => fail (d.leader != (e.dev == s.devPos && e.leaderCh == 32 * g + i)) 0x1A (dOff i 2) i)
  let gangE := firstBad used (fun (k, e) =>
    let o := 0x880 + 16 * k
    let mask := (chans.filter (fun i => enabled i && (desc i).gang == e.id)).foldl (fun a i => a + 2 ^ i) 0
    (fail (used.any (fun x => x.1 < k && x.2.id == e.id)) 0x1A o 0).or <|
    (fail (e.members = 0 || 64 < e.members) 0x1A o 0).or <|
    (fail (e.dev == s.devPos && e.leaderCh / 32 == g && !mask.testBit (e.leaderCh % 32)) 0x1A o 0).or <|
    (fail (e.mask != mask) 0x1A (o + 4) 0))
  let lane := firstBad (List.range 8) (fun l =>
    let x := w (0xA80 + 8 * l)
    fail (x.testBit 0 && !enabled (bits x 1 5)) 0x1B (0xA80 + 8 * l) 0)
  ((fail (crc32c zeroed != w 0x1C) 0x11 0x1C 0).or <|
   (fail (!(w 0x14).testBit g) 0x16 0x14 0).or <|
   reserved.or <| slot.or <| budget.or <| binding.or <| gangD.or <| gangE.or lane).getD ⟨1, 0, 0⟩

end Sys2Proof.Machine
end

