-- ==== Sys2Proof/Machine/Arith.lean ====
section
/-!
DEFINITION. Loop arithmetic (chapters 04, 05, 06): number formats, rounding, stage exponents, the slew limiter, the slot law,
the selector, the load model, scale ratios, and the conversion of a drive to a code. Exact values are integers in units of
2^-128 of full scale.
-/

namespace Sys2Proof.Machine

/-! ### Formats and rounding -/

/-- 1.0 in exact units. -/
def one : Int := 2 ^ 128
/-- A quantity in the units of R13 (2^-30) as an exact value. -/
def ofQ (x : Int) : Int := x * 2 ^ 98

/-- Round x / d to nearest, ties to even. -/
def rhe (x : Int) (d : Nat) : Int :=
  let q := x / (d : Int)
  let r := x % (d : Int)
  if 2 * r < d then q else if (d : Int) < 2 * r then q + 1 else if q % 2 = 0 then q else q + 1

/-- Round x / d to nearest, ties away from zero. -/
def rha (x : Int) (d : Nat) : Int :=
  let m : Nat := (2 * x.natAbs + d) / (2 * d)
  if x < 0 then -(m : Int) else m

/-- An exact value in the units of R13, rounded to nearest and saturated (register reports). -/
def toQ (x : Int) : Int := sat32 (rhe x (2 ^ 98))

/-- A coefficient word (R106) as an exact value: mantissa × 2^(exponent - 23). -/
def coefVal (w : Word) : Int :=
  let e := signed 6 (w.toNat / 2 ^ 24)
  signed 24 w.toNat * 2 ^ (105 + e).toNat

/-- The product of two exact values. -/
def mulX (a b : Int) : Int := a * b / 2 ^ 128

/-- An exact nonnegative value in the coefficient format (R106): the smallest exponent whose rounded mantissa fits,
saturating at the largest value; the word of 0 is 0. -/
def toCoef (x : Int) : Word :=
  if x = 0 then 0 else
  let fits (e : Int) : Bool :=
    let m := rhe x (2 ^ (105 + e).toNat)
    m ≤ 0x7FFFFF && -0x800000 ≤ m
  match ((List.range 64).map (fun (k : Nat) => (k : Int) - 32)).find? fits with
  | some e => BitVec.ofNat 32 ((rhe x (2 ^ (105 + e).toNat) % 2 ^ 24).toNat + ((e % 64).toNat) * 2 ^ 24)
  | none => if x < 0 then 0x1F800000 else 0x1F7FFFFF

/-! ### Stages (R104, R105, R108, R111) -/

/-- The three kinds of stage bound and field (Table 04-4). -/
inductive StageKind where
  | wide | integ | unit
deriving DecidableEq, Repr

/-- Mantissa bits of a stage's field. -/
def StageKind.bits : StageKind → Nat
  | .integ => 31
  | _ => 23
/-- Largest exponent of a stage. -/
def StageKind.top : StageKind → Int
  | .unit => 0
  | _ => 1

/-- Clamp to the stage's bound: error and proportional -2 to 2 - 2^-22, output and drive -1 to 1 - 2^-23. -/
def StageKind.clamp (k : StageKind) (x : Int) : Int :=
  match k with
  | .wide => clampI (-2 * one) (2 * one - one / 2 ^ 22) x
  | .integ => clampI (-2 * one) (2 * one - one / 2 ^ 30) x
  | .unit => clampI (-one) (one - one / 2 ^ 23) x

/-- Weight of one field step at exponent `e`. -/
def StageKind.weight (k : StageKind) (e : Int) : Nat := 2 ^ (128 - k.bits + e).toNat

/-- Does an element fit its field at exponent `e` (R108)? -/
def StageKind.fits (k : StageKind) (e : Int) (x : Int) : Bool :=
  let m := rhe x (k.weight e)
  m ≤ 2 ^ k.bits - 1 && -2 ^ k.bits ≤ m

/-- The stage exponent of a list of clamped elements (R108). -/
def StageKind.exponent (k : StageKind) (xs : List Int) : Int :=
  let ys := xs.filter (· != 0)
  (((List.range 34).map (fun (j : Nat) => (j : Int) - 32)).find? (fun e => ys.all (k.fits e))).getD k.top

/-- An element rounded to its field at exponent `e`. -/
def StageKind.round (k : StageKind) (e : Int) (x : Int) : Int := rhe x (k.weight e) * k.weight e

/-- The exponent used where the two networks may disagree (R109). -/
def StageKind.exponentWith (k : StageKind) (xs : List Int) (fault : Option Int) : Int :=
  let e := k.exponent xs
  match fault with
  | none => e
  | some f => if e < f then min f k.top else e

/-! ### Drive and code (R110, R201) -/

/-- The code of a drive: nearest step of 2^-19, ties to even, never wrapping. -/
def codeOf (d : Int) : Nat := (clampI 0 0xFFFFF (rhe d (2 ^ 109) + 0x80000)).toNat
/-- The drive of a code. -/
def driveOf (c : Nat) : Int := ((c : Int) - 0x80000) * 2 ^ 109

/-! ### Slew limiter (R130) -/

/-- Braking distance of a step x (R130). -/
def brake (x acc : Int) : Int :=
  if x ≤ 0 then 0 else
    let n := (x + acc - 1) / acc
    n * x - acc * (n * (n - 1) / 2)

/-- The largest x in [lo, hi] with x ≤ dist and B(x) ≤ dist, by bisection over `fuel` halvings; lo if none. -/
def brakeMax (acc dist : Int) : Nat → Int → Int → Int
  | 0, lo, _ => lo
  | n + 1, lo, hi =>
    if hi ≤ lo then lo else
      let mid := (lo + hi + 1) / 2
      if mid ≤ dist && brake mid acc ≤ dist then brakeMax acc dist n mid hi else brakeMax acc dist n lo (mid - 1)

/-- One step vn of the limiter towards a distance (R130). -/
def slewStep (rate acc v dist : Int) : Int :=
  if rate = 0 then dist
  else if acc = 0 then clampI (-rate) rate dist
  else
    let lo := max (v - acc) (-rate)
    let hi := min (v + acc) rate
    if 0 ≤ dist then brakeMax acc dist 40 lo hi else -(brakeMax acc (-dist) 40 (-hi) (-lo))

/-! ### Selector (R125) -/

/-- The selector's outcome: drive, CTRL, conflict, drive clamped by the window. -/
structure Selected where
  d : Int
  ctrl : Nat
  conflict : Bool
  window : Bool
deriving DecidableEq, Repr

/-- The strictest proposal among limiter slots of a kind, the lowest slot on a tie. -/
def strictest (upper : Bool) (kinds : List Nat) (us : List Int) : Option (Int × Nat) :=
  [1, 2, 3].foldl (fun best s =>
    if kinds.getD s 0 = (if upper then 2 else 3) then
      let u := us.getD s 0
      match best with
      | none => some (u, s)
      | some (b, _) => if (if upper then decide (u < b) else decide (b < u)) then some (u, s) else best
    else best) none

/-- The selector of R125, for the slots' kinds and proposals and the drive window. -/
def select (kinds : List Nat) (us : List Int) (lo hi : Int) : Selected :=
  let fl := strictest false kinds us
  let ce := strictest true kinds us
  let u0 := us.getD 0 0
  let (d1, c1) := match fl with
    | some (x, t) => if u0 < x then (x, t) else (u0, 0)
    | none => (u0, 0)
  let (d2, c2) := match ce with
    | some (x, t) => if x < d1 then (x, t) else (d1, c1)
    | none => (d1, c1)
  let (d3, c3) := if d2 < lo then (lo, 5) else (d2, c2)
  let (d4, c4) := if hi < d3 then (hi, 4) else (d3, c3)
  let bounds := match fl, ce with
    | some (x, _), some (y, _) => decide (y < x)
    | _, _ => false
  ⟨d4, c4, bounds || decide (hi < lo), c4 == 4 || c4 == 5⟩

/-- A drive-window register rounded toward zero to a multiple of 2^-23 (R125). -/
def windowVal (w : Word) : Int :=
  let x := w.toInt
  let m : Int := (x.natAbs / 128 : Nat)
  ofQ ((if x < 0 then -m else m) * 128)

/-! ### Slot law (R122) -/

/-- One slot's computation in a period: exact clamped stages, which clamps acted, whether the integrator is at its bound (before its
rounding), whether the bound clamped a burden step, and the proposal as the selector judges it, before a burden step (R167). -/
structure SlotCalc where
  e : Int
  p : Int
  i : Int
  u : Int
  f : Int
  satE : Bool
  satP : Bool
  satI : Bool
  satU : Bool
  dirU : Int
  held : Bool
  tracked : Bool
  atBound : Bool := false
  burdenClamp : Bool := false
  judged : Int := 0
deriving DecidableEq, Repr

/-- The slot law of R122. `err` is r - y with the injection of NODE 1, `f` the feed-forward term, `xOut` the injection of
NODE 2; `track`, `hold` choose the integrator's rule (R126, R113); `pre` preloads it so that u equals `dApp` (R67, R103). -/
def slotLaw (kp ki ib err f xOut i0 dApp : Int) (track hold pre : Bool) : SlotCalc :=
  let e := StageKind.wide.clamp err
  let p0 := mulX kp e
  let p := StageKind.wide.clamp p0
  let i1 := if pre then dApp - p - f else if track then dApp - f else if hold then i0 else i0 + mulX ki e
  let i := clampI (-ib) ib i1
  let u0 := p + i + f + xOut
  let u := StageKind.unit.clamp u0
  { e, p, i, u, f, satE := e != err, satP := p != p0, satI := i != i1 && (pre || !track), satU := u != u0,
    dirU := if u < u0 then 1 else if u0 < u then -1 else 0, held := hold && !track && !pre, tracked := track && !pre
    atBound := (pre || !track) && (i == ib || i == -ib), judged := u }

/-- A burden step moves a slot's integrator and with it the slot's proposal; each stays within its bound (R167, R111). -/
def SlotCalc.burden (c : SlotCalc) (ib step : Int) : SlotCalc :=
  if step = 0 then c
  else
    let i := clampI (-ib) ib (c.i + step)
    let u := StageKind.unit.clamp (c.u + step)
    { c with i, u, satI := c.satI || i != c.i + step, satU := c.satU || u != c.u + step, burdenClamp := i != c.i + step
             dirU := if c.dirU != 0 then c.dirU else if u < c.u + step then 1 else if c.u + step < u then -1 else 0
             atBound := !c.tracked && (i == ib || i == -ib) }

/-- IBOUND as it acts (Table 05-2, R124). -/
def ibound (w : Word) : Int :=
  let x := (coefVal w).natAbs
  if x = 0 || 2 ^ 129 ≤ x then 2 * one - one / 2 ^ 30 else x

/-! ### Load model (R145) -/

/-- 1/n to a relative accuracy of 2^-16 (R145): an open value inside that bound. n and the result are exact values. -/
def recipN (n : Int) : Int :=
  let exact := (one * one) / n
  clampI (exact - exact / 2 ^ 16) (exact + exact / 2 ^ 16) (Config.recip n.toNat)

/-- The model's update of one estimate: max(0, x + MU rho y / n), MU = 2^-mu. -/
def modelStep (x rho y n : Int) (mu : Nat) : Int := max 0 (x + mulX (mulX rho y) (recipN n) / 2 ^ mu)

/-! ### Scale ratios (R160) -/

/-- A scale register as (mantissa, decimal exponent). -/
def scaleOf (w : Word) : Nat × Int := (w.toNat % 2 ^ 24, signed 8 (w.toNat / 2 ^ 24))

/-- The exact ratio of two full scales as (numerator, denominator); 1 where either is 0 (R160). -/
def ratio (a b : Word) : Nat × Nat :=
  let (ma, ea) := scaleOf a
  let (mb, eb) := scaleOf b
  if ma = 0 || mb = 0 then (1, 1) else
    (ma * 10 ^ (ea - eb).toNat, mb * 10 ^ (eb - ea).toNat)

/-- A ratio has a full scale of 0. -/
def ratioBad (a b : Word) : Bool := (scaleOf a).1 = 0 || (scaleOf b).1 = 0

/-- A value times a ratio, exact values floored at their resolution. -/
def scaleX (x : Int) (q : Nat × Nat) : Int := x * q.1 / q.2

/-- A range-relative 32-bit value times a ratio, to nearest, ties away from zero, saturated (R168); and whether it saturated. -/
def rescale (x : Int) (q : Nat × Nat) : Int × Bool :=
  let y := rha (x * q.1) q.2
  (sat32 y, sat32 y != y)

end Sys2Proof.Machine
end

