-- ==== Sys2Proof/Machine/Seq.lean ====
section
/-!
DEFINITION. Sequencer tracks (chapter 11): descriptors and their checks, the sample of each tick, jumps and loops, under-run,
and the meanings of the track commands and events. A sample for tick j+1 is computed in period j (R232).
-/

namespace Sys2Proof.Machine

/-! ### Track state register -/

/-- SEQ_STAT.STATE codes (Table 11-4). -/
def trStopped : Nat := 0
def trArming : Nat := 1
def trReady : Nat := 2
def trPlaying : Nat := 3
def trWaiting : Nat := 4
def trUnderrun : Nat := 5
def trHeld : Nat := 6
def trFault : Nat := 7

def State.trState (s : State) (n : Nat) : Nat := s.fld (SEQ_STAT n) fSEQ_STAT_STATE
def State.setTrState (s : State) (n v : Nat) : State := s.setFld (SEQ_STAT n) fSEQ_STAT_STATE v
def State.trk (s : State) (n : Nat) : TrackSt := (s.chan n).trk
def State.setTrk (s : State) (n : Nat) (t : TrackSt) : State := s.updChan n (fun c => { c with trk := t })
def State.updTrk (s : State) (n : Nat) (f : TrackSt → TrackSt) : State := s.setTrk n (f (s.trk n))

/-! ### Descriptors (R228 to R231, Table 11-3) -/

/-- Word k of a descriptor. -/
def segWord (ws : List Nat) (k : Nat) : Nat := ws.getD k 0

/-- The lowest code of Table 11-3 that applies to a descriptor in a table of `len` entries; 0 if none. -/
def segCheck (len : Nat) (ws : List Nat) : Nat :=
  let w := segWord ws
  let kind := bits (w 0) 0 2
  let data := kind == 0
  let tone := kind == 3
  let interp := (w 0).testBit 2
  let rp := (w 0).testBit 3
  let mk := (w 0).testBit 4
  let wait := (w 0).testBit 5
  let n := bits (w 1) 0 24
  let bad1 := (!data && (interp || rp || mk)) || (!tone && (w 0).testBit 6) || (tone && wait)
  let bad2 := n % 64 != 0 || n < 256
  let bad3 := data && ((w 2) % 64 != 0 || 2 ^ 32 < w 2 + 4 * n || (mk && ((w 3) % 64 != 0 || 2 ^ 32 < w 3 + n / 2)))
  let bad4 := data && interp && (w 4 == 0 || (!rp && 0x10000 < w 4))
  let next := bits (w 6) 0 12
  let bad5 := (next != 0xFFF && len ≤ next) || (bits (w 0) 12 4 != 0 && len ≤ bits (w 6) 16 12) ||
    (bits (w 7) 16 16 != 0 && len ≤ bits (w 7) 0 12)
  let bad6 := 9 ≤ bits (w 0) 12 4
  let bad7 := bits (w 0) 26 6 != 0 || bits (w 6) 12 4 != 0 || bits (w 6) 28 4 != 0 || bits (w 7) 12 4 != 0 ||
    (if data then (!mk && w 3 != 0) || (!interp && (w 4 != 0 || rp))
     else if kind = 1 then w 3 != 0 || w 4 != 0
     else kind = 2 && w 4 != 0)
  if bad1 then 1 else if bad2 then 2 else if bad3 then 3 else if bad4 then 4 else if bad5 then 5 else if bad6 then 6
  else if bad7 then 7 else 0

/-- A descriptor from its eight words (Table 11-1). -/
def segOf (len idx : Nat) (ws : List Nat) : Seg :=
  let w := segWord ws
  { idx, code := segCheck len ws, kind := bits (w 0) 0 2, interp := (w 0).testBit 2, ratePhase := (w 0).testBit 3,
    mkrEn := (w 0).testBit 4, wait := (w 0).testBit 5, cont := (w 0).testBit 6, trg := (w 0).testBit 7,
    mkrConst := bits (w 0) 8 4, cond := bits (w 0) 12 4, srcCh := bits (w 0) 16 5, sel := bits (w 0) 21 3,
    loopCtr := bits (w 0) 24 2, len := bits (w 1) 0 24, skip := bits (w 1) 24 8, a := w 2, b := w 3, c := w 4, d := w 5,
    next := bits (w 6) 0 12, target := bits (w 6) 16 12, loopTo := bits (w 7) 0 12, loopCount := bits (w 7) 16 16 }

/-- The stager reads granule k of a DATA segment: 64 setpoints, and marker nibbles where it has markers (R231, R245). -/
def State.granule (s : State) (g : Seg) (k : Nat) : Granule :=
  { addr := g.a, idx := k, words := (List.range 64).map (fun i => s.seqMem.readLE (g.a + 256 * k + 4 * i) 4)
    marks := if g.mkrEn then (List.range 64).map (fun i =>
        let b := (s.seqMem.read (g.b + 32 * k + i / 2)).toNat
        if i % 2 = 0 then b % 16 else b / 16) else [] }

/-- The stager reads entry `idx` of a track's table (R232), and stages the first samples of a DATA segment: its first granule (R244; how
many samples are staged is open: DESIGN CHOICE, assumption 53). -/
def State.readSeg (s : State) (t : TrackSt) (idx : Nat) : Seg :=
  let g := segOf t.len idx ((List.range 8).map (fun k => s.seqMem.readLE (t.base + 32 * idx + 4 * k) 4))
  { g with head := if g.kind = 0 && g.code = 0 then some (s.granule g 0) else none }

/-- Sequence memory serves the track of channel n (R31). -/
def State.seqUp (s : State) (n : Nat) : Bool := s.memUp (n / 128)

/-- The same, where sequence memory answers (R31). -/
def State.fetchSeg (s : State) (n : Nat) (t : TrackSt) (idx : Nat) : Option Seg := if s.seqUp n then some (s.readSeg t idx) else none

/-- Is an entry in the stream ring (R247)? -/
def TrackSt.inRing (t : TrackSt) (idx : Nat) : Bool := t.stream && t.first ≤ idx && idx ≤ t.last
/-- The entry after a ring entry. -/
def TrackSt.ringNext (t : TrackSt) (idx : Nat) : Nat := if idx = t.last then t.first else idx + 1
/-- A queued descriptor, read now where it is not among those queued; none where it is neither queued nor to be read (R31). -/
def State.queuedSeg (s : State) (n : Nat) (t : TrackSt) (idx : Nat) : Option Seg :=
  (t.queued.find? (fun q => q.idx == idx)).or (s.fetchSeg n t idx)

/-- Queue every segment that may follow the active one (R244). The target of a host jump pending, recorded or carried that has been queued
before keeps the descriptor read then (R232, R245). -/
def State.queueAfter (s : State) (n : Nat) (t : TrackSt) (g : Seg) : List Seg :=
  let ids := if t.inRing g.idx then [t.ringNext g.idx]
    else [g.next] ++ (if g.loopCount != 0 then [g.loopTo] else []) ++ (if g.cond != 0 then [g.target] else [])
  let kept := (t.hostRecs ++ t.hostRecsNew).map (·.1) ++ t.carried.toList ++ (t.hostReq.map (·.target)).toList
  let held := ((kept.filter (fun i => i != 0xFFF && i < t.len)).eraseDups).filterMap (s.queuedSeg n t)
  held ++ (((ids.filter (fun i => i != 0xFFF && i < t.len && !kept.contains i)).eraseDups).filterMap (s.fetchSeg n t))

/-! ### Samples (R230, R235 to R237) -/

/-- One weight of the interpolator in units of 2^-17 (R236). -/
def interpW (num : Int) : Int := rha num 4

/-- The four-tap interpolation at fraction index T = floor(64 t) of samples x(-1), x(0), x(1), x(2). -/
def interpolate (tt : Nat) (xm x0 x1 x2 : Int) : Int :=
  let t : Int := tt
  let wm := interpW (-(t ^ 3) + 128 * t ^ 2 - 4096 * t)
  let w1 := interpW (-(3 * t ^ 3) + 256 * t ^ 2 + 4096 * t)
  let w2 := interpW (t ^ 3 - 64 * t ^ 2)
  let w0 := 2 ^ 17 - wm - w1 - w2
  rha (wm * xm + w0 * x0 + w1 * x1 + w2 * x2) (2 ^ 17)

/-- Granule k of a segment: staged in this visit, staged when the segment was queued, or read now. -/
def State.stagedGranule (s : State) (t : TrackSt) (g : Seg) (k : Nat) : Granule :=
  match t.staged.find? (fun x => x.addr == g.a && x.idx == k) with
  | some x => x
  | none => match (if k = 0 then g.head else none) with
    | some x => x
    | none => s.granule g k

/-- An index of a segment's source samples, clamped to the first and the last (R236). -/
def Seg.source (g : Seg) (i : Int) : Nat := (clampI 0 ((g.len : Int) - 1) i).toNat

/-- Source samples that the sample last computed of `p` takes. -/
def Play.taps (p : Play) : List Nat :=
  let n : Int := if p.seg.interp then (p.pos / 2 ^ 32 : Nat) else p.i
  if p.seg.kind = 0 then (if p.seg.interp then [n - 1, n, n + 1, n + 2] else [n]).map p.seg.source else []

/-- The granules that the sample of `p` takes. -/
def Play.granules (p : Play) : List Nat := (p.taps.map (· / 64)).eraseDups

/-- Does the sample of `p` find what it takes: staged before, or sequence memory to read it from (R31)? -/
def State.canStage (s : State) (n : Nat) (p : Play) : Bool :=
  let t := s.trk n
  s.seqUp n || p.granules.all (fun k => t.staged.any (fun x => x.addr == p.seg.a && x.idx == k) || (k == 0 && p.seg.head.isSome))

/-- Stage what the sample of `p` takes: granules already staged stay as they were read, those behind go. A granule after the first is read
when the first of its samples is computed, so that a write before that plays and one after it does not (R245 leaves either: DESIGN
CHOICE, assumption 53). -/
def State.stage (s : State) (n : Nat) (p : Play) : State :=
  let t := s.trk n
  if p.seg.kind != 0 || p.granules.all (fun k => t.staged.any (fun x => x.addr == p.seg.a && x.idx == k)) && t.staged.length = p.granules.length
  then s
  else s.updTrk n (fun t => { t with staged := p.granules.map (s.stagedGranule t p.seg) })

/-- Source sample i of a DATA segment, clamped to its first and last sample. -/
def State.srcSample (s : State) (t : TrackSt) (g : Seg) (i : Int) : Int :=
  let k := g.source i
  signed 32 ((s.stagedGranule t g (k / 64)).words.getD (k % 64) 0)

/-- Marker bits of source sample k (R231). -/
def State.srcMarks (s : State) (t : TrackSt) (g : Seg) (k : Nat) : Nat :=
  if g.kind = 0 && g.mkrEn then (s.stagedGranule t g (k / 64)).marks.getD (k % 64) 0 else g.mkrConst

/-- The tone's phase at a stamp, in units of 2^-48 cycle (R237). -/
def tonePhase (h ph0 stamp : Nat) : Nat := (h * stamp + ph0) % 2 ^ 48

/-- Terms of the Taylor series of the sine from the term `t` of degree 2 k + 1 on; `a2` is the angle squared; units of 2^-64. -/
def sineSeries (a2 : Int) : Nat → Nat → Int → Int
  | 0, _, _ => 0
  | fuel + 1, k, t => t + sineSeries a2 fuel (k + 1) (-(t * a2 / 2 ^ 64) / ((2 * k + 2) * (2 * k + 3) : Nat))

/-- sin(2 pi x / 2^64) in units of 2^-64, to within 2^-58: the first quarter's series, the other quarters by symmetry. -/
def sineRef (x : Nat) : Int :=
  let r := x % 2 ^ 64
  let y := r % 2 ^ 62
  let a : Int := ((if r / 2 ^ 62 % 2 = 0 then y else 2 ^ 62 - y) * 0x1921FB54442D18469 / 2 ^ 62 : Nat)
  let v := sineSeries (a * a / 2 ^ 64) 13 0 a
  if r < 2 ^ 63 then v else -v

/-- Amplitude times the sine of a phase in units of 2^-48 cycle: any value within 2^-18 of the amplitude of the exact one, and the two
integers that enclose it (R153, R237). -/
def sineTimes (amp : Int) (psi48 : Nat) : Int :=
  let x := psi48 * 2 ^ 16
  let mid := amp * sineRef x
  let tol := (amp.natAbs : Int) * (2 ^ 46 + 2 ^ 6)
  clampI ((mid - tol) / 2 ^ 64) (-(-(mid + tol) / 2 ^ 64)) (Config.sine amp x)

/-- Setpoint and markers of the sample of `p` applied at a tick with the given stamp (Table 11-2). -/
def State.playSample (s : State) (t : TrackSt) (p : Play) (stamp : Nat) : Int × Nat :=
  let g := p.seg
  let v :=
    if g.kind = 0 then
      if g.interp then
        let n : Int := (p.pos / 2 ^ 32 : Nat)
        interpolate (p.pos % 2 ^ 32 / 2 ^ 26) (s.srcSample t g (n - 1)) (s.srcSample t g n) (s.srcSample t g (n + 1))
          (s.srcSample t g (n + 2))
      else s.srcSample t g p.i
    else if g.kind = 1 then signed 32 g.a
    else if g.kind = 2 then signed 32 g.a + signed 32 g.b * p.i
    else signed 32 g.a + sineTimes (signed 32 g.b) (tonePhase g.c p.ph0 stamp)
  let k := if g.kind = 0 && g.interp then min (p.pos / 2 ^ 32) (g.len - 1) else p.i
  (sat32 v, s.srcMarks t g k)

/-- Begin a segment whose first tick is `t0` with stamp `stamp`: the start point `start` with edge fraction `f` when it
starts at a stamp; `pred` is the segment before it (R235, R237). -/
def beginPlay (g : Seg) (t0 stamp start f : Nat) (pred : Option Play) : Play :=
  let pos :=
    if g.kind = 0 && g.interp then
      if g.ratePhase then (stamp + 2 ^ 64 - start) % 2 ^ 64 * g.c / 2 ^ 16
      else if f != 0 || g.wait then f * g.c / 2 ^ 16
      else match pred with
        | some q => if q.seg.kind = 0 && q.seg.interp && !q.seg.ratePhase
            then q.pos + q.seg.c * 2 ^ 16 - q.seg.len * 2 ^ 32 else 0
        | none => 0
    else 0
  let ph0 :=
    if g.kind = 3 then
      match pred with
      | some q => if g.cont && q.seg.kind = 3
          then (tonePhase q.seg.c q.ph0 stamp + 2 ^ 48 - g.c * stamp % 2 ^ 48) % 2 ^ 48 else g.d * 2 ^ 16
      | none => g.d * 2 ^ 16
    else 0
  { seg := g, t0, start, pos, lost := 0, ph0, i := 0 }

/-- The next sample of a segment, for a tick with the given stamp; none when the last one has been computed (R230, R235).
The Bool says that an advance was cut (RATE_CLAMP). After a cut the position stays behind by what was cut and goes on following the
stamp (R94, R235). -/
def Play.advance (p : Play) (stamp : Nat) : Option (Play × Bool) :=
  let g := p.seg
  if g.kind = 0 && g.interp then
    let target := if g.ratePhase then (stamp + 2 ^ 64 - p.start) % 2 ^ 64 * g.c / 2 ^ 16 - p.lost else p.pos + g.c * 2 ^ 16
    let q := min target (p.pos + 2 ^ 32)
    if q < g.len * 2 ^ 32 then some ({ p with pos := q, lost := p.lost + (target - q), i := p.i + 1 }, decide (q < target)) else none
  else if p.i + 1 < g.len then some ({ p with i := p.i + 1 }, false) else none

/-- Is the sample last computed the segment's last, where the length is fixed? -/
def Play.atLast (p : Play) : Bool := !(p.seg.kind = 0 && p.seg.interp) && p.i + 1 == p.seg.len

/-- The start point of a WAIT segment seen from a tick's stamp (R234). -/
def waitPoint (g : Seg) (stamp : Nat) : Nat :=
  let c := stamp / 2 ^ 32
  let frac := stamp % 2 ^ 32
  ((if frac ≤ g.d then c else c + 1) + g.skip) % 2 ^ 32 * 2 ^ 32 + g.d

/-! ### What follows a segment (R243, Table 11-7) -/

/-- Loop counter c of channel n. -/
def State.loopCtr (s : State) (n c : Nat) : Nat :=
  let r := if c < 2 then SEQ_LOOP01 n else SEQ_LOOP23 n
  bits (s.rd r).toNat (16 * (c % 2)) 16
def State.setLoopCtr (s : State) (n c v : Nat) : State :=
  let r := if c < 2 then SEQ_LOOP01 n else SEQ_LOOP23 n
  s.setFld r ⟨16 * (c % 2), 16⟩ v

/-- Credits the track held at tick `t - 16` (R247): the credits now, less those held only from a later tick on; a credit that
arrives in period k is held from tick k+1 on. -/
def State.creditAt (s : State) (n t : Nat) : Nat :=
  let c := s.fld (SEQ_CREDIT n) fSEQ_CREDIT_CREDIT
  c - ((s.trk n).arrivals.filter (fun a => t < a.1 + 16)).foldl (fun x a => x + a.2) 0

/-- Entry and order chosen for the end of the active segment (Table 11-7); of a ring segment the own fields count for nothing (R247). -/
def State.chooseNext (s : State) (n : Nat) (p : Play) : Nat × Nat :=
  let t := s.trk n
  let g := p.seg
  let onTime (r : Nat) : Bool := r + 1 ≤ p.i
  match t.carried, t.hostRecs.find? (fun h => onTime h.2) with
  | some x, _ => (x, 1)
  | none, some (x, _) => (x, 2)
  | none, none =>
    if t.inRing g.idx then (t.ringNext g.idx, 6)
    else
      match t.ownRec with
      | some r => if onTime r then (g.target, 3) else
          if g.loopCount != 0 then (if s.loopCtr n g.loopCtr < g.loopCount then (g.loopTo, 4) else (g.next, 5)) else (g.next, 6)
      | none =>
        if g.loopCount != 0 then (if s.loopCtr n g.loopCtr < g.loopCount then (g.loopTo, 4) else (g.next, 5)) else (g.next, 6)

/-- The full choice for a segment that ends so that the following tick `t0`, the coming one, has stamp `stamp`; none where the descriptor
of what follows cannot be read (R31). -/
def State.makeChoice (s : State) (n : Nat) (p : Play) (t0 stamp : Nat) : Option Choice :=
  let t := s.trk n
  let (idx, order) := s.chooseNext n p
  if idx = 0xFFF then some ⟨none, order, false, none⟩
  else (s.queuedSeg n t idx).map (fun g =>
    if g.code != 0 then ⟨some g, order, false, none⟩
    else
      let ur := t.inRing idx && s.creditAt n t0 == 0
      let start := if g.wait then waitPoint g stamp else stamp
      ⟨some g, order, ur, some (beginPlay g t0 stamp start (if g.wait && atOrAfter stamp start then s.edgeFrac start else 0) (some p))⟩)

/-! ### The sample of the coming tick -/

/-- Conditions of Table 11-5 that other blocks present; MARKER takes the markers a track computes in this period. -/
def State.condPresent (s : State) (n : Nat) (g : Seg) (laneIn : Nat → Bool) : Bool :=
  let src := n / 32 * 32 + g.srcCh
  let c := s.chan src
  match g.cond with
  | 1 => s.bit (SEQ_STAT n) fSEQ_STAT_HOST_FLAG
  | 2 => c.trk.marks.testBit (g.sel % 4)
  | 3 => c.winV.cond
  | 4 => c.winI.cond
  | 5 => c.model.cond
  | 6 => c.dac.openCond || c.dac.complCond
  | 7 => laneIn (n / 32 * 8 + g.sel)
  | 8 => s.bit (PG_STAT src) fPG_STAT_TRIPPED
  | _ => false

/-- The first sample of the start segment of a track, at the coming tick: a WAIT segment's start point is taken from that tick (R234,
R235). -/
def State.startPlay (s : State) (g : Seg) (d : Sched) : Play :=
  let stamp := s.nextStamp
  let start := if g.wait then waitPoint g stamp else stamp
  beginPlay g (s.tick + 1) stamp start
    (if g.wait then s.edgeFrac start else match d.stamp with | some x => s.edgeFrac x | none => 0) none

/-- Supply the sample of `q` at the coming tick, with `play` and `choice` after it; `fresh` begins a visit, which takes no granule staged in
an earlier one (R245, R249). A sample that is not staged and cannot be read is not supplied (R31). -/
def State.supply (s : State) (n : Nat) (play : Option Play) (choice : Option Choice) (q : Play) (fresh : Bool) : State :=
  let s0 := if fresh then s.updTrk n (fun t => { t with staged := [] }) else s
  if s0.canStage n q then
    let s1 := s0.stage n q
    let (v, m) := s1.playSample (s1.trk n) q s.nextStamp
    s1.updTrk n (fun t => { t with play, choice, val := v, has := true, marks := m, computed := some (q.seg, q.i) })
  else s0.updTrk n (fun t => { t with play, choice, lost := true })

/-- A segment that ends so that the next one begins at the coming tick: the choice, and the chosen segment's sample 0 unless it waits
or finds no credit. -/
def State.supplyNext (s : State) (n : Nat) (p : Play) (c : Choice) : State :=
  match c.play with
  | some q =>
    if c.underrun || (q.seg.wait && !atOrAfter s.nextStamp q.start) then s.updTrk n (fun t => { t with play := some p, choice := some c })
    else s.supply n (some p) (some c) q true
  | none => s.updTrk n (fun t => { t with play := some p, choice := some c })

/-- Sequence memory answers again during an under-run for want of it: as for a credit, the segment resumes no earlier than 16 ticks on
(R31, R249; DESIGN CHOICE, assumption 53). -/
def State.memBack (s : State) (n : Nat) : State :=
  if (s.trk n).memLost && s.seqUp n then
    s.updTrk n (fun t => { t with memLost := false, creditFrom := if t.paid then some (s.tick + 16) else t.creditFrom })
  else s

/-- The virtual position of a track in under-run at the coming tick (R248, R249): it waits, begins a segment, passes a sample, or ends a
segment. A segment with a credit plays from its sample 0, and one that a credit found on the way from its first sample with an index
that is a multiple of 64 at or after `creditFrom`. -/
def State.virtualStep (s0 : State) (n : Nat) (p : Play) : State :=
  let s := s0.memBack n
  let t := s.trk n
  let tick := s.tick + 1
  let stamp := s.nextStamp
  let free := s.seqUp n && match t.creditFrom with | some k => decide (k ≤ tick) | none => false
  let resume (s : State) (play : Option Play) (q : Play) : State :=
    (s.supply n play none q true).updTrk n (fun t => { t with resumeAt := some (tick, q.i), creditFrom := none })
  if !p.began then
    if !atOrAfter stamp p.start then s
    else
      let q := beginPlay p.seg tick stamp p.start (s.edgeFrac p.start) none
      if !t.inRing p.seg.idx || s.creditAt n tick != 0 then s.supply n t.play t.choice q true
      else if free then resume s t.play q
      else s
  else
    match p.advance stamp with
    | some (q, fast) =>
      let s1 := (s.setFld (SEQ_SAMPLE n) fSEQ_SAMPLE_INDEX q.i).raiseIf fast (SEQ_STAT n) fSEQ_STAT_RATE_CLAMP
      if free && q.i % 64 = 0 then resume s1 (some q) q
      else (s1.updTrk n (fun t => { t with play := some q })).incSat (SEQ_DROPPED n) fWord
    | none =>
      match s.makeChoice n p tick stamp with
      | some c => s.supplyNext n p c
      | none => (s.updTrk n (fun t => { t with memLost := true })).incSat (SEQ_DROPPED n) fWord

/-- Compute the track's sample for the coming tick in the period that has just begun: what the track supplies, its markers, and, at the
end of a segment, its choice of what follows. -/
def State.trackCompute (s0 : State) (n : Nat) : State :=
  let s := s0.updTrk n (fun t => { t with marks := 0, computed := none, lost := false })
  let t := s.trk n
  let tick := s.tick + 1
  let stamp := s.nextStamp
  let st := s.trState n
  if t.stopAt == some tick then s.updTrk n (fun t => { t with has := false })
  else if st = trReady then
    match t.startPend, s.queuedSeg n t t.startIdx with
    | some d, some g =>
      let p := s.startPlay g d
      if !s.due d || g.code != 0 || (g.wait && !atOrAfter stamp p.start) || (t.inRing g.idx && s.creditAt n tick == 0) then s
      else s.supply n none none p true
    | _, _ => s
  else if st = trPlaying then
    match t.play with
    | none => s
    | some p =>
      match p.advance stamp with
      | some (q, fast) => ((s.supply n (some q) none q false).setFld (SEQ_SAMPLE n) fSEQ_SAMPLE_INDEX q.i).raiseIf fast (SEQ_STAT n)
          fSEQ_STAT_RATE_CLAMP
      | none =>
        match s.makeChoice n p tick stamp with
        | some c => s.supplyNext n p c
        | none => s.updTrk n (fun t => { t with lost := true })
  else if st = trWaiting then
    match t.play with
    | none => s
    | some p =>
      if atOrAfter stamp p.start && !(t.inRing p.seg.idx && s.creditAt n tick == 0) then
        s.supply n t.play t.choice (beginPlay p.seg tick stamp p.start (s.edgeFrac p.start) none) true
      else s
  else if st = trUnderrun then
    match t.play with
    | none => s
    | some p => s.virtualStep n p
  else s

/-- The same, where a DATA sample comes from a staged granule with an uncorrectable error (R246), met in sequence memory (`ue`) or in the
staging SRAM (`sram`): the last good sample with markers 0, and ECC; the error is reported once for its granule, as one of its memory
(R387); where the granule lies in the staging SRAM is open (assumption 53). The sample of a track that has had none is open. -/
def State.trackSample (s : State) (n : Nat) (ue sram : Bool) : State :=
  let u := s.trackCompute n
  match if ue || sram then (u.trk n).computed else none with
  | some (g, i) =>
    if g.kind != 0 then u
    else
      let (w, u1) := if (s.trk n).has then (wordOf (s.trk n).val, u) else u.free
      let line := g.a + 256 * (g.source i / 64)
      let u2 := if (s.trk n).badLine == some line then u1 else if ue then u1.eccUe 5 0 line
        else let (a, u) := u1.free; u.eccUe 3 (n / 32) a.toNat
      ((u2.updTrk n (fun t => { t with val := w.toInt, marks := 0, badLine := some line })).raise (SEQ_STAT n) fSEQ_STAT_ECC).chEvent n
        fCH_INT_STAT_SEQ_FAULT
  | none => u.updTrk n (fun t => { t with badLine := none })

/-- Record the condition the period presents, at the sample the period computed, or as at sample 0 while a segment waits (R232, R234,
R241, R242). Sample 0 of a segment that begins at the coming tick is that segment's. -/
def State.trackRecord (s : State) (n : Nat) (laneIn : Nat → Bool) : State :=
  let t := s.trk n
  let waits := s.trState n == trWaiting
  let ahead := t.choice.isSome || t.play.isNone
  match if waits then t.play.map (fun p => (p.seg, 0)) else t.computed with
  | some (g, i) =>
    let had := if ahead then t.ownRecNew else t.ownRec
    if !t.inRing g.idx && had.isNone && g.cond != 0 && s.condPresent n g laneIn then
      let s1 := s.updTrk n (fun t => if ahead then { t with ownRecNew := some i } else { t with ownRec := some i })
      let last := match t.play with | some p => !waits && !ahead && p.atLast | none => false
      let s2 := s1.raiseIf last (SEQ_STAT n) fSEQ_STAT_LATE_JUMP
      if g.cond = 1 then s2.setBit (SEQ_STAT n) fSEQ_STAT_HOST_FLAG false else s2
    else s
  | none => s

/-! ### Shared effects -/

/-- Host flags due in the present period are set, in any power state (R242). -/
def State.hostFlags (s : State) (n : Nat) : State :=
  if (s.trk n).hostFlagAt.any (· ≤ s.tick) then
    (s.updTrk n (fun t => { t with hostFlagAt := t.hostFlagAt.filter (s.tick < ·) })).raise (SEQ_STAT n) fSEQ_STAT_HOST_FLAG
  else s

/-- What a tick brings to a track before anything is computed: the markers of the sample applied at it. A stop due at it follows in
`trackEnd` (R240). -/
def State.trackBegin (s : State) (n : Nat) : State :=
  s.updTrk n (fun t => { t with marksNow := t.marks, marksPrev := t.marksNow })

/-- A track under-runs from tick `tick`, whose stamp is `stamp` (R248). -/
def State.underrunAt (s : State) (n tick stamp : Nat) : State :=
  let s1 := if s.bit (SEQ_STAT n) fSEQ_STAT_UNDERRUN then s else s.wr64 (SEQ_UR_STAMP_LO n) stamp
  let s2 := ((s1.raise (SEQ_STAT n) fSEQ_STAT_UNDERRUN).setTrState n trUnderrun).setBitAt (CLU_SEQ_UR (n / 32)) (n % 32)
  let s3 := (s2.incSat (SEQ_DROPPED n) fWord).chEvent n fCH_INT_STAT_UNDERRUN
  if (s.trk n).safeMode && !s.heldBy n srcUnderrun then s3.after tick (.hold n srcUnderrun true) else s3

/-- A track that plays and whose sample of the present tick could not be staged under-runs from it (R31). -/
def State.trackLost (s : State) (n : Nat) : State :=
  if (s.trk n).lost && s.trState n == trPlaying then
    (s.updTrk n (fun t => { t with memLost := true })).underrunAt n s.tick s.now
  else s

/-- A TRG pulse from the coming tick for two periods (R239). -/
def State.trgPulse (s : State) (n : Nat) (g : Seg) : State :=
  if g.trg && (s.trk n).trgEn then s.updTrk n (fun t => { t with trgEnd := some (s.tick + 3), trgBall := t.trgSel }) else s

/-- Make a segment active at the coming tick (R244, R250): its stamp, counters, queue, and the successor Table 11-7 gives it
while no jump is recorded. -/
def State.activate (s : State) (n : Nat) (p : Play) : State :=
  let s1 := ((s.wr64 (SEQ_SEG_STAMP_LO n) s.nextStamp).incWrap (SEQ_SEGS n) fWord).setFld (SEQ_POS n) fSEQ_POS_ACTIVE p.seg.idx
  let t := s1.trk n
  let s2 := s1.setTrk n { t with play := some { p with began := true }, choice := none, queued := s1.queueAfter n t p.seg }
  let s3 := (s2.setFld (SEQ_POS n) fSEQ_POS_NEXT (s2.chooseNext n p).1).setBit (SEQ_STAT n) fSEQ_STAT_STREAM_NOW (t.inRing p.seg.idx)
  s3.setFld (SEQ_SAMPLE n) fSEQ_SAMPLE_INDEX p.i

/-- Take one credit. -/
def State.takeCredit (s : State) (n : Nat) : State :=
  s.setFld (SEQ_CREDIT n) fSEQ_CREDIT_CREDIT (s.fld (SEQ_CREDIT n) fSEQ_CREDIT_CREDIT - 1)

/-- Samples come again: the track plays, and source UNDERRUN is released (Table 09-3). -/
def State.playAgain (s : State) (n : Nat) : State :=
  let s1 := s.setTrState n trPlaying
  if s.heldBy n srcUnderrun then s1.after (s.tick + 1) (.hold n srcUnderrun false) else s1

/-- Enter a segment at the coming tick: WAITING where its start point lies ahead (the segment starts, and becomes active, only at the due
tick of that point: R234, R244; the virtual position of an under-run waits as UNDERRUN: R248), under-run where it finds no credit or its
first sample is not to be had, playing otherwise. A credit that came in under-run and meets the segment's first tick pays for it
(R249). -/
def State.enterSeg (s : State) (n : Nat) (p : Play) (underrun : Bool) : State :=
  let t := s.trk n
  if p.seg.wait && !atOrAfter s.nextStamp p.start then
    let s1 := s.updTrk n (fun t => { t with play := some p, choice := none })
    if s.trState n = trUnderrun then s1 else s1.setTrState n trWaiting
  else
    let paid := t.resumeAt == some (s.tick + 1, 0)
    let short := underrun && !paid
    let s1 := (s.activate n p).updTrk n (fun t => { t with resumeAt := none, paid := !short, memLost := t.lost && !short })
    let s2 := if t.inRing p.seg.idx && !underrun then s1.takeCredit n else s1
    if short || t.lost then s2.underrunAt n (s.tick + 1) s.nextStamp
    else (s2.playAgain n).trgPulse n p.seg

/-- A track's descriptor failed (R246): FAULT at the coming tick, with its index and code. -/
def State.trackFault (s : State) (n idx code : Nat) : State :=
  let s1 := ((s.setFld (SEQ_ERR n) fSEQ_ERR_INDEX idx).setFld (SEQ_ERR n) fSEQ_ERR_CODE code).setTrState n trFault
  let s2 := (s1.raise (SEQ_STAT n) fSEQ_STAT_BAD_DESC).updTrk n (fun t => { t with play := none, choice := none })
  (s2.logEvAt s.nextStamp 1 13 2 (SEQ_STAT n) n 0).chEvent n fCH_INT_STAT_SEQ_FAULT

/-- The track stops (R240): its markers are 0 (R238); the host flag, credits and a trigger pulse stay (R239, R242, R247). -/
def State.trackEnd (s : State) (n : Nat) : State :=
  let t := s.trk n
  let s1 := s.setTrk n { marksPrev := t.marksPrev, trgEnd := t.trgEnd, trgBall := t.trgBall, hostFlagAt := t.hostFlagAt,
                         arrivals := t.arrivals }
  (s1.setTrState n trStopped).setBit (SEQ_STAT n) fSEQ_STAT_LATE_PENDING false

/-! ### Meanings -/

/-- TRACK_ARM (R233, Table 11-3 code 8). -/
def execTrackArm (n : Ch) (s : State) : Out := s.toTile (n / 128) (SEQ_GO n) fun s =>
  let refuse (s : State) : State := s.raise (SEQ_STAT n) fSEQ_STAT_REFUSED
  if !s.biased n || s.trState n != trStopped then .next (refuse s)
  else
    let ctl := s.lv (SEQ_CTL n)
    let base := (s.rd (SEQ_TABLE_BASE n)).toNat / 64 * 64
    let len := s.fld (SEQ_TABLE_LEN n) fSEQ_TABLE_LEN_TABLE_LEN
    let idx := s.fld (SEQ_START_IDX n) fSEQ_START_IDX_START_IDX
    let first := s.fld (SEQ_RING n) fSEQ_RING_FIRST
    let last := s.fld (SEQ_RING n) fSEQ_RING_LAST
    let stream := fSEQ_CTL_STREAM.get ctl != 0
    if len = 0 || len ≤ idx || 2 ^ 32 < base + 32 * len || (stream && (last < first + 2 || len ≤ last)) then
      .next ((refuse s).setFld (SEQ_ERR n) fSEQ_ERR_INDEX idx |>.setFld (SEQ_ERR n) fSEQ_ERR_CODE 8)
    else
      let old := s.trk n
      let t : TrackSt := {
        stream, safeMode := fSEQ_CTL_UR_MODE.get ctl != 0, trgEn := fSEQ_CTL_TRG_EN.get ctl != 0,
        trgSel := fSEQ_CTL_TRG_SEL.get ctl, base, len, startIdx := idx, first, last, hostFlagAt := old.hostFlagAt, arrivals := old.arrivals,
        marksNow := old.marksNow, marksPrev := old.marksPrev, trgEnd := old.trgEnd, trgBall := old.trgBall }
      let t := { t with queued := (s.fetchSeg n t idx).toList }
      let s1 := ((s.setTrk n t).wr (SEQ_LOOP01 n) 0).wr (SEQ_LOOP23 n) 0
      .next ((s1.setFld (SEQ_POS n) fSEQ_POS_NEXT idx).setTrState n trArming)

/-- TRACK_READY (R233): staging of the start segment completes; it does not while sequence memory does not answer (R31). -/
def execTrackReady (n : Ch) (s : State) : Out :=
  match s.queuedSeg n (s.trk n) (s.trk n).startIdx with
  | some g => .next (if s.trState n = trArming then (s.updTrk n (fun t => { t with queued := [g] })).setTrState n trReady else s)
  | none => .next s

/-- START of a READY track, with the stamp it names, if any (R233, R250). -/
def State.trackStartAt (s : State) (n : Nat) (stamp : Option Nat) : State :=
  if !s.biased n || s.trState n != trReady || (s.trk n).startPend.isSome then s.raise (SEQ_STAT n) fSEQ_STAT_REFUSED
  else
    let s1 := s.updTrk n (fun t => { t with startPend := some (s.sched stamp) })
    s1.raiseIf (s.lateOpt stamp) (SEQ_STAT n) fSEQ_STAT_LATE

/-- TRACK_START (R233). -/
def execTrackStart (n : Ch) (at_ : Bool) (s : State) : Out := s.toTile (n / 128) (SEQ_GO n) fun s =>
  .next (s.trackStartAt n (if at_ then some (s.rd64 (SEQ_AT_LO n)) else none))

/-- STOP arriving in the present period (R240). -/
def State.trackStopNow (s : State) (n : Nat) : State :=
  if s.trState n = trStopped then s
  else s.updTrk n (fun t => { t with stopAt := t.stopAt.or (some (s.tick + 2)) })

/-- TRACK_STOP (R240). -/
def execTrackStop (n : Ch) (s : State) : Out := s.toTile (n / 128) (SEQ_GO n) fun s => .next (s.trackStopNow n)

/-- The host flag is to be set from period k+2 (R242). -/
def State.trackHostEvt (s : State) (n : Nat) : State := s.updTrk n (fun t => { t with hostFlagAt := t.hostFlagAt ++ [s.tick + 2] })

/-- HOST_EVT (R242). -/
def execHostEvt (n : Ch) (s : State) : Out := s.toTile (n / 128) (SEQ_GO n) fun s => .next (s.trackHostEvt n)

/-- HOST_JUMP (R242, R247). -/
def execHostJump (n : Ch) (target : Nat) (at_ : Bool) (s : State) : Out := s.toTile (n / 128) (SEQ_JUMP n) fun s =>
  let t := s.trk n
  let active := match t.play with | some p => p.seg.idx | none => 0xFFF
  if t.len ≤ target || (t.inRing active && t.inRing target) then .next (s.raise (SEQ_STAT n) fSEQ_STAT_REFUSED)
  else
    let stamp := if at_ then some (s.rd64 (SEQ_JUMP_AT_LO n)) else none
    let d := s.sched stamp
    .next (s.updTrk n (fun t => { t with hostReq := some ⟨target, d.notBefore, d.stamp⟩ }))

/-- Note credits that arrive in the present period: the track holds them from the next tick on (R247). -/
def State.arrive (s : State) (n k : Nat) : State :=
  s.updTrk n (fun t => { t with arrivals := (s.tick + 1, k) :: t.arrivals.filter (fun a => s.tick ≤ a.1 + 20) })

/-- Add stream credits (R247, R249): credits pay owed segments first during under-run, then the segment at the virtual position consumes
one, which may resume the track no earlier than tick k+16. -/
def State.addCredits (s : State) (n add : Nat) : State :=
  let t := s.trk n
  let idle := s.trState n == trStopped
  let stream := if idle then s.lbit (SEQ_CTL n) fSEQ_CTL_STREAM else t.stream
  let ring := if idle then s.fld (SEQ_RING n) fSEQ_RING_LAST + 1 - s.fld (SEQ_RING n) fSEQ_RING_FIRST else t.last + 1 - t.first
  let c0 := s.fld (SEQ_CREDIT n) fSEQ_CREDIT_CREDIT
  let owed := s.fld (SEQ_CREDIT n) fSEQ_CREDIT_OWED
  if !stream then s
  else if s.trState n = trUnderrun then
    let pay := min add owed
    let left := add - pay
    let s1 := s.setFld (SEQ_CREDIT n) fSEQ_CREDIT_OWED (owed - pay)
    let spend := left != 0 && t.resumeAt.isNone && t.creditFrom.isNone && !t.paid
    let more := c0 + (if spend then left - 1 else left)
    let c := min ring more
    let s2 := ((s1.setFld (SEQ_CREDIT n) fSEQ_CREDIT_CREDIT c).raiseIf (ring < more) (SEQ_STAT n) fSEQ_STAT_FILL_OVER).arrive n (c - c0)
    if spend then s2.updTrk n (fun t => { t with creditFrom := some (s.tick + 16) }) else s2
  else
    let c := min ring (c0 + add)
    let s1 := (s.setFld (SEQ_CREDIT n) fSEQ_CREDIT_CREDIT c).raiseIf (ring < c0 + add) (SEQ_STAT n) fSEQ_STAT_FILL_OVER
    s1.arrive n (c - c0)

/-- TRACK_FILL (R247). -/
def execTrackFill (n : Ch) (add : Nat) (s : State) : Out := s.toTile (n / 128) (SEQ_FILL n) fun s => .next (s.addCredits n add)

/-- Apply a command to every masked track of a cluster (R250). -/
def State.masked (s : State) (g : Nat) (mask : Word) (f : State → Nat → State) : State :=
  s.over ((List.range 32).filter mask.getLsbD) (fun s i => f s (32 * g + i))

/-- CLU_SEQ_START (R250). -/
def execCluSeqStart (g : Clu) (mask : Word) (s : State) : Out := s.toTile (g / 4) (CLU_SEQ_START g) fun s => .next (s.masked g mask (fun s n => s.trackStartAt n none))
/-- CLU_SEQ_START_AT (R250): the stamp in CLU_SEQ_AT. -/
def execCluSeqStartAt (g : Clu) (mask : Word) (s : State) : Out := s.toTile (g / 4) (CLU_SEQ_START_AT g) fun s =>
  .next (s.masked g mask (fun t n => t.trackStartAt n (some (s.rd64 (CLU_SEQ_AT_LO g)))))
/-- CLU_SEQ_STOP (R240). -/
def execCluSeqStop (g : Clu) (mask : Word) (s : State) : Out := s.toTile (g / 4) (CLU_SEQ_STOP g) fun s => .next (s.masked g mask State.trackStopNow)
/-- CLU_SEQ_HOST (R242). -/
def execCluSeqHost (g : Clu) (mask : Word) (s : State) : Out := s.toTile (g / 4) (CLU_SEQ_HOST g) fun s => .next (s.masked g mask State.trackHostEvt)

/-- A STOP acts at the coming tick, so that nothing begins there (R240). -/
def State.stopsNext (s : State) (n : Nat) : Bool := (s.trk n).stopAt == some (s.tick + 1)

/-- TRACK_START_TICK (R233): at its start tick the start segment begins. -/
def execTrackStartTick (n : Ch) (s : State) : Out :=
  let t := s.trk n
  match t.startPend, s.queuedSeg n t t.startIdx with
  | some d, some g =>
    if s.trState n = trReady && s.due d && !s.stopsNext n then
      let s0 := s.updTrk n (fun t => { t with startPend := none })
      if g.code != 0 then .next (s0.trackFault n g.idx g.code)
      else
        let s1 := s0.updTrk n (fun t => { t with ownRec := t.ownRecNew, ownRecNew := none })
        .next (s1.enterSeg n (s.startPlay g d) (t.inRing g.idx && s.creditAt n (s.tick + 1) == 0))
    else .next s
  | _, _ => .next s

/-- Bookkeeping of recorded jumps at a segment's end (R242, R243): the one that acted is consumed, a late one is carried (of several the
first host jump before the segment's own: DESIGN CHOICE, assumption 53), every other is discarded with JUMP_DROPPED; every late one sets
LATE_JUMP. -/
def State.settleJumps (s : State) (n order lastI : Nat) (toEnd : Bool) : State :=
  let t := s.trk n
  let late (r : Nat) : Bool := decide (lastI ≤ r)
  let target := match t.play with | some p => p.seg.target | none => 0
  let lateOwn := match t.ownRec with | some r => if late r then some target else none | none => none
  let lateHost := (t.hostRecs.find? (fun h => late h.2)).map (·.1)
  let carry := if toEnd then none else lateHost.or lateOwn
  let acted := (if order = 1 || order = 2 || order = 3 then 1 else 0) + carry.toList.length
  let total := t.carried.toList.length + t.ownRec.toList.length + t.hostRecs.length
  let s1 := s.updTrk n (fun t => { t with
    ownRec := t.ownRecNew, ownRecNew := none, hostRecs := t.hostRecsNew, hostRecsNew := [], carried := carry })
  let s2 := s1.raiseIf (acted < total) (SEQ_STAT n) fSEQ_STAT_JUMP_DROPPED
  let s3 := s2.raiseIf (lateHost.isSome || lateOwn.isSome) (SEQ_STAT n) fSEQ_STAT_LATE_JUMP
  s3.setBit (SEQ_STAT n) fSEQ_STAT_LATE_PENDING carry.isSome

/-- The virtual position leaves a segment in under-run: a credit that came too late to resume it is consumed by it, and a ring segment
without one is owed (R248, R249). -/
def State.leaveUnplayed (s : State) (n : Nat) (g : Seg) : State :=
  let t := s.trk n
  if s.trState n != trUnderrun then s
  else if t.creditFrom.isSome then s.updTrk n (fun t => { t with creditFrom := none })
  else if t.inRing g.idx && !t.paid then
    s.setFld (SEQ_CREDIT n) fSEQ_CREDIT_OWED (s.fld (SEQ_CREDIT n) fSEQ_CREDIT_OWED + 1)
  else s

/-- The loop counter as the order of Table 11-7 leaves it. -/
def State.countLoop (s : State) (n order c : Nat) : State :=
  if order = 3 || order = 5 then s.setLoopCtr n c 0 else if order = 4 then s.setLoopCtr n c (s.loopCtr n c + 1) else s

/-- SEGMENT_END (R243): the choice made when the last sample was computed, or passed in under-run, takes effect at the coming tick; a ring
segment that is left gives its tokens (R274). -/
def execSegmentEnd (n : Ch) (s0 : State) : Out :=
  let t := s0.trk n
  match t.choice, t.play with
  | some c, some p =>
    let s := if t.inRing p.seg.idx then s0.addTokens 3 n (p.seg.len / 64) else s0
    if s.stopsNext n then .next s
    else
      let s1 := ((s.leaveUnplayed n p.seg).settleJumps n c.order p.i c.seg.isNone).countLoop n c.order p.seg.loopCtr
      match c.seg, c.play with
      | some _, some q => .next (s1.enterSeg n q c.underrun)
      | some g, none => .next (s1.trackFault n g.idx g.code)
      | none, _ => .next ((((s1.updTrk n (fun t => { t with play := none, choice := none })).setTrState n trHeld).raise
          (SEQ_STAT n) fSEQ_STAT_DONE).chEvent n fCH_INT_STAT_SEQ_END)
  | _, _ => .next s0

/-- SEGMENT_WAIT_START (R234): a WAIT segment starts at the due tick of its start point. -/
def execSegmentWaitStart (n : Ch) (s : State) : Out :=
  let t := s.trk n
  match t.play with
  | some p =>
    if p.began || !atOrAfter s.nextStamp p.start || s.stopsNext n || !(s.trState n == trWaiting || s.trState n == trUnderrun) then .next s
    else
      .next (s.enterSeg n (beginPlay p.seg (s.tick + 1) s.nextStamp p.start (s.edgeFrac p.start) none)
        (t.inRing p.seg.idx && s.creditAt n (s.tick + 1) == 0))
  | none => .next s

/-- UNDERRUN_RESUME (R249). -/
def execUnderrunResume (n : Ch) (s : State) : Out :=
  let t := s.trk n
  match t.resumeAt with
  | some (tk, _) =>
    if s.trState n = trUnderrun && tk = s.tick + 1 && !s.stopsNext n then
      .next ((s.updTrk n (fun t => { t with resumeAt := none, paid := true })).playAgain n)
    else .next s
  | none => .next s

/-- STAGING_COMPLETE (R242, R244): the target of a pending host jump is staged and the jump is recorded, after any recorded before it. A
descriptor read when the target was queued stands (R232). -/
def execStagingComplete (n : Ch) (s : State) : Out :=
  let t := s.trk n
  match t.hostReq, t.play with
  | some h, some p =>
    if h.notBefore ≤ s.tick && (match h.stamp with | some x => atOrAfter s.now x | none => true) then
      match s.queuedSeg n t h.target with
      | some q => .next (s.updTrk n (fun t => { t with
          hostReq := none, queued := if t.queued.any (fun x => x.idx == h.target) then t.queued else q :: t.queued,
          hostRecs := if t.choice.isSome then t.hostRecs else t.hostRecs ++ [(h.target, if s.trState n = trWaiting then 0 else p.i)]
          hostRecsNew := if t.choice.isSome then t.hostRecsNew ++ [(h.target, 0)] else t.hostRecsNew }))
      | none => .next s
    else .next s
  | _, _ => .next s

/-- TRG_PULSE_END (R239): a trigger pulse ends two periods after its start. -/
def execTrgPulseEnd (n : Ch) (s : State) : Out :=
  .next (if (s.trk n).trgEnd == some (s.tick + 1) then s.updTrk n (fun t => { t with trgEnd := none }) else s)

/-- Level of ball TRG b: the OR of the pulses of the device (R239). -/
def State.trgLevel (s : State) (b : Nat) : Bool :=
  s.ch.any (fun e => e.2.trk.trgEnd.isSome && e.2.trk.trgBall == b)

/-- Level of ball MRK_gg (R238). -/
def State.mrkLevel (s : State) (g : Nat) : Bool :=
  s.bit (CLU_MRK_CTL g) fCLU_MRK_CTL_EN &&
    (s.trk (32 * g + s.fld (CLU_MRK_CTL g) fCLU_MRK_CTL_CH)).marksNow.testBit (s.fld (CLU_MRK_CTL g) fCLU_MRK_CTL_BIT)

end Sys2Proof.Machine
end

