-- ==== Sys2Proof/Machine/Safe.lean ====
section
/-!
DEFINITION. Shared operations of the output path and the windows: the sources that hold a channel at its safe code
(Table 09-3), the blanking timer, the masks of a window, the trip latch, and a window acting on its routes (chapters 09, 10).
-/

namespace Sys2Proof.Machine

/-! ### Holding and releasing (R207) -/

/-- CH_DAC_STAT.PARK follows the sources, where the ball is driven at all. -/
def State.parkBit (s : State) (n : Nat) : State :=
  s.setBit (CH_DAC_STAT n) fCH_DAC_STAT_PARK (s.isHeld n && !s.bit (CH_DAC_STAT n) fCH_DAC_STAT_HIZ)

/-- A source starts to hold (HOLD and SEEN). -/
def State.holdSrc (s : State) (n b : Nat) : State :=
  ((s.setBitAt (CH_SAFE_SRC n) b).setBitAt (CH_SAFE_SRC n) (16 + b)).parkBit n

/-- A source releases. -/
def State.releaseSrc (s : State) (n b : Nat) : State := (s.clrBitAt (CH_SAFE_SRC n) b).parkBit n

/-- Bits whose release falls due at tick `t` in the agenda. -/
def State.releasing (s : State) (n t : Nat) : Nat :=
  (s.later.filter (fun x => x.1 == t)).foldl (fun m x => match x.2 with
    | .hold n' b false => if n' = n then m ||| 2 ^ b else m
    | _ => m) 0

/-- Is the blanking timer running at an instant, in 12.5 ns steps since tick 0 (R218)? -/
def State.blankOn (s : State) (n inst : Nat) : Bool :=
  match (s.chan n).blank.ends with
  | some e => inst < e
  | none => false

/-! ### Windows -/

/-- Index of a window: V 0, I 1. -/
def winIx : Win → Nat
  | .v => 0
  | .i => 1
def ChSt.win (c : ChSt) (w : Win) : WinSt := match w with | .v => c.winV | .i => c.winI
def State.win (s : State) (n : Nat) (w : Win) : WinSt := (s.chan n).win w
def State.updWin (s : State) (n : Nat) (w : Win) (f : WinSt → WinSt) : State :=
  s.updChan n (fun c => match w with | .v => { c with winV := f c.winV } | .i => { c with winI := f c.winI })

/-- ROUTE bits of a window in the active structure (Table 02-7). -/
def State.route (s : State) (n : Nat) (w : Win) : Nat := match w with | .v => (s.desc n).routeV | .i => (s.desc n).routeI

/-- Index to window. -/
def winOf (w : Nat) : Win := if w = 0 then .v else .i

/-- Is a window in self-check, under trim, or not yet acting again (R226, R300)? -/
def State.winTesting (s : State) (n : Nat) (w : Win) : Bool :=
  let x := s.win n w
  x.test != 0 || x.trim || s.tick < x.actFrom

/-- Is a window masked at an instant (Routes; R218, R226)? -/
def State.winMasked (s : State) (n : Nat) (w : Win) (inst : Nat) : Bool :=
  (s.lbit (WIN_CTL n (winIx w)) fWIN_CTL_BLANK && s.blankOn n inst) || s.winTesting n w

/-- A latch is OUT. -/
def State.latchOut (s : State) (n : Nat) (w : Win) (hi : Bool) : Bool :=
  s.bit (WIN_STAT n (winIx w)) (if hi then fWIN_STAT_HI_OUT else fWIN_STAT_LO_OUT)
/-- Is a window outside (R214)? -/
def State.outside (s : State) (n : Nat) (w : Win) : Bool := s.latchOut n w true || s.latchOut n w false

/-- Put a latch OUT or INSIDE. -/
def State.setLatch (s : State) (n : Nat) (w : Win) (hi out : Bool) : State :=
  s.setBit (WIN_STAT n (winIx w)) (if hi then fWIN_STAT_HI_OUT else fWIN_STAT_LO_OUT) out

/-- Trip inputs of channel n asserted now by windows (PG_TRIP_SRC.NOW bits 0 to 4), at an instant (R222). -/
def State.tripInputs (s : State) (n inst : Nat) : Nat :=
  let own (w : Win) (hi : Bool) : Bool :=
    s.latchOut n w hi && !s.winMasked n w inst && s.route n w % 4 != 0
  let quad := (quadChans (n / 4)).any (fun m => m != n &&
    [Win.v, Win.i].any (fun w => s.outside m w && !s.winMasked m w inst && (s.route m w).testBit 1))
  (own .v true).toNat + 2 * (own .v false).toNat + 4 * (own .i true).toNat + 8 * (own .i false).toNat + 16 * quad.toNat

/-- Keep PG_TRIP_SRC.NOW. -/
def State.refreshNow (s : State) (n inst : Nat) : State :=
  s.setFld (PG_TRIP_SRC n) fPG_TRIP_SRC_NOW (s.fld (PG_TRIP_SRC n) fPG_TRIP_SRC_NOW / 32 * 32 + s.tripInputs n inst)

/-! ### The trip latch (R222) -/

/-- End a pulse run by a trip. -/
def State.abortRun (s : State) (n : Nat) : State :=
  if (s.chan n).pg.run.isSome then
    let s1 := s.updChan n (fun c => { c with pg := { c.pg with run := none } })
    ((s1.raise (PG_STAT n) fPG_STAT_ABORTED).setBit (PG_STAT n) fPG_STAT_ARMED false).setBit (PG_STAT n) fPG_STAT_ACTIVE false
  else s

/-- Set the trip latch of channel n by cause b; `fine` is the recorded cycle, `lane` the lane for cause 4. A cause that comes
while the latch is set only adds its SEEN bit. The source TRIP is selected by the caller. -/
def State.setTrip (s : State) (n b lane fine : Nat) : State :=
  let s0 := s.setBitAt (PG_TRIP_SRC n) (16 + b)
  if s.bit (PG_STAT n) fPG_STAT_TRIPPED then s0
  else
    let s1 := ((s0.abortRun n).raise (PG_STAT n) fPG_STAT_TRIPPED).setFld (PG_TRIP_SRC n) fPG_TRIP_SRC_LAST b
    let s2 := if b = 4 then s1.setFld (PG_TRIP_SRC n) fPG_TRIP_SRC_QUAD_LANE lane else s1
    let s3 := ((s2.wr64 (PG_TRIP_STAMP_LO n) s.now).setFld (PG_TRIP_FINE n) fPG_TRIP_FINE_CYCLE fine).incSat (PG_TRIP_CNT n) fWord
    let ctl := s.lv (PG_REL_CTL n)
    let most := max 1 (fPG_REL_CTL_MAX.get ctl)
    let out := decide (most ≤ s.fld (PG_STAT n) fPG_STAT_AUTO_COUNT)
    let s4 := (s3.updChan n (fun c => { c with pg := { c.pg with quiet := 0, exhausted := out } })).raiseIf out (PG_STAT n)
      fPG_STAT_AUTO_EXHAUSTED
    (s4.logEv 1 (16 + b) 2 (PG_TRIP_SRC n) n (s.now / 2 ^ 32)).chEvent n fCH_INT_STAT_TRIP

/-- An asynchronous trip input asserted: the latch and, at once, source TRIP (R208); a latch already set takes its SEEN bit only
(R222). -/
def State.tripAsync (s : State) (n b lane cyc : Nat) : State :=
  if s.pwr (n / 32) = 0 then s
  else
    let s1 := s.setTrip n b lane cyc
    let s2 := if s.bit (PG_STAT n) fPG_STAT_TRIPPED then s1 else s1.holdSrc n srcTrip
    s2.updChan n (fun c => { c with pg := { c.pg with asyncSeen := true } })

/-- A synchronous trip raised in the present period: the latch in its cycle 399, the safe code at the next tick. A latch already set takes
its SEEN bit only (R222). -/
def State.tripSync (s : State) (n b : Nat) : State :=
  let s0 := s.setTrip n b 0 0
  let s1 := if s.bit (PG_STAT n) fPG_STAT_TRIPPED then s0 else s0.after (s.tick + 1) (.hold n srcTrip true)
  (s1.setBitAt (PG_TRIP_SRC n) b).updChan n (fun c => { c with pg := { c.pg with syncCause := true } })

/-- Assert FAULT_N and send a chain fault message at the next tick (Table 10-2, Table 06-1, R211). -/
def State.faultNext (s : State) (cause : Nat) : State := s.after (s.tick + 1) (.fault cause)

/-! ### A window acts on its routes (R216) -/

/-- Latches of a window that are OUT now (true: high), the high one first. -/
def State.latchesOut (s : State) (n : Nat) (w : Win) : List Bool := [true, false].filter (s.latchOut n w)

/-- A window that is outside and not masked acts for the latches `his` that are newly OUT or newly unmasked: stickies, EVENT, trips, and
once per episode FAULT. Where both assert at one instant the high latch is taken first, so that LAST names it (DESIGN CHOICE,
assumption 50). -/
def State.windowActs (s : State) (n : Nat) (w : Win) (his : List Bool) (cyc : Nat) : State :=
  let a := WIN_STAT n (winIx w)
  let r := s.route n w
  let s1 := ((s.raiseIf (his.contains true) a fWIN_STAT_SEEN_HI).raiseIf (his.contains false) a fWIN_STAT_SEEN_LO).raiseIf (r != 0) a
    fWIN_STAT_ACTED
  let s2 := if r % 4 != 0 then s1.over his (fun t hi => t.tripAsync n (2 * winIx w + (if hi then 0 else 1)) 0 cyc) else s1
  let s3 := if r.testBit 1 then
      s2.over ((quadChans (n / 4)).filter (· != n)) (fun t m => t.tripAsync m 4 (n % 4) cyc)
    else s2
  let x := s.win n w
  let s4 := if r.testBit 3 && !x.faulted then
      (s3.faultNext 8).logEv 1 11 3 a n 0
    else s3
  s4.updWin n w (fun x => { x with episode := true, seen := true, faulted := x.faulted || r.testBit 3 })

/-- Keep WIN_x_STAT.MASKED and PG_TRIP_SRC.NOW of a channel and its quad; a latch OUT while masked is noted (R216). -/
def State.refreshWin (s : State) (n inst : Nat) : State :=
  let m (s : State) (w : Win) : State :=
    (s.setBit (WIN_STAT n (winIx w)) fWIN_STAT_MASKED (s.winMasked n w inst)).raiseIf (s.winMasked n w inst && s.outside n w)
      (WIN_STAT n (winIx w)) fWIN_STAT_BLANKED_OUT
  (quadChans (n / 4)).foldl (fun t k => t.refreshNow k inst) (m (m s .v) .i)

/-- Latches moved to OUT, or lost their mask, at cycle `cyc` of the present period: the window acts for them unless it is masked. -/
def State.windowJudge (s : State) (n : Nat) (w : Win) (his : List Bool) (cyc inst : Nat) : State :=
  (if his.isEmpty || s.winMasked n w inst then s else s.windowActs n w his cyc).refreshWin n inst

/-- A window whose mask has ended, or whose route has changed, acts for every latch that is OUT (R216, R219, R226). -/
def State.windowFree (s : State) (n : Nat) (w : Win) (cyc inst : Nat) : State := s.windowJudge n w (s.latchesOut n w) cyc inst

/-! ### Blanking (R218, R219) -/

/-- The blanking timer is at 0 from an instant on: windows that obey it and are outside act (R219). -/
def State.endBlank (s : State) (n cyc inst : Nat) : State :=
  let s1 := (s.updChan n (fun c => { c with blank := { ends := none } })).wr (WIN_BLANK_NOW n) 0
  let judge (s : State) (w : Win) : State :=
    if s.lbit (WIN_CTL n (winIx w)) fWIN_CTL_BLANK then s.windowFree n w cyc inst else s
  (judge (judge s1 .v) .i).refreshWin n inst

/-- Load the blanking timer at an instant in 12.5 ns steps since tick 0, at a tick. A reload with LEN = 0 takes a running timer to 0
(R218, R219). -/
def State.loadBlank (s : State) (n inst : Nat) : State :=
  let len := s.lfld (WIN_BLANK_LEN n) fWIN_BLANK_LEN_LEN
  if len = 0 then (if s.blankOn n inst then s.endBlank n 0 inst else s)
  else
    let s1 := s.updChan n (fun c => { c with blank := { ends := some (inst + len) } })
    ((s1.setFld (WIN_BLANK_NOW n) fWIN_BLANK_NOW_REMAIN len).raise (WIN_BLANK_NOW n) fWIN_BLANK_NOW_ACTIVE).refreshWin n inst

/-- A blanking event of Table 10-4 whose bit is armed. -/
def State.blankEvent (s : State) (n b inst : Nat) : State :=
  if (s.lfld (WIN_BLANK_CTL n) fWIN_BLANK_CTL_SRC).testBit b then s.loadBlank n inst else s

/-! ### Tied comparators (R226, R227, R300) -/

/-- Thresholds and hysteresis of a window in units of 1/128 mV: TH_HI, TH_LO, H (R213, R214). -/
def State.thresholds (s : State) (n : Nat) (w : Win) : Int × Int × Int :=
  let th := s.lv (WIN_TH n (winIx w))
  let h := s.lfld (WIN_CTL n (winIx w)) fWIN_CTL_HYS
  (256 * signed 12 (fWIN_TH_TH_HI.get th), 256 * signed 12 (fWIN_TH_TH_LO.get th),
    128 * (if h = 0 then 0 else if h = 1 then 4 else if h = 2 then 8 else 16))

/-- The comparator is enabled (WIN_x_CTL). -/
def State.cmpEnabled (s : State) (n : Nat) (w : Win) (hi : Bool) : Bool :=
  s.lbit (WIN_CTL n (winIx w)) (if hi then fWIN_CTL_EN_HI else fWIN_CTL_EN_LO)

/-- A step of AUTO can be run: its tie level is a code (R227). -/
def State.autoLevel (s : State) (n : Nat) (w : Win) (k : Nat) : Option Int :=
  let (hi, lo, h) := s.thresholds n w
  let x := if k = 1 then hi + h + 1024 else if k = 2 then lo - h - 1024 else (hi + lo) / 512 * 256
  if -2048 * 256 ≤ x && x ≤ 2047 * 256 then some x else none

/-- The level to which the comparators of a window are tied: LEVEL under TIE, the step's level in steps 1 to 3 of AUTO (R226, R227);
none where the input is not a level the test DAC gives. -/
def State.tieLevel (s : State) (n : Nat) (w : Win) : Option Int :=
  let x := s.win n w
  if x.test = 1 then some (256 * signed 12 (s.fld (WIN_TEST n (winIx w)) fWIN_TEST_LEVEL))
  else if x.test = 3 && x.step < 3 then s.autoLevel n w (x.step + 1)
  else none

/-- Does a window's comparator see an internal level rather than its balls? -/
def State.tied (s : State) (n : Nat) (w : Win) : Bool :=
  let x := s.win n w
  x.trim || x.test = 1 || (x.test = 3 && decide (x.step < 3))

/-- Latches of tied comparators follow Table 10-1 at their level, once they are no longer held INSIDE after OFF (R215). -/
def State.tieLatches (s : State) (n : Nat) (w : Win) : State :=
  match if (s.cluster (n / 32)).settling then none else s.tieLevel n w with
  | none => s
  | some x =>
    let (hi, lo, h) := s.thresholds n w
    let one (s : State) (b far near : Bool) : State :=
      s.setLatch n w b (s.cmpEnabled n w b && (far || (s.latchOut n w b && !near)))
    one (one s true (decide (hi + h < x)) (decide (x < hi))) false (decide (x < lo - h)) (decide (lo < x))

/-- Both latches of a window restart INSIDE (R215), and follow the level they are tied to. -/
def State.restartLatches (s : State) (n : Nat) (w : Win) : State := ((s.setLatch n w true false).setLatch n w false false).tieLatches n w

/-- A window returns to normal at tick t: it acts on its routes again two periods later (R226, R227, R300). -/
def State.winNormal (s : State) (n : Nat) (w : Win) (t : Nat) : State :=
  let s1 := s.updWin n w (fun x => { x with test := 0, step := 0, trim := false, actFrom := t + 2, episode := false, faulted := false })
  ((s1.restartLatches n w).after (t + 2) (.routeAct n (winIx w))).refreshWin n (40 * t)

end Sys2Proof.Machine
end

