-- ==== Sys2Proof/Machine/Halt.lean ====
section
/-!
DEFINITION. Shared operations of the halts (chapter 15) and of the Skidline ports (chapter 16): latching and releasing a halt, what
the ports send, violations.
-/

namespace Sys2Proof.Machine

/-! ### What the ports send (R335, R336) -/

/-- Chain position. -/
def State.pos (s : State) : Nat := s.fld SKL_STAT fSKL_STAT_POS
/-- The device has a position (R337): it keeps it until EN is cleared. -/
def State.placed (s : State) : Bool := s.bit SKL_CTL fSKL_CTL_EN && s.bit SKL_STAT fSKL_STAT_POS_VALID
/-- The device takes part in the chain: it has a position, and no conflict bars it (R337). -/
def State.part (s : State) : Bool := s.placed && !s.skl.barred
/-- Is a port up? -/
def State.portUp (s : State) (dn : Bool) : Bool := s.bit SKL_STAT (if dn then fSKL_STAT_DN_OK else fSKL_STAT_UP_OK)
def State.updSkl (s : State) (f : SklSt → SklSt) : State := { s with skl := f s.skl }
/-- Set a bit of SKL_INT_STAT (vector 6). -/
def State.sklEvent (s : State) (f : Fld) : State := s.withVec 6 (fun t => t.raise SKL_INT_STAT f)

/-- The hub's scan segment is in test mode: the Skidline pairs follow their cells, and nothing of the ports' own is sent (R403, R405). -/
def State.hubTest (s : State) : Bool := s.jtag.test.testBit 16

/-- Send a frame on a port: its SEQ is one above the last one sent there. -/
def State.sendFrame (s : State) (dn : Bool) (src : Nat) (stomped : Bool) (m : SklMsg) : State :=
  if s.hubTest then s
  else s.updSkl (fun k =>
    let q := ((if dn then k.txDn else k.txUp) + 1) % 256
    let k' := if dn then { k with txDn := q } else { k with txUp := q }
    { k' with out := k.out ++ [⟨dn, src, q, stomped, m⟩] })

/-- Send an ordered set on a port. -/
def State.sendSet (s : State) (dn : Bool) (m : SklMsg) : State :=
  if s.hubTest then s
  else s.updSkl (fun k => { k with out := k.out ++ [⟨dn, match m with | .haltSet o => o | .faultSet o => o | _ => 0, 0, false, m⟩] })

/-- The place of a frame of the device's own among those that wait (R336): TIME, SHARE, SUM, RELEASE, NACK, ENUM; 0 for what never
waits. -/
def SklMsg.rank : SklMsg → Nat
  | .time _ _ _ => 1
  | .share _ => 2
  | .sum _ => 3
  | .release _ => 4
  | .nack _ _ => 5
  | .enum _ => 6
  | .haltSet _ | .faultSet _ => 0

/-- An own frame `m` of device `pos` on a port may go ahead of what `x` is: an own frame of a later rank there, or anything of the other
port. -/
def SklSent.behind (x : SklSent) (pos : Nat) (dn : Bool) (m : SklMsg) : Bool :=
  x.dn != dn || (x.src == pos && !x.stomped && decide (m.rank < x.msg.rank))

/-- What of a period's frames goes out after an own frame `m` on a port. -/
def ownLater (out : List SklSent) (pos : Nat) (dn : Bool) (m : SklMsg) : List SklSent :=
  (out.reverse.takeWhile (fun x => x.behind pos dn m)).reverse

/-- A period's frames with an own frame `m` put among them, whose port has sent SEQ `q` last: the own frames of a later rank with which
the list ends on that port go out after it (R336). DESIGN CHOICE (assumption 34): frames that nothing foreign separates wait together. -/
def ownOut (out : List SklSent) (pos : Nat) (dn : Bool) (m : SklMsg) (q : Nat) : List SklSent :=
  let later := ownLater out pos dn m
  let n := (later.filter (fun x => x.dn == dn)).length
  out.take (out.length - later.length) ++ ⟨dn, pos, (q + 1 + 256 - n % 256) % 256, false, m⟩ ::
    later.map (fun x => if x.dn == dn then { x with seq := (x.seq + 1) % 256 } else x)

/-- Send a frame of the device's own on a port, in R336's order. -/
def State.sendOwn (s : State) (dn : Bool) (m : SklMsg) : State :=
  if s.hubTest then s
  else s.updSkl (fun k =>
    let q := if dn then k.txDn else k.txUp
    let k' := if dn then { k with txDn := (q + 1) % 256 } else { k with txUp := (q + 1) % 256 }
    { k' with out := ownOut k.out s.pos dn m q })

/-- A frame of the device's own on both ports. -/
def State.sendBoth (s : State) (m : SklMsg) : State :=
  if s.part then (s.sendOwn false m).sendOwn true m else s

/-- A HALT set on both ports (R340). -/
def State.sendHalt (s : State) : State :=
  if s.part then (s.sendSet false (.haltSet s.pos)).sendSet true (.haltSet s.pos) else s
/-- A FAULT set on both ports (R342). -/
def State.sendFault (s : State) : State :=
  if s.part then (s.sendSet false (.faultSet s.pos)).sendSet true (.faultSet s.pos) else s

/-! ### Halts (R321, R322, R325, R340, R341) -/

/-- The three latches of a halt. -/
inductive HaltBy where
  | doorbell | ball | chain
deriving DecidableEq, Repr

/-- Bit of a latch in HUB_HALT_STAT; its SEEN bit lies seven above. -/
def HaltBy.bit : HaltBy → Nat
  | .doorbell => 1
  | .ball => 2
  | .chain => 3

def State.halted (s : State) : Bool := s.bit HUB_HALT_STAT fHUB_HALT_STAT_HALTED

/-- The halt wires of channel n's tile are asserted by an isolation or a reset in progress (R392, R377). -/
def State.wired (s : State) (n : Nat) : Bool := s.hub.resetAt.isSome || s.hub.isoAt.any (fun x => x.1 == n / 128)

/-- Source HALT holds on every channel, or stops holding on those whose halt wires nothing else asserts. -/
def State.haltAll (s : State) (on : Bool) : State :=
  s.over (List.range 512) (fun t n => if on then t.holdSrc n srcHalt else if t.wired n then t else t.releaseSrc n srcHalt)

/-- Latch a halt, asynchronously (R321, R322): a doorbell undoes a release that has not acted yet (R325), a HALT set those of the chain
halt (R341). After HALT_N the release is judged at its tick. -/
def State.haltLatch (s : State) (by_ : HaltBy) : State :=
  let s0 := { s with later := s.later.filter (fun x => match x.2 with
    | .haltRelease => by_ != HaltBy.doorbell
    | _ => true) }
  let s1 := if by_ = HaltBy.chain then s0.updSkl (fun k => { k with release := [] }) else s0
  let s2 := ((s1.haltAll true).setBitAt HUB_HALT_STAT by_.bit).setBitAt HUB_HALT_STAT (by_.bit + 7)
  let s3 := (s2.raise HUB_HALT_STAT fHUB_HALT_STAT_HALTED).wr64 HUB_HALT_STAMP_LO s.now
  (if by_ = HaltBy.doorbell then s3 else s3.logEv 0xC (by_.bit + 7) 2 HUB_HALT_STAT 0 0).hubEvent fHUB_INT_STAT_HALT

/-- Would the present latches, without those named, hold any longer? -/
def State.haltLeft (s : State) (without : List Nat) : Bool :=
  [1, 2, 3].any (fun b => !without.contains b && (s.rd HUB_HALT_STAT).getLsbD b)

/-- Release latches at the present tick (R325, R341): source HALT stops holding when none is left. -/
def State.haltDrop (s : State) (bits : List Nat) : State :=
  if !bits.any (fun b => (s.rd HUB_HALT_STAT).getLsbD b) then s
  else
    let s1 := bits.foldl (fun t b => t.clrBitAt HUB_HALT_STAT b) s
    let s2 := if s1.haltLeft [] then s1 else (s1.haltAll false).setBit HUB_HALT_STAT fHUB_HALT_STAT_HALTED false
    s2.logEv 0xC 0 0 0 0 0

/-- Source HALT stops holding at the coming tick, so that engines restart in the present period (R325). -/
def State.haltRestart (s : State) : Bool :=
  let host := s.later.any (fun x => x.1 == s.tick + 1 && match x.2 with | .haltRelease => true | _ => false) &&
    !s.bit HUB_HALT_STAT fHUB_HALT_STAT_BALL_LOW
  let chain := s.skl.release.any s.due
  s.halted && (host || chain) && !s.haltLeft ((if host then [1, 2] else []) ++ (if chain then [3] else []))

end Sys2Proof.Machine
end

