-- ==== Sys2Proof/Machine/Window.lean ====
section
/-!
DEFINITION. Windows, blanking, self-check, the pulse generator and trip release: the meanings of the rows of chapter 10.
-/

namespace Sys2Proof.Machine

/-! ### Comparators and blanking -/

/-- Instant of a core clock cycle of the present period in 12.5 ns steps since tick 0. -/
def State.inst (s : State) (cyc : Nat) : Nat := 40 * s.tick + cyc / 10

/-- COMPARATOR_OUT (R214, R216): an enabled, powered and settled comparator's latch goes OUT, and the window acts unless it is
masked. A tied comparator does not see its balls (R226). -/
def execComparatorOut (n : Ch) (w : Win) (hi : Bool) (cyc : Nat) (s : State) : Out :=
  if s.pwr (n / 32) = 0 || (s.cluster (n / 32)).settling || !s.cmpEnabled n w hi || s.tied n w then .next s
  else .next ((s.setLatch n w hi true).windowJudge n w [hi] cyc (s.inst cyc))

/-- COMPARATOR_INSIDE (R214): a latch returns INSIDE; with both INSIDE the window's episode ends. -/
def execComparatorInside (n : Ch) (w : Win) (hi : Bool) (cyc : Nat) (s : State) : Out :=
  if s.tied n w then .next s
  else
    let s1 := s.setLatch n w hi false
    let s2 := if s1.outside n w then s1 else s1.updWin n w (fun x => { x with episode := false, faulted := false })
    .next (s2.refreshWin n (s.inst cyc))

/-- COMPARATOR_SETTLED (R215): the latches of the cluster are no longer held INSIDE; those of tied comparators follow their level. -/
def execComparatorSettled (g : Clu) (s : State) : Out :=
  .next ((s.updCluster g (fun c => { c with settling := false })).over (chansOf g) (fun t n =>
    if t.pwr (n / 32) = 0 then t else (t.tieLatches n .v).tieLatches n .i))

/-- MANUAL_BLANK (R218): a MANUAL blanking event at tick k+2. -/
def execManualBlank (n : Ch) (s : State) : Out := s.toTile (n / 128) (WIN_BLANK_GO n) fun s => .next (s.after (s.tick + 2) (.blank n))

/-- BLANKING_END (R219). -/
def execBlankingEnd (n : Ch) (cyc : Nat) (s : State) : Out :=
  match (s.chan n).blank.ends with
  | some e => if e ≤ s.inst cyc then .next (s.endBlank n cyc (s.inst cyc)) else .next s
  | none => .next s

/-! ### Self-check (R226, R227) -/

/-- The other window of a channel. -/
def otherWin : Win → Win
  | .v => .i
  | .i => .v

/-- A window is in a test, or a test of it awaits its tick. -/
def State.inTest (s : State) (n : Nat) (w : Win) : Bool :=
  (s.win n w).test != 0 || (s.win n w).trim || s.later.any (fun x => match x.2 with
    | .winTest n' w' m => n' == n && w' == winIx w && m != 0
    | _ => false)

/-- WINDOW_TEST (R226): a write of WIN_x_TEST; the mode acts at tick k+2. -/
def execWindowTest (n : Ch) (w : Win) (data : Word) (be : Nat) (s : State) : Out := s.toTile (n / 128) (WIN_TEST n (winIx w)) fun s =>
  let a := WIN_TEST n (winIx w)
  let m := beMask be &&& 0x0FFF0003
  let v := (s.rd a &&& ~~~m) ||| (data &&& m)
  let mode := fWIN_TEST_MODE.get v
  if mode != 0 && (s.inTest n (otherWin w) || s.pwr (n / 32) = 0) then
    .next (s.raise (WIN_TEST_STAT n (winIx w)) fWIN_TEST_STAT_REFUSED)
  else .next ((s.wr a v).after (s.tick + 2) (.winTest n (winIx w) mode))

/-- A window enters a test mode, or returns to normal, at the present tick (R226). Its latches restart when it enters self-check and at a
step of AUTO; in a test already in progress they follow the new level (R215, R227). -/
def State.enterTest (s : State) (n : Nat) (w : Win) (mode : Nat) : State :=
  let a := WIN_TEST_STAT n (winIx w)
  if mode = 0 then
    if (s.win n w).test = 0 then s else (s.setBit a fWIN_TEST_STAT_BUSY false).winNormal n w s.tick
  else
    let s1 := (s.updWin n w (fun x => { x with test := mode, step := 0, autoStart := s.tick, episode := false, faulted := false })).raise a
      fWIN_TEST_STAT_BUSY
    let s2 := if mode = 3 then s1.setFld a ⟨8, 8⟩ 0 else s1
    (if mode = 3 || (s.win n w).test = 0 then s2.restartLatches n w else s2.tieLatches n w).refreshWin n (40 * s.tick)

/-- Result code of step k of AUTO (R227): 1 PASS, 2 FAIL, 3 NEAR or SKIPPED. -/
def State.autoResult (s : State) (n : Nat) (w : Win) (k : Nat) : Nat :=
  let (hi, lo, h) := s.thresholds n w
  let verdict (skip : Bool) (eHi eLo : Bool) : Nat :=
    if skip then 3 else if s.latchOut n w true = eHi && s.latchOut n w false = eLo then 1 else 2
  if k ≤ 3 then verdict (s.autoLevel n w k).isNone (k == 1) (k == 2)
  else
    let x := -(match w with | .v => (s.chan n).smp.vcode | .i => (s.chan n).smp.icode)
    let near := (x - hi).natAbs ≤ h.natAbs + 1024 || (x - lo).natAbs ≤ h.natAbs + 1024
    verdict near (decide (hi + h < x)) (decide (x < lo - h))

/-- AUTO_TEST_STEP_END (R227): a step of eight periods ends at the coming tick. Every FAIL sets the sticky; the run's first one makes the
log entry. -/
def execAutoTestStepEnd (n : Ch) (w : Win) (s : State) : Out :=
  let x := s.win n w
  let k := x.step + 1
  if x.test = 3 && s.tick + 1 = x.autoStart + 8 * k && k ≤ 4 then
    let a := WIN_TEST_STAT n (winIx w)
    let r := s.autoResult n w k
    let s1 := s.setFld a ⟨6 + 2 * k, 2⟩ r
    let first := !((List.range (k - 1)).any (fun i => s.fld a ⟨8 + 2 * i, 2⟩ == 2))
    let s2 := s1.raiseIf (r == 2) a fWIN_TEST_STAT_FAIL
    let s3 := if r = 2 && first then s2.logEvAt s.nextStamp 1 17 2 a n 0 else s2
    if k = 4 then
      let s4 := (s3.setFld (WIN_TEST n (winIx w)) fWIN_TEST_MODE 0).winNormal n w (s.tick + 1)
      .next ((s4.raise a fWIN_TEST_STAT_DONE).setBit a fWIN_TEST_STAT_BUSY false)
    else .next (((s3.updWin n w (fun x => { x with step := k })).restartLatches n w).refreshWin n (40 * (s.tick + 1)))
  else .next s

/-! ### Pulse generator (R220, R221) -/

/-- Length in 12.5 ns steps of a count in units of PG_CTL.UNIT. -/
def PgRun.steps (r : PgRun) (x : Nat) : Nat := if r.unit then x else 40 * x
/-- A pulse's length. -/
def PgRun.len (r : PgRun) : Nat := r.steps r.width
/-- Distance of pulses under STAMP; a PERIOD below WIDTH acts as WIDTH. -/
def PgRun.dist (r : PgRun) : Nat := max 1 (max (r.steps r.period) r.len)
/-- Pulses of a run; none: without limit. -/
def PgRun.pulses (r : PgRun) : Option Nat := if r.rep then (if r.count = 0 then none else some r.count) else some 1

/-- Overlap of [a, a + len) with [x, x + 40). -/
def overlap (a len x : Nat) : Nat := min (a + len) (x + 40) - max a x

/-- Overlap in steps of the run's pulses with the interval of the tick `x` steps after T0. -/
def PgRun.ov (r : PgRun) (x : Nat) : Nat :=
  if r.marker then r.starts.foldl (fun a t => a + overlap t r.len x) 0
  else
    let d := r.steps r.delay
    let m0 := (x - d - r.len) / r.dist
    ((List.range 43).map (m0 + ·)).foldl (fun a m =>
      if (match r.pulses with | some c => decide (m < c) | none => true) then a + overlap (d + m * r.dist) r.len x else a) 0

/-- The pulse term of the tick `x` steps after T0 (R220). -/
def PgRun.term (r : PgRun) (x : Nat) : Int := rha (r.amp * r.ov x) 40

/-- Have all pulses of the run ended by `x` steps after T0? -/
def PgRun.over (r : PgRun) (x : Nat) : Bool :=
  match r.pulses with
  | none => false
  | some c =>
    if r.marker then r.starts.length == c && r.starts.all (fun t => t + r.len ≤ x)
    else c = 0 || r.steps r.delay + (c - 1) * r.dist + r.len ≤ x

/-- The track that feeds a channel's setpoint path (Table 02-6). -/
def State.feedTrack (s : State) (n : Nat) : Nat := n / 32 * 32 + (s.desc n).track

/-- The coming tick's sample of the track of channel n carries marker bit b after a sample without it. -/
def State.markerEdge (s : State) (track b : Nat) : Bool :=
  let t := s.trk track
  t.marks.testBit b && !t.marksNow.testBit b

/-- T0 of the channel's run if it is, or falls at, the coming tick (R221). -/
def State.pgT0 (s : State) (n : Nat) (r : PgRun) : Option Nat :=
  match r.t0 with
  | some t => some t
  | none =>
    if r.marker then
      (if r.due.notBefore ≤ s.tick + 1 && s.markerEdge (s.feedTrack n) r.mkr then some (s.tick + 1) else none)
    else if s.due r.due then some (s.tick + 1) else none

/-- The run with the pulse that a marker edge at the coming tick starts, and whether the edge was missed (R221). -/
def State.pgEdge (s : State) (n : Nat) (r : PgRun) : PgRun × Bool :=
  match s.pgT0 n r with
  | none => (r, false)
  | some t0 =>
    if r.marker && s.markerEdge (s.feedTrack n) r.mkr then
      let x := 40 * (s.tick + 1 - t0)
      let full := match r.pulses with | some c => decide (c ≤ r.starts.length) | none => false
      if r.starts.any (fun t => x < t + r.len) then (r, true)
      else if full then (r, false)
      else ({ r with starts := (x + r.steps r.delay) :: r.starts }, false)
    else (r, false)

/-- The pulse term of the coming tick (R220, R221). -/
def State.pgTerm (s : State) (n : Nat) : Int :=
  match (s.chan n).pg.run with
  | none => 0
  | some r =>
    if (match r.stopAt with | some t => decide (t ≤ s.tick + 1) | none => false) then 0
    else
      let r' := (s.pgEdge n r).1
      match s.pgT0 n r with
      | some t0 => r'.term (40 * (s.tick + 1 - t0))
      | none => 0

/-- PG_START (R221). -/
def execPgStart (n : Ch) (at_ : Bool) (s : State) : Out := s.toTile (n / 128) (PG_GO n) fun s =>
  if (s.chan n).pg.run.isSome then .next (s.raise (PG_STAT n) fPG_STAT_REFUSED)
  else
    let ctl := s.lv (PG_CTL n)
    let stamp := if at_ && fPG_CTL_START_SRC.get ctl = 0 then some (s.rd64 (PG_AT_LO n)) else none
    let r : PgRun := {
      unit := fPG_CTL_UNIT.get ctl != 0, marker := fPG_CTL_START_SRC.get ctl != 0, mkr := fPG_CTL_MKR.get ctl
      rep := fPG_CTL_REPEAT.get ctl != 0, amp := (s.lv (PG_AMP n)).toInt, delay := s.lfld (PG_DELAY n) fPG_DELAY_VALUE
      width := s.lfld (PG_WIDTH n) fPG_WIDTH_VALUE, period := s.lfld (PG_PERIOD n) fPG_PERIOD_VALUE
      count := (s.lv (PG_COUNT n)).toNat, due := s.sched stamp }
    let s1 := s.updChan n (fun c => { c with pg := { c.pg with run := some r } })
    .next (((s1.raise (PG_STAT n) fPG_STAT_ARMED).setFld (PG_STAT n) fPG_STAT_AUTO_COUNT 0).raiseIf (s.lateOpt stamp)
      (PG_STAT n) fPG_STAT_LATE)

/-- PG_RUN_BEGIN (R221): T0 is the coming tick. -/
def execPgRunBegin (n : Ch) (s : State) : Out :=
  match (s.chan n).pg.run with
  | some r =>
    match r.t0, s.pgT0 n r with
    | none, some t0 =>
      let starts := if r.marker then [r.steps r.delay] else []
      let s1 := s.updChan n (fun c => { c with pg := { c.pg with run := some { r with t0 := some t0, starts } } })
      .next ((s1.setBit (PG_STAT n) fPG_STAT_ARMED false).raise (PG_STAT n) fPG_STAT_ACTIVE)
    | _, _ => .next s
  | none => .next s

/-- PG_STOP (R221): p = 0 from tick m+2, and the run ends. -/
def execPgStop (n : Ch) (s : State) : Out := s.toTile (n / 128) (PG_GO n) fun s =>
  match (s.chan n).pg.run with
  | some r => .next (s.updChan n (fun c => { c with pg := { c.pg with run := some { r with stopAt := r.stopAt.or (some (s.tick + 2)) } } }))
  | none => .next s

/-- End a run at the present tick: after its last pulse with DONE, or by a STOP (PG_RUN_DONE, R221). -/
def State.pgTickEnd (s : State) (n : Nat) : State :=
  match (s.chan n).pg.run with
  | none => s
  | some r =>
    let stop := match r.stopAt with | some t => decide (t ≤ s.tick) | none => false
    let done := match r.t0 with | some t0 => r.over (40 * (s.tick - t0)) | none => false
    if stop || done then
      let s1 := s.updChan n (fun c => { c with pg := { c.pg with run := none } })
      let s2 := (s1.setBit (PG_STAT n) fPG_STAT_ARMED false).setBit (PG_STAT n) fPG_STAT_ACTIVE false
      s2.raiseIf (done && !stop) (PG_STAT n) fPG_STAT_DONE
    else s

/-! ### Trip release (R223, R224) -/

/-- Ask for a release of the trip latch at tick k+2; a pending release keeps its tick (R223). -/
def State.askRelease (s : State) (n : Nat) (host : Bool) : State :=
  s.updChan n (fun c => { c with pg := { c.pg with release := match c.pg.release with
    | some (t, h) => some (t, h || host)
    | none => some (s.tick + 2, host) } })

/-- PG_RELEASE (R223). A request that comes while a release is pending joins it; the refusal is judged for the pending one. -/
def execPgRelease (n : Ch) (s : State) : Out := s.toTile (n / 128) (PG_GO n) fun s =>
  if !s.bit (PG_STAT n) fPG_STAT_TRIPPED then .next s
  else if (s.chan n).pg.release.isNone && s.tripInputs n (40 * s.tick) != 0 then .next (s.raise (PG_STAT n) fPG_STAT_RELEASE_REFUSED)
  else .next (s.askRelease n true)

/-- Has a period been quiet, judged at its end: no asynchronous trip input asserted, no synchronous cause raised (R224)? -/
def State.quietNow (s : State) (n inst : Nat) : Bool :=
  !(s.chan n).pg.syncCause && !(s.chan n).pg.asyncSeen && s.tripInputs n inst == 0

/-- AUTO_RELEASE (R224): decided in the last cycle of the present period. -/
def execAutoRelease (n : Ch) (s : State) : Out :=
  let ctl := s.lv (PG_REL_CTL n)
  let pg := (s.chan n).pg
  if fPG_REL_CTL_AUTO.get ctl != 0 && s.bit (PG_STAT n) fPG_STAT_TRIPPED && s.quietNow n (40 * s.tick + 39) &&
      max 1 (fPG_REL_CTL_HOLDOFF.get ctl) ≤ pg.quiet + 1 && !pg.exhausted then
    .next (s.askRelease n false)
  else .next s

/-- The release due at the present tick (R223): refused where a trip input is asserted or a synchronous cause was raised in the
period before; else the latch opens, source TRIP releases, the GUARD timer loads in RUN, a RELEASE blanking event occurs. -/
def State.releaseAt (s : State) (n : Nat) : State :=
  let pg := (s.chan n).pg
  match pg.release with
  | some (t, host) =>
    if t = s.tick then
      let s0 := s.updChan n (fun c => { c with pg := { c.pg with release := none } })
      if s.tripInputs n (40 * s.tick) != 0 || pg.syncCause then s0.raise (PG_STAT n) fPG_STAT_RELEASE_REFUSED
      else
        let s1 := (s0.releaseSrc n srcTrip).setBit (PG_STAT n) fPG_STAT_TRIPPED false
        let s2 := if s.inRun n then s1.updChan n (fun c => { c with eng := { c.eng with guardLoad := true } }) else s1
        let s3 := s2.blankEvent n 3 (40 * s.tick)
        if host then s3.setFld (PG_STAT n) fPG_STAT_AUTO_COUNT 0 else s3.incSat (PG_STAT n) fPG_STAT_AUTO_COUNT
    else s
  | none => s

end Sys2Proof.Machine
end

