-- ==== Sys2Proof/Machine/Sample.lean ====
section
/-!
DEFINITION. Calibrated samples (chapters 08 and 14): slice corrections, the Welt crossfade, board corrections and their
ramps, and the ranges they belong to.
-/

namespace Sys2Proof.Machine

/-! ### Quads and Welt slices (R290 to R292) -/

def State.quadSt (s : State) (q : Nat) : QuadSt := SMap.get {} s.quad q
def State.setQuad (s : State) (q : Nat) (x : QuadSt) : State := { s with quad := SMap.set {} s.quad q x }
def State.updQuad (s : State) (q : Nat) (f : QuadSt → QuadSt) : State := s.setQuad q (f (s.quadSt q))

/-- Kind of slice: 0 DAC, 1 V ADC, 2 I ADC. -/
def QuadSt.kind (x : QuadSt) (k : Nat) : KindSt := if k = 0 then x.dac else if k = 1 then x.v else x.i
def QuadSt.setKind (x : QuadSt) (k : Nat) (y : KindSt) : QuadSt :=
  if k = 0 then { x with dac := y } else if k = 1 then { x with v := y } else { x with i := y }

/-- Weight of the Welt slice of a kind on a lane at tick t, of 256 (R292). -/
def KindSt.weight (y : KindSt) (lane t : Nat) : Nat :=
  match y.fade with
  | some f =>
    if f.lane = lane && f.start ≤ t then
      let m := min 255 (t - f.start)
      if f.toWelt then m + 1 else 255 - m
    else if y.serve = lane then 256 else 0
  | none => if y.serve = lane then 256 else 0

/-- Does the Welt slice of a kind have the larger weight on a lane at tick t? At equal weights the outgoing set counts (R292). -/
def KindSt.weltMajor (y : KindSt) (lane t : Nat) : Bool :=
  match y.fade with
  | some f => if f.toWelt then decide (128 < y.weight lane t) else decide (128 ≤ y.weight lane t)
  | none => decide (128 < y.weight lane t)

/-- A crossfade is running on a lane at tick t. -/
def KindSt.fading (y : KindSt) (lane t : Nat) : Bool :=
  match y.fade with
  | some f => f.lane = lane && f.start ≤ t && t < f.start + 256
  | none => false

/-! ### Corrections (R298, R301, R306) -/

/-- The present value of a ramping correction (R301). -/
def Ramp.now (r : Ramp) : Int := r.start + (r.target - r.start) * r.k / 256
def Ramp.word (r : Ramp) : Word := if r.coef then toCoef r.now else wordOf (rhe r.now (2 ^ 98))

/-- A board correction as it acts: a ramp's present value, else the live word (R307). -/
def State.boardWord (s : State) (a : Nat) : Word :=
  match s.ramps.find? (fun r => r.addr == a) with
  | some r => r.word
  | none => s.lv a

/-- The corrected ball voltage of a slice's code (R298), exact. -/
def State.sliceVolt (s : State) (q sl : Nat) (code : Int) : Int :=
  (2 ^ 30 + (s.rd (QUAD_SL_GAIN q sl)).toInt) * code * 2 ^ 79 - ofQ (s.rd (QUAD_SL_OFS q sl)).toInt

/-- The calibrated sample of one slice: GAIN * u + OFFSET (R306), exact; `ix` is the correction's index. -/
def State.sliceSample (s : State) (n sl ix : Nat) (code : Int) : Int :=
  mulX (coefVal (s.boardWord (CAL_BOARD_GAIN n ix))) (s.sliceVolt (n / 4) sl code) +
    ofQ (s.boardWord (CAL_BOARD_OFFSET n ix)).toInt

/-- An end code of a slice (R179). -/
def endCode (c : Int) : Bool := 0x7FFFF ≤ c || c ≤ -0x80000

/-- One kind's sample of a channel. -/
structure KindSample where
  value : Int
  code : Int
  clip : Bool
  out : Bool
  welt : Bool
  /-- The Welt set's sample less the own set's. -/
  diff : Int
deriving DecidableEq, Repr

/-- The calibrated sample of kind k (1 V, 2 I) of channel n at the present tick (R177, R179, R292). -/
def State.kindSample (s : State) (n k ix : Nat) (own welt : Int) : KindSample :=
  let y := (s.quadSt (n / 4)).kind k
  let w := y.weight (n % 4) s.tick
  let xo := s.sliceSample n (3 * (n % 4) + k) ix own
  let xw := s.sliceSample n (12 + k) ix welt
  let x := (xw * w + xo * (256 - (w : Int))) / 256
  let c := if y.weltMajor (n % 4) s.tick then welt else own
  let ownClip := w < 256 && endCode own
  let clip := ownClip || (0 < w && endCode welt)
  let v := if clip then (if (if ownClip then own else welt) < 0 then -0x80000000 else 0x7FFFFFFF) else sat32 (rhe x (2 ^ 98))
  ⟨v, c, clip, decide (2 ^ 30 < v.natAbs), y.fading (n % 4) s.tick, xw - xo⟩

/-- The code a slice delivers at tick t: under chopping it negates the code of the exchanged inputs at odd ticks (R178). The negative of
the most negative code does not exist; the slice gives the most positive one (DESIGN CHOICE, assumption 49). -/
def chopCode (chop : Bool) (t : Nat) (c : Int) : Int := if chop && t % 2 = 1 then min 0x7FFFF (-c) else c

/-- Value of a sparse list of inputs; unlisted is 0. -/
def inputAt (xs : List (Nat × Int)) (k : Nat) : Int := ((xs.find? (fun x => x.1 == k)).map (·.2)).getD 0

/-! ### Ranges (R159, R160) -/

def State.irange (s : State) (n : Nat) : Nat := s.fld (CH_RANGE_NOW n) fCH_RANGE_NOW_IRANGE
def State.vrange (s : State) (n : Nat) : Nat := s.fld (CH_RANGE_NOW n) fCH_RANGE_NOW_VRANGE
/-- Live scale words. -/
def State.iScale (s : State) (n r : Nat) : Word := s.lv (CH_IRANGE_SCALE n r)
def State.vScale (s : State) (n v : Nat) : Word := s.lv (CH_VRANGE_SCALE n v)

/-- Is the present period in the blind interval of a current change in RUN (R165)? -/
def State.blind (s : State) (n : Nat) : Bool :=
  match (s.chan n).rng.prog with
  | some p => decide (p.j ≤ s.tick) && decide (s.tick < p.j + p.bl)
  | none => false

/-- The bridge's substitute current for the present period, from the samples of the two periods before (R166). -/
def State.bridge (s : State) (n : Nat) : Int :=
  match (s.chan n).rng.prog with
  | some p =>
    if p.modelled then
      let v1 := (s.chan n).smp.v
      let vp := 2 * v1 - (s.chan n).smp.vPrev
      sat32 (rhe (p.g0 * vp + p.c0 * (vp - v1)) (2 ^ 128))
    else p.nominal
  | none => 0

/-- What the bridge goes by as a channel enters RUN within a blind interval: the estimates its model is initialised with (R171). -/
def State.bridgeEntry (s : State) (n : Nat) : State :=
  if (s.chan n).eng.entry && s.blind n && (s.desc n).modelEn then
    s.updChan n (fun c => { c with rng := { c.rng with prog := c.rng.prog.map (fun p => { p with
      g0 := coefVal (s.lv (CH_MODEL_G_INIT n)), c0 := coefVal (s.lv (CH_MODEL_C_INIT n)), modelled := true }) } })
  else s

/-- The period is bridged without the model (R166). -/
def State.unmodelled (s : State) (n : Nat) : Bool :=
  s.blind n && s.inRun n && (match (s.chan n).rng.prog with | some p => !p.modelled | none => false)

/-- CTRL of the last period, substitutions included (R127). -/
def State.ctrl (s : State) (n : Nat) : Nat := s.fld (CH_LOOP_STAT n) fCH_LOOP_STAT_CTRL

/-- Phase base modes and states are in PHB_STAT (chapter 03). HOLDOVER is state code 3. -/
def State.inHoldover (s : State) : Bool := s.fld PHB_STAT fPHB_STAT_STATE == 3

/-- A crossfade of the DAC kind runs on channel n, or a takeover has become permanent since the last sample (R303, Table 08-4). -/
def State.weltMark (s : State) (n : Nat) : Bool :=
  let x := s.quadSt (n / 4)
  x.dac.fading (n % 4) s.tick || x.changed.contains (n % 4)

/-- Take the samples of channel n at the present tick (R177 to R179, Table 08-4): what the channel's converters deliver in IDLE
and RUN, with the flags of the converter status register. -/
def State.sampleChan (s : State) (n : Nat) (inp : TickIn) : State :=
  let old := (s.chan n).smp
  let a := CH_ADC_STAT n
  if !s.biased n then
    let s1 := s.updChan n (fun c => { c with smp := { vPrev := old.v, ctrl := 7 } })
    if s1.bit a fCH_ADC_STAT_CHOP_NOW then s1.setBit a fCH_ADC_STAT_CHOP_NOW false else s1
  else
    let ir := s.irange n
    let vr := s.vrange n
    let chop := s.lbit (CH_ADC_CTL n) fCH_ADC_CTL_CHOP
    let code (xs : List (Nat × Int)) (k : Nat) : Int := chopCode chop s.tick (inputAt xs k)
    let kv := s.kindSample n 1 (6 + vr) (code inp.v n) (code inp.weltV (n / 4))
    let ki := s.kindSample n 2 ir (code inp.i n) (code inp.weltI (n / 4))
    let s := s.bridgeEntry n
    let blind := s.blind n && s.inRun n
    let smp : Sample := {
      v := kv.value, i := ki.value, vcode := kv.code, icode := ki.code
      iUse := if blind then s.bridge n else ki.value
      accV := kv.value, accI := if blind then s.bridge n else ki.value, accIr := ir, accVr := vr, taken := true
      capV := kv.value, capI := ki.value
      rseq := (s.chan n).rng.seq, ir, vr, ctrl := s.ctrl n, vOver := kv.clip || kv.out, iOver := ki.clip || ki.out
      vPrev := old.v, bridged := blind, holdover := s.inHoldover, skip := s.phase.jump.isSome
      chop, welt := kv.welt || ki.welt || s.weltMark n }
    let acc (k : Nat) (y : KindSample) (s : State) : State :=
      if y.welt then s.updQuad (n / 4) (fun x => x.setKind k { x.kind k with diff := (x.kind k).diff + y.diff }) else s
    let s1 := acc 1 kv (acc 2 ki (s.updChan n (fun c => { c with smp })))
    ((((((s1.raiseIf (s.unmodelled n) (CH_RANGE_STAT n) fCH_RANGE_STAT_UNMODELLED).raiseIf kv.clip a fCH_ADC_STAT_V_CLIP).raiseIf ki.clip a fCH_ADC_STAT_I_CLIP).raiseIf kv.out a
      fCH_ADC_STAT_V_OVER).raiseIf ki.out a fCH_ADC_STAT_I_OVER).setBit a fCH_ADC_STAT_CHOP_NOW smp.chop)

end Sys2Proof.Machine
end

