-- ==== Sys2Proof/Machine/Range.lean ====
section
/-!
DEFINITION. Range changes under load (chapter 07): requests, the make, break and blind sequence, the range link, the rescale at
a range tick, automatic ranging; and the integrator transfer they share with coefficient bank swaps (R135).
-/

namespace Sys2Proof.Machine

/-! ### Coefficients and the transfer (R123, R134 to R137) -/

/-- Word w of slot k in a coefficient bank (Table 05-2). -/
def State.coef (s : State) (n bank k w : Nat) : Word :=
  let a := chBase n + 0x800 + 0x200 * bank + 0x80 * k + 4 * w
  match s.coefBad.find? (fun e => e.1 == a) with
  | some e => e.2
  | none => s.rd a
/-- The active coefficient bank. -/
def State.coefBank (s : State) (n : Nat) : Nat := s.fld (CH_COEF_STAT n) fCH_COEF_STAT_ACTIVE

def State.eng (s : State) (n : Nat) : EngSt := (s.chan n).eng
def State.updEng (s : State) (n : Nat) (f : EngSt → EngSt) : State := s.updChan n (fun c => { c with eng := f c.eng })
def EngSt.slot (e : EngSt) (k : Nat) : SlotSt := e.slots.getD k {}
def EngSt.setSlot (e : EngSt) (k : Nat) (x : SlotSt) : EngSt := { e with slots := e.slots.set k x }

/-- The feed-forward term of slot k for an auxiliary input a and second difference d2r (R122, R139), exact. -/
def State.ffTerm (s : State) (n bank k : Nat) (d : ChDesc) (a d2r : Int) : Int :=
  (if d.ffRail then mulX (coefVal (s.coef n bank k 2)) (ofQ (a - (s.lv (CH_RAIL_NOM n)).toInt)) else 0) +
  (if k = 0 && d.ffSp2 then mulX (coefVal (s.coef n bank 0 3)) (ofQ d2r) else 0)

/-- Transfer every present slot's integrator to bank `new` at the coming tick (R135); whether any was clamped. A slot
preloaded there receives none (R137); a second transfer there starts again from the integrator before the first (R169). -/
def State.transfer (s : State) (n new : Nat) : State × Bool :=
  let d := s.desc n
  if !s.inRun n || (s.eng n).entry then (s, false)
  else
    (List.range 4).foldl (fun (t, c) k =>
      let x := (t.eng n).slot k
      if !d.present k || x.preload then (t, c)
      else
        let ib := ibound (s.coef n new k 5)
        let i0 := x.base.getD x.i
        let i1 := i0 + x.p + x.f - mulX (coefVal (s.coef n new k 0)) x.e - s.ffTerm n new k d (s.eng n).aux (s.eng n).d2r
        let i2 := clampI (-ib) ib i1
        let t1 := t.updEng n (fun e => e.setSlot k { x with i := i2, base := some i0 })
        if i2 = i1 then (t1, c)
        else (((t1.raise (LOOP_SAT n k) fLOOP_SAT_I).raise (LOOP_SAT n k) fLOOP_SAT_I_NOW).setBitAt (CLU_ENG_SAT (n / 32)) (4 * k + 2),
          true)) (s, false)

/-- COEF_SWAP_REQUEST (R134, R138): host swap at tick k+2 or the stamp of CH_COEF_AT. -/
def execCoefSwapRequest (n : Ch) (at_ : Bool) (s : State) : Out := s.toTile (n / 128) (CH_COEF_SWAP n) fun s =>
  if (s.eng n).coefPend.isSome then .next (s.raise (CH_COEF_STAT n) fCH_COEF_STAT_REFUSED)
  else
    let stamp := if at_ then some (s.rd64 (CH_COEF_AT_LO n)) else none
    .next ((s.updEng n (fun e => { e with coefPend := some (s.sched stamp), coefLate := s.lateOpt stamp })).raise
      (CH_COEF_STAT n) fCH_COEF_STAT_PENDING)

/-- COEF_SWAP_CANCEL (R138). -/
def execCoefSwapCancel (n : Ch) (s : State) : Out := s.toTile (n / 128) (CH_COEF_SWAP n) fun s =>
  match (s.eng n).coefPend with
  | some d =>
    if s.due d then .next s
    else .next ((s.updEng n (fun e => { e with coefPend := none })).setBit (CH_COEF_STAT n) fCH_COEF_STAT_PENDING false)
  | none => .next s

/-- The active bank changes to `new`: ACTIVE and SWAPS. -/
def State.setCoefBank (s : State) (n new : Nat) : State :=
  (s.setFld (CH_COEF_STAT n) fCH_COEF_STAT_ACTIVE new).incWrap (CH_COEF_STAT n) fCH_COEF_STAT_SWAPS

/-- The coming tick is the range tick of channel n. -/
def State.rangeTickDue (s : State) (n : Nat) : Bool :=
  match (s.chan n).rng.prog with | some p => s.tick + 1 == p.j + p.bl | none => false

/-- COEF_SWAP_TICK (R135 to R137). Where the range tick falls on the same tick, its transfer is the only one (R169). -/
def execCoefSwapTick (n : Ch) (s : State) : Out :=
  match (s.eng n).coefPend with
  | some d =>
    if s.due d then
      let new := 1 - s.coefBank n
      let (s1, c) := if s.rangeTickDue n then (s, false) else s.transfer n new
      let s2 := (s1.updEng n (fun e => { e with coefPend := none })).setBit (CH_COEF_STAT n) fCH_COEF_STAT_PENDING false
      .next (((s2.setCoefBank n new).raiseIf c (CH_COEF_STAT n) fCH_COEF_STAT_CLAMPED).raiseIf (s.eng n).coefLate
        (CH_COEF_STAT n) fCH_COEF_STAT_LATE)
    else .next s
  | none => .next s

/-! ### Requests (R164, R172, R174) -/

def State.rng (s : State) (n : Nat) : RangeSt := (s.chan n).rng
def State.updRng (s : State) (n : Nat) (f : RangeSt → RangeSt) : State := s.updChan n (fun c => { c with rng := f c.rng })

/-- Refuse a range request. -/
def State.rangeRefuse (s : State) (n : Nat) (invalid : Bool) : State :=
  ((s.raise (CH_RANGE_STAT n) fCH_RANGE_STAT_REFUSED).raiseIf invalid (CH_RANGE_STAT n) fCH_RANGE_STAT_INVALID).chEvent n
    fCH_INT_STAT_RANGE

/-- A full scale of 0. -/
def zeroScale (w : Word) : Bool := (scaleOf w).1 == 0

/-- Does the current range exist and can be entered (R160)? -/
def State.irangeOk (s : State) (n r : Nat) : Bool :=
  decide (r < 6) && s.lbit (CH_IRANGE_CFG n r) fCH_IRANGE_CFG_EN && !zeroScale (s.iScale n r)

/-- The frames carry exactly the present range's SHUNT bit (R160). -/
def State.shuntsPlain (s : State) (n : Nat) : Bool := (s.rng n).shunts == 2 ^ s.irange n

/-- Put a request. -/
def State.rangePend (s : State) (n : Nat) (volt : Bool) (target : Nat) (stamp : Option Nat) : State :=
  let s1 := s.updRng n (fun r => { r with req := some ⟨volt, target, s.sched stamp⟩ })
  (s1.raise (CH_RANGE_STAT n) fCH_RANGE_STAT_PENDING).raiseIf (s.lateOpt stamp) (CH_RANGE_STAT n) fCH_RANGE_STAT_LATE

/-- Cancel a pending or deferred request whose start tick lies at or after m+2 (Table 07-5). -/
def State.rangeCancel (s : State) (n : Nat) : State :=
  match (s.rng n).req with
  | some r =>
    if s.due r.due then s
    else (s.updRng n (fun x => { x with req := none })).setBit (CH_RANGE_STAT n) fCH_RANGE_STAT_PENDING false
  | none => s

/-- A current range request, the cancel aside (R164). INVALID tells a range that cannot be entered whatever else refuses the request. -/
def State.requestI (s : State) (n range : Nat) (stamp : Option Nat) : State :=
  let r := s.rng n
  let invalid := !s.irangeOk n range || zeroScale (s.iScale n (s.irange n))
  if invalid || s.pwr (n / 32) = 0 || r.req.isSome then s.rangeRefuse n invalid
  else
    match r.prog with
    | none => if range = s.irange n && s.shuntsPlain n then s else s.rangePend n false range stamp
    | some _ => s.rangePend n false range stamp

/-- A voltage range request, the cancel aside (R172); INVALID as above. -/
def State.requestV (s : State) (n range : Nat) (stamp : Option Nat) : State :=
  let r := s.rng n
  let invalid := zeroScale (s.vScale n range) || zeroScale (s.vScale n (s.vrange n))
  if invalid || s.pwr (n / 32) = 0 || r.req.isSome || r.prog.isSome || (s.inRun n && !s.isHeld n) then s.rangeRefuse n invalid
  else if range = s.vrange n then s
  else s.rangePend n true range stamp

/-- Stamp a request names. -/
def State.rangeStamp (s : State) (n : Nat) (at_ : Bool) : Option Nat :=
  if at_ then some (s.rd64 (CH_RANGE_AT_LO n)) else none

/-- RANGE_REQUEST_I (R164, R174). -/
def execRangeRequestI (n : Ch) (range : Fin 8) (at_ cancel : Bool) (s : State) : Out := s.toTile (n / 128) (CH_RANGE_REQ n) fun s =>
  let s0 := if cancel then s.rangeCancel n else s
  .next (s0.requestI n range (s.rangeStamp n at_))

/-- RANGE_REQUEST_V (R172, R174). -/
def execRangeRequestV (n : Ch) (range : Fin 4) (at_ cancel : Bool) (s : State) : Out := s.toTile (n / 128) (CH_RANGE_REQ n) fun s =>
  let s0 := if cancel then s.rangeCancel n else s
  .next (s0.requestV n range (s.rangeStamp n at_))

/-- RANGE_CANCEL (R174). -/
def execRangeCancel (n : Ch) (s : State) : Out := s.toTile (n / 128) (CH_RANGE_REQ n) fun s => .next (s.rangeCancel n)

/-! ### The range link (R161 to R163) -/

/-- In the period before a request's start tick: a current request that would start within a change in progress is deferred to
the tick after the range tick, or dropped when it names the range being entered (R174). -/
def State.rangeDefer (s : State) (n : Nat) : State :=
  match (s.rng n).req, (s.rng n).prog with
  | some r, some p =>
    if s.due r.due && s.tick + 1 ≤ p.j + p.bl then
      if r.target = p.b then
        (s.updRng n (fun x => { x with req := none })).setBit (CH_RANGE_STAT n) fCH_RANGE_STAT_PENDING false
      else (s.updRng n (fun x => { x with req := some { r with due := ⟨p.j + p.bl + 1, none⟩ } })).raise (CH_RANGE_STAT n)
        fCH_RANGE_STAT_DEFERRED
    else s
  | _, _ => s

/-- The word of the frame for the coming tick (R159, R163, R165, R172). -/
def State.frameWord (s : State) (n : Nat) : Nat :=
  if !(s.desc n).en then s.fld (CH_RANGE_SAFE n) fCH_RANGE_SAFE_WORD
  else
    let r := s.rng n
    let t := s.tick + 1
    let starting := match r.req with | some x => if s.due x.due then some x else none | none => none
    let shunts := match r.prog with
      | some p => if t < p.j + p.m then p.oldShunts ||| 2 ^ p.b else 2 ^ p.b
      | none => match starting with
        | some x => if x.volt then r.shunts else r.shunts ||| 2 ^ x.target
        | none => r.shunts
    let vr := match starting with | some x => if x.volt then x.target else s.vrange n | none => s.vrange n
    shunts + 64 * vr + 256 * s.lfld (CH_RANGE_CTL n) fCH_RANGE_CTL_USER

/-- The frame of global quad q for the coming tick (R161, Table 07-2): the bits of RLDO and of RLSY in the order in which they go, each
with its even parity; none in OFF, where the balls are low (R163). -/
def State.linkFrame (s : State) (q : Nat) : Option (List Bool × List Bool) :=
  if s.pwr (q / 8) = 0 then none
  else
    let word (lane : Nat) : List Bool :=
      let w := s.fld (CH_RANGE_NOW (4 * q + lane)) fCH_RANGE_NOW_WORD
      (List.range 12).map (fun b => w.testBit (11 - b))
    let parity (xs : List Bool) : List Bool := xs ++ [xs.foldl (· != ·) false]
    some (parity ([(s.cluster (q / 8)).seq.getD (q % 8) false] ++ word 0 ++ word 1), parity ([true] ++ word 2 ++ word 3))

/-- The range-link part of a period for channel n: deferral, then the frame's word. -/
def State.rangeFrame (s : State) (n : Nat) : State :=
  if s.pwr (n / 32) = 0 then s
  else
    let s1 := s.rangeDefer n
    s1.setFld (CH_RANGE_NOW n) fCH_RANGE_NOW_WORD (s1.frameWord n)

/-! ### The sequence (R165 to R171) -/

/-- RANGE_CHANGE_START (R165): the coming tick is the start tick j. -/
def execRangeChangeStart (n : Ch) (s : State) : Out :=
  match (s.rng n).req, (s.rng n).prog with
  | some r, none =>
    if r.volt || !s.due r.due then .next s
    else
      let s0 := (s.updRng n (fun x => { x with req := none })).setBit (CH_RANGE_STAT n) fCH_RANGE_STAT_PENDING false
      if r.target = s.irange n && s.shuntsPlain n then .next s0
      else
        let bl := min 16 (max 2 (s.lfld (CH_RANGE_CTL n) fCH_RANGE_CTL_BLIND))
        let m := min (bl - 1) (max 1 (s.lfld (CH_RANGE_CTL n) fCH_RANGE_CTL_MAKE))
        let modelled := (s.desc n).modelEn
        let p : RangeProg := {
          a := s.irange n, b := r.target, j := s.tick + 1, m, bl, oldShunts := (s.rng n).shunts
          g0 := coefVal (s.rd (CH_MODEL_G n)), c0 := coefVal (s.rd (CH_MODEL_C n)), ib := 0, modelled
          nominal := (s.chan n).smp.i }
        let s1 := s0.updRng n (fun x => { x with prog := some p, changed := true, up := 0, down := 0,
                                                 shunts := x.shunts ||| 2 ^ r.target })
        let s2 := (s1.raise (CH_RANGE_STAT n) fCH_RANGE_STAT_IN_PROGRESS).setFld (CH_RANGE_NOW n) fCH_RANGE_NOW_PHASE 1
        .next (s2.updEng n (fun e => { e with blankNext := e.blankNext ||| 2 }))
  | _, _ => .next s

/-- RANGE_BREAK (R165, R167): the coming tick is the break tick; from it only bit b is set. The burden step reached the code of
this tick in the period before it. -/
def execRangeBreak (n : Ch) (s : State) : Out :=
  match (s.rng n).prog with
  | some p =>
    if s.tick + 1 = p.j + p.m then
      .next ((s.updRng n (fun x => { x with shunts := 2 ^ p.b })).setFld (CH_RANGE_NOW n) fCH_RANGE_NOW_PHASE 2)
    else .next s
  | none => .next s

/-- Multiply a register, live and shadow, by a ratio (R168); `uns` reads it as unsigned. -/
def State.scaleReg (s : State) (n : Nat) (q : Nat × Nat) (uns : Bool) (a : Nat) : State :=
  let read (w : Word) : Int := if uns then (w.toNat : Int) else w.toInt
  let (x, b1) := rescale (read (s.rd a)) q
  let (y, b2) := rescale (read (s.lv a)) q
  ((s.wr a (wordOf x)).wl a (wordOf y)).raiseIf (b1 || b2) (CH_RANGE_STAT n) fCH_RANGE_STAT_RESCALE_SAT

/-- Does a slot's source scale with the current (or the voltage) full scale (Table 07-4, R172)? -/
def scalesWith (volt : Bool) (src : Nat) : Bool :=
  if volt then src == 0 || src == 2 else src == 1 || src == 2 || src == 4

/-- Rescale every range-relative value of channel n (Table 07-4, R172) by q. -/
def State.rescaleAll (s : State) (n : Nat) (volt : Bool) (q : Nat × Nat) : State :=
  let d := s.desc n
  let own0 := d.present 0 && d.src 0 == (if volt then 0 else 1)
  let sc (s : State) (c : Bool) (a : Nat) : State := if c then s.scaleReg n q false a else s
  let ctl := s.lv (CH_INJ_CTL n)
  let node := fCH_INJ_CTL_NODE.get ctl
  let slot := fCH_INJ_CTL_SLOT.get ctl
  let injOwn := (node == 0 && own0) || (node == 1 && d.present slot && scalesWith volt (d.src slot))
  let s1 := sc (sc (sc s own0 (CH_SETPOINT n)) own0 (PG_AMP n)) injOwn (CH_INJ_AMP n)
  let sat (c : Bool) (s : State) : State := s.raiseIf c (CH_RANGE_STAT n) fCH_RANGE_STAT_RESCALE_SAT
  let s2 := if own0 then
      let e := s1.eng n
      let (r, b1) := rescale e.r q
      let (v, b2) := rescale e.v q
      let s' := (s1.updEng n (fun e => { e with r, v })).wr (CH_SLEW_NOW n) (wordOf r)
      match (s'.chan n).pg.run with
      | some p =>
        let (amp, b3) := rescale p.amp q
        sat (b1 || b2 || b3) (s'.updChan n (fun c => { c with pg := { c.pg with run := some { p with amp } } }))
      | none => sat (b1 || b2) s'
    else s1
  let s3 := (List.range 4).foldl (fun t k =>
    if d.present k && scalesWith volt (d.src k) then
      let x := (t.eng n).slot k
      let y := rha (x.e * q.1) (q.2 * 2 ^ 98)
      sat (sat32 y != y) ((sc t true (LOOP_LIMIT n k)).updEng n (fun e => e.setSlot k { x with e := ofQ (sat32 y) }))
    else t) s2
  if !volt && d.modelEn then s3.scaleReg n q true (CH_MODEL_TH n) else s3

/-- Rescale the load model's estimates by `g` and the stored voltage by `v` (R147). -/
def State.rescaleModel (s : State) (n : Nat) (g v : Nat × Nat) : State :=
  if (s.desc n).modelEn && s.inRun n then
    let est (s : State) (a : Nat) : State := s.wr a (toCoef (scaleX (coefVal (s.rd a)) g))
    (est (est s (CH_MODEL_G n)) (CH_MODEL_C n)).updChan n (fun c => { c with model := { c.model with
      v1 := (rescale c.model.v1 v).1 } })
  else s

/-- Load the GUARD timer at the coming tick, in RUN (R115). -/
def State.guardLoad (s : State) (n : Nat) : State :=
  if s.inRun n then s.updEng n (fun e => { e with guardLoad := true }) else s

/-- RANGE_TICK (R168, R169). -/
def execRangeTick (n : Ch) (s : State) : Out :=
  match (s.rng n).prog with
  | some p =>
    if s.tick + 1 = p.j + p.bl then
      let fa := s.iScale n p.a
      let fb := s.iScale n p.b
      let q := ratio fa fb
      let s0 := ((s.setFld (CH_RANGE_NOW n) fCH_RANGE_NOW_IRANGE p.b).setFld (CH_RANGE_NOW n) fCH_RANGE_NOW_PHASE 0).raiseIf
        (ratioBad fa fb) (CH_RANGE_STAT n) fCH_RANGE_STAT_RESCALE_SAT
      let s1 := if s.lbit (CH_RANGE_CTL n) fCH_RANGE_CTL_NORESCALE then s0 else s0.rescaleAll n false q
      let s2 := s1.rescaleModel n q (1, 1)
      let sel := s.lfld (CH_IRANGE_CFG n p.b) fCH_IRANGE_CFG_BANK
      let old := s2.coefBank n
      let new := if sel = 1 then 0 else if sel = 2 then 1 else old
      let (s3, clamped) := s2.transfer n new
      let s4 := if new = old then s3.raiseIf clamped (CH_COEF_STAT n) fCH_COEF_STAT_CLAMPED else s3.setCoefBank n new
      let s5 := (s4.guardLoad n).wr64 (CH_RANGE_STAMP_LO n) s.nextStamp
      let hold := 16 * s.lfld (CH_RANGE_AUTO n) fCH_RANGE_AUTO_HOLD
      let s6 := s5.updRng n (fun x => { x with prog := none, shunts := 2 ^ p.b, up := 0, down := 0, seq := x.seq + 1,
                                               holdEnd := some (s.tick + 1 + hold) })
      .next ((s6.setBit (CH_RANGE_STAT n) fCH_RANGE_STAT_IN_PROGRESS false).incWrap (CH_RANGE_STAT n) fCH_RANGE_STAT_CHANGES)
    else .next s
  | none => .next s

/-- VOLTAGE_RANGE_START (R172). -/
def execVoltageRangeStart (n : Ch) (s : State) : Out :=
  match (s.rng n).req with
  | some r =>
    if r.volt && s.due r.due then
      let fo := s.vScale n (s.vrange n)
      let fn := s.vScale n r.target
      let q := ratio fo fn
      let s0 := ((s.updRng n (fun x => { x with req := none, seq := x.seq + 1 })).setBit (CH_RANGE_STAT n)
        fCH_RANGE_STAT_PENDING false).raiseIf (ratioBad fo fn) (CH_RANGE_STAT n) fCH_RANGE_STAT_RESCALE_SAT
      let s1 := if s.lbit (CH_RANGE_CTL n) fCH_RANGE_CTL_NORESCALE then s0 else s0.rescaleAll n true q
      let s2 := (s1.rescaleModel n (q.2, q.1) q).setFld (CH_RANGE_NOW n) fCH_RANGE_NOW_VRANGE r.target
      .next (s2.guardLoad n)
    else .next s
  | none => .next s

/-! ### Automatic ranging (R173) -/

/-- Does automatic ranging act on channel n? -/
def State.autoOn (s : State) (n : Nat) : Bool :=
  let d := s.desc n
  s.lbit (CH_RANGE_AUTO n) fCH_RANGE_AUTO_EN && d.present 0 && d.src 0 == 0 && d.gang == 0xFF && s.inRun n

/-- Is the present period within the hold-off? -/
def State.inHoldoff (s : State) (n : Nat) : Bool :=
  match (s.rng n).holdEnd with | some e => decide (s.tick < e) | none => false

/-- Count the present period's sample. -/
def State.autoCount (s : State) (n : Nat) : State :=
  if !s.autoOn n || (s.rng n).prog.isSome || s.inHoldoff n then s.updRng n (fun r => { r with up := 0, down := 0 })
  else
    let i := (s.chan n).smp.i.natAbs
    let above := (s.lv (CH_RANGE_UP_TH n)).toNat ≤ i || 2 ^ 30 < i
    let below := i < (s.lv (CH_RANGE_DN_TH n)).toNat
    s.updRng n (fun r => { r with up := if above then r.up + 1 else 0, down := if below then r.down + 1 else 0 })

/-- The range an automatic change would enter: upwards the next larger, downwards the next smaller (R173). -/
def State.autoTarget (s : State) (n : Nat) (up : Bool) : Option Nat :=
  let ctl := s.lv (CH_RANGE_AUTO n)
  let top := min 5 (fCH_RANGE_AUTO_MAX.get ctl)
  let low := fCH_RANGE_AUTO_MIN.get ctl
  let now := s.irange n
  if up then ((List.range 6).filter (fun r => now < r && r ≤ top && s.irangeOk n r)).head?
  else ((List.range 6).filter (fun r => r < now && low ≤ r && s.irangeOk n r)).getLast?

/-- AUTO_RANGE_DECISION (R173): the count of the present period has reached N_UP or N_DOWN. -/
def execAutoRangeDecision (n : Ch) (s : State) : Out :=
  let ctl := s.lv (CH_RANGE_AUTO n)
  let r := s.rng n
  let up := max 1 (fCH_RANGE_AUTO_N_UP.get ctl) ≤ r.up
  let down := max 1 (fCH_RANGE_AUTO_N_DOWN.get ctl) ≤ r.down
  if s.autoOn n && (up || down) then
    let s0 := s.updRng n (fun r => { r with up := 0, down := 0 })
    if r.req.isSome || r.prog.isSome || s.inHoldoff n then .next s0
    else
      match s.autoTarget n up with
      | none => .next s0
      | some b =>
        .next ((s0.rangePend n false b none).raise (CH_RANGE_STAT n)
          (if up then fCH_RANGE_STAT_AUTO_UP else fCH_RANGE_STAT_AUTO_DOWN))
  else .next s

/-- AUTO_RANGE_HOLDOFF_END (R173): counting resumes from the coming tick's period. -/
def execAutoRangeHoldoffEnd (n : Ch) (s : State) : Out :=
  match (s.rng n).holdEnd with
  | some e => if e ≤ s.tick + 1 then .next (s.updRng n (fun r => { r with holdEnd := none, up := 0, down := 0 })) else .next s
  | none => .next s

end Sys2Proof.Machine
end

