-- ==== Sys2Proof/Machine/Dac.lean ====
section
/-!
DEFINITION. The force DAC, safe values and current-mode supervision: the rows of chapter 09 (the supply monitor's stand in Power.lean).
-/

namespace Sys2Proof.Machine

/-- A register with the enabled bytes of a write replaced, within the bits `m`. -/
def State.merge (s : State) (a : Nat) (data : Word) (be : Nat) (m : Word) : Word :=
  let k := beMask be &&& m
  (s.rd a &&& ~~~k) ||| (data &&& k)

/-- SAFE_CODE_WRITE (R206): the register at once, the DAC slice's safe code from tick k+2. -/
def execSafeCodeWrite (n : Ch) (data : Word) (be : Nat) (s : State) : Out := s.toTile (n / 128) (CH_SAFE_CODE n) fun s =>
  let v := s.merge (CH_SAFE_CODE n) data be 0xFFFFF
  .next ((s.wr (CH_SAFE_CODE n) v).after (s.tick + 2) (.safeDac n v.toNat))

/-- FORCE_SAFE_WRITE (R101, R207): source FORCE holds or releases at tick k+2. -/
def execForceSafeWrite (n : Ch) (data : Word) (be : Nat) (s : State) : Out := s.toTile (n / 128) (CH_DAC_CTL n) fun s =>
  let v := s.merge (CH_DAC_CTL n) data be 1
  .next ((s.wr (CH_DAC_CTL n) v).after (s.tick + 2) (.hold n srcForce (v.getLsbD 0)))

def State.dac (s : State) (n : Nat) : DacSt := (s.chan n).dac
def State.updDac (s : State) (n : Nat) (f : DacSt → DacSt) : State := s.updChan n (fun c => { c with dac := f c.dac })

/-- Ticks since the tick t of an output-mode change, at the present tick. -/
def State.modeAge (s : State) (n : Nat) : Option Nat :=
  match (s.dac n).modeStart with
  | some t => if t ≤ s.tick then some (s.tick - t) else none
  | none => none

/-- Schedule an output-mode change at tick t (R69, R203); one in progress goes on up to it. -/
def State.modeChange (s : State) (n t : Nat) (mode : Bool) : State := s.updDac n (fun d => { d with modeNext := some (t, mode) })

/-- What the FRC ball shows: high impedance, a voltage or a current out of the ball. -/
inductive FrcBall where
  | hiZ
  | volt (nanovolts : Rat)
  | amp (nanoamps : Rat)
deriving DecidableEq, Repr

/-- The FRC ball of channel n once the deglitcher has passed a tick's level (R202, R204 to R209, Table 09-1): the code of the park buffer,
which follows CH_SAFE_CODE, while it drives, else the code of the DAC slice, in the output mode in force. -/
def State.frcBall (s : State) (n : Nat) : FrcBall :=
  let a := CH_DAC_STAT n
  if s.bit a fCH_DAC_STAT_HIZ then .hiZ
  else
    let code := if s.bit a fCH_DAC_STAT_PARK then s.fld (CH_SAFE_CODE n) fCH_SAFE_CODE_SAFE else s.fld (CH_DAC_CODE n) fCH_DAC_CODE_CODE
    let d : Rat := ((code : Int) - 0x80000 : Int) / (2 ^ 19 : Rat)
    if s.bit a fCH_DAC_STAT_MODE then .amp (2000000 * d) else .volt (2500000000 + 2250000000 * d)

/-- The input of a DAC slice's converter for a code, in quarters of a code (R298): 2^19 + g (C - 2^19) - o 2^-11, to the nearest quarter
(DESIGN CHOICE: the rule gives the resolution alone; assumption 54). -/
def State.dacInput (s : State) (q sl code : Nat) : Int :=
  let g : Int := 2 ^ 30 + (s.rd (QUAD_SL_GAIN q sl)).toInt
  rhe (4 * (2 ^ 49 + g * ((code : Int) - 0x80000)) - (s.rd (QUAD_SL_OFS q sl)).toInt * 2 ^ 21) (2 ^ 30)

/-- The DAC slices whose outputs the FRC stage of channel n sums, with weights in 256ths and converter inputs (R292), for the code the
slices took at the last tick: while held, the safe code they have from tick k+2 of its write on (R206). -/
def State.dacSum (s : State) (n : Nat) : List (Nat × Nat × Int) :=
  let w := (s.quadSt (n / 4)).dac.weight (n % 4) s.tick
  let code := (s.dac n).last
  [(3 * (n % 4), 256 - w), (12, w)].filterMap (fun x => if x.2 = 0 then none else some (x.1, x.2, s.dacInput (n / 4) x.1 code))

/-- The slice whose corrections the park buffer of channel n uses: that of the larger weight (R292). -/
def State.parkSlice (s : State) (n : Nat) : Nat := if (s.quadSt (n / 4)).dac.weltMajor (n % 4) s.tick then 12 else 3 * (n % 4)

/-- End both supervision episodes. -/
def State.supvClear (s : State) (n : Nat) : State :=
  let a := CH_DAC_STAT n
  let s1 := (s.setFld a fCH_DAC_STAT_OPEN_CNT 0).setFld a fCH_DAC_STAT_COMPL_CNT 0
  ((s1.setBit a fCH_DAC_STAT_OPEN_NOW false).setBit a fCH_DAC_STAT_COMPL_NOW false).updDac n (fun d =>
    { d with openRaised := false, complRaised := false, openCond := false, complCond := false })

/-- The output-mode change begins at its tick t: high impedance, source MODE_SWITCH (R203). A second change while one is in progress
starts the sequence again. -/
def State.modeTick (s : State) (n : Nat) : State :=
  match (s.dac n).modeNext with
  | some (t, mode) =>
    if t ≤ s.tick then
      let s0 := s.updDac n (fun d => { d with modeStart := some t, newMode := mode, modeNext := none })
      let s1 := (s0.holdSrc n srcModeSwitch).raise (CH_DAC_STAT n) fCH_DAC_STAT_SWITCHING
      ((s1.raise (CH_DAC_STAT n) fCH_DAC_STAT_HIZ).parkBit n).supvClear n
    else s
  | none => s

/-- MODE_SWITCH_PARK (R203): at tick t+8 the new mode is in force and the park buffer drives the ball, unless the cluster is
OFF. -/
def execModeSwitchPark (n : Ch) (s : State) : Out :=
  match (s.dac n).modeStart with
  | some t =>
    if s.tick + 1 = t + 8 then
      let s1 := s.setBit (CH_DAC_STAT n) fCH_DAC_STAT_MODE (s.dac n).newMode
      .next ((s1.setBit (CH_DAC_STAT n) fCH_DAC_STAT_HIZ (s.pwr (n / 32) == 0)).parkBit n)
    else .next s
  | none => .next s

/-- MODE_SWITCH_END (R203): at tick t+16 source MODE_SWITCH releases. -/
def execModeSwitchEnd (n : Ch) (s : State) : Out :=
  match (s.dac n).modeStart with
  | some t =>
    if s.tick + 1 = t + 16 then
      .next (((s.updDac n (fun d => { d with modeStart := none })).setBit (CH_DAC_STAT n) fCH_DAC_STAT_SWITCHING
        false).releaseSrc n srcModeSwitch)
    else .next s
  | none => .next s

/-! ### Supervision (R211) -/

/-- What the open-loop detector reports for a code, with the return current in nA; none where it does not evaluate. -/
def openReports (code : Nat) (iret : Int) : Bool :=
  let cmd := 2000000 * ((code : Int) - 0x80000).natAbs
  decide (40000 * 2 ^ 19 ≤ cmd) && decide (cmd + (80000 + 4 * iret.natAbs) * 2 ^ 19 < 4 * cmd)

/-- What the compliance detector reports for a ball voltage in microvolts. -/
def complReports (vball : Int) : Bool := vball < 1000000 || 4000000 < vball

/-- The detectors at the present tick, with the code applied at it (R211). -/
def State.supvTick (s : State) (n : Nat) (inp : TickIn) : State :=
  let a := CH_DAC_STAT n
  let quiet := match s.modeAge n with | some d => decide (d < 8) | none => false
  if s.pwr (n / 32) = 0 || !s.bit a fCH_DAC_STAT_MODE || quiet then s.supvClear n
  else
    let ctl := s.lv (CH_DAC_SUP_CTL n)
    let code := s.fld (CH_DAC_CODE n) fCH_DAC_CODE_CODE
    let o := fCH_DAC_SUP_CTL_OPEN_N.get ctl != 0 && openReports code (inputAt inp.iret n)
    let c := fCH_DAC_SUP_CTL_COMPL_N.get ctl != 0 && complReports (inputAt inp.vball n)
    let s1 := (s.setBit a fCH_DAC_STAT_OPEN_NOW o).setBit a fCH_DAC_STAT_COMPL_NOW c
    let s2 := if o then s1.incSat a fCH_DAC_STAT_OPEN_CNT else
      (s1.setFld a fCH_DAC_STAT_OPEN_CNT 0).updDac n (fun d => { d with openRaised := false, openCond := false })
    if c then s2.incSat a fCH_DAC_STAT_COMPL_CNT else
      (s2.setFld a fCH_DAC_STAT_COMPL_CNT 0).updDac n (fun d => { d with complRaised := false, complCond := false })

/-- SUPV_CONDITION (R211): a detector's count of the present period is at or above its N, and its condition has not been raised
in this episode. -/
def execSupvCondition (n : Ch) (compl : Bool) (s : State) : Out :=
  let a := CH_DAC_STAT n
  let ctl := s.lv (CH_DAC_SUP_CTL n)
  let cnt := s.fld a (if compl then fCH_DAC_STAT_COMPL_CNT else fCH_DAC_STAT_OPEN_CNT)
  let lim := (if compl then fCH_DAC_SUP_CTL_COMPL_N else fCH_DAC_SUP_CTL_OPEN_N).get ctl
  let act := (if compl then fCH_DAC_SUP_CTL_COMPL_ACT else fCH_DAC_SUP_CTL_OPEN_ACT).get ctl
  let raised := if compl then (s.dac n).complRaised else (s.dac n).openRaised
  if lim != 0 && lim ≤ cnt && !raised then
    let s1 := s.updDac n (fun d => if compl then { d with complRaised := true, complCond := act.testBit 0 }
      else { d with openRaised := true, openCond := act.testBit 0 })
    let s2 := (s1.raise a (if compl then fCH_DAC_STAT_COMPL else fCH_DAC_STAT_OPEN)).logEv 1 (if compl then 9 else 8)
      (if act.testBit 2 then 3 else 2) a n 0
    let s3 := if act.testBit 1 then s2.tripSync n (if compl then 7 else 6) else s2
    .next ((if act.testBit 2 then s3.faultNext 9 else s3).chEvent n fCH_INT_STAT_SUPV)
  else .next s

/-! ### Tiles -/

/-- The channels of a tile. -/
def tileChans (t : Nat) : List Nat := (List.range 128).map (128 * t + ·)

end Sys2Proof.Machine
end

