-- ==== Sys2Proof/Machine/Measure.lean ====
section
/-!
DEFINITION. Measurement (chapter 08): aperture units and their records, the record writer, raw and decimated capture.
-/

namespace Sys2Proof.Machine

def State.apt (s : State) (n : Nat) : AptSt := (s.chan n).apt
def State.updApt (s : State) (n : Nat) (f : AptSt → AptSt) : State := s.updChan n (fun c => { c with apt := f c.apt })

/-- The channel an aperture unit measures (Table 02-6); used only where APT_EN is 1 (R49). -/
def State.aptSrc (s : State) (n : Nat) : Nat := n / 32 * 32 + (s.desc n).aptSrc

/-! ### Gang totals (R144, R188) -/

/-- Sum of the last I samples of the members of a gang in cluster g, and how many contributed: those whose cluster was in IDLE or RUN at
the tick of the samples (R144). -/
def State.gangPart (s : State) (g id : Nat) : Int × Nat :=
  match s.gangEntry g id with
  | some e =>
    ((List.range 32).filter (fun i => e.mask.testBit i && (s.chan (32 * g + i)).smp.taken)).foldl (fun (a, c) i =>
      (a + (s.chan (32 * g + i)).smp.iUse, c + 1)) (0, 0)
  | none => (0, 0)

/-- Sum and count of a gang over every cluster of the device. -/
def State.gangHere (s : State) (id : Nat) : Int × Nat :=
  allClu.foldl (fun (a, c) g => let (x, k) := s.gangPart g id; (a + x, c + k)) ((0 : Int), 0)

/-- The same with the partial sums received from the chain. -/
def State.chainTotal (s : State) (id : Nat) (here : Int × Nat) : Int × Nat :=
  (s.sums.filter (fun x => x.1 == id)).foldl (fun (a, c) x => (a + x.2.1, c + x.2.2)) here
def State.gangTotal (s : State) (id : Nat) : Int × Nat := s.chainTotal id (s.gangHere id)

/-- The gang of the sample just taken, for an aperture unit that measures one: a swap at the next tick does not change it (R188). -/
def State.aptGangTick (s : State) (n : Nat) : State :=
  let d := s.desc n
  if (s.apt n).cfg.isSome && d.aptGang then
    let members := match s.gangEntry (n / 32) d.gang with | some e => e.members | none => 0
    s.updApt n (fun a => { a with gang := ((s.gangHere d.gang).1, (s.gangHere d.gang).2, members) })
  else s

/-! ### Accumulation (R182, R183, R188, R192, R193) -/

/-- A ratio as an exact number. -/
def ratioQ (q : Nat × Nat) : Rat := (q.1 : Rat) / (q.2 : Rat)

/-- HISTORY bits of one CTRL value. -/
def histBit (c : Nat) : Nat := if c < 4 then 2 ^ c else if c < 6 then 16 else if c = 6 then 32 else 64

/-- A sample in ranges xi, xv converted to ranges ir, vr of channel `src` meets a full scale of 0 (R160). -/
def State.convertBad (s : State) (src xi ir xv vr : Nat) : Bool :=
  (xi != ir && ratioBad (s.iScale src xi) (s.iScale src ir)) || (xv != vr && ratioBad (s.vScale src xv) (s.vScale src vr))

/-- Give the sample last taken its weight in the open aperture of unit n. -/
def State.aptFlush (s : State) (n : Nat) (ap : Aperture) : Aperture :=
  if ap.wPend = 0 then ap
  else
    let src := s.aptSrc n
    let x := (s.chan src).smp
    let first := ap.n = 0
    let ir := if first then x.ir else ap.ir
    let vr := if first then x.vr else ap.vr
    let rseq := if first then x.rseq else ap.rseq
    let gang := (s.desc n).aptGang
    let (g0, c0, members) := (s.apt n).gang
    let (gs, gc) := s.chainTotal (s.desc n).gang (g0, c0)
    let vi : Rat := (x.accV : Rat) * (if x.accVr = vr then 1 else ratioQ (ratio (s.vScale src x.accVr) (s.vScale src vr)))
    let xr := if gang then x.ir else x.accIr
    let ii : Rat := ((if gang then gs else x.accI) : Rat) *
      (if xr = ir then 1 else ratioQ (ratio (s.iScale src xr) (s.iScale src ir)))
    let b (c : Bool) (k : Nat) : Nat := if c then 2 ^ k else 0
    let fl := b x.holdover 0 ||| b x.vOver 3 ||| b x.iOver 4 ||| b (x.rseq != rseq) 5 ||| b x.bridged 6 ||| b (x.ctrl == 6) 7 |||
      b x.repeated 8 ||| b x.skip 10 ||| b gang 13 ||| b (gang && gc < members) 14 ||| b x.welt 15
    { ap with
      sumV := ap.sumV + ap.wPend * vi, sumI := ap.sumI + ap.wPend * ii, n := ap.n + 1, w := ap.w + ap.wPend, ir, vr, rseq
      flags := ap.flags ||| fl, chopAll := ap.chopAll && x.chop
      hist := ap.hist ||| histBit x.ctrl ||| (match ap.lastCtrl with | some c => if c = x.ctrl then 0 else 128 | none => 0)
      lastCtrl := some x.ctrl, wPend := 0 }

/-- RESCALE_SAT of the channel whose sample the open aperture of unit n takes, where its conversion meets a full scale of 0 (R160). -/
def State.aptScales (s : State) (n : Nat) (ap : Aperture) : State :=
  let src := s.aptSrc n
  let x := (s.chan src).smp
  s.raiseIf (ap.wPend != 0 && ap.n != 0 && s.convertBad src x.accIr ap.ir x.accVr ap.vr) (CH_RANGE_STAT src) fCH_RANGE_STAT_RESCALE_SAT

/-! ### Records (R183, R190, R191) -/

/-- Round an exact number times 2^-e to nearest, ties to even. -/
def mantissa (x : Rat) (e : Int) : Int := rhe (x.num * 2 ^ (-e).toNat) (x.den * 2 ^ e.toNat)

/-- The shared exponent of two sums (R191). -/
def recExp (v i : Rat) : Int :=
  let fits (x : Rat) (e : Int) : Bool := let m := mantissa x e; -0x80000000 ≤ m && m ≤ 0x7FFFFFFF
  (((List.range 128).map (fun (k : Nat) => (k : Int) - 32)).find? (fun e => fits v e && fits i e)).getD 95

/-- The words of a record of unit n (Table 08-6), without LOST_BEFORE. -/
def State.recordWords (s : State) (n : Nat) (ap : Aperture) : List Word :=
  let scale : Rat := (ap.n : Rat) / (ap.w : Rat)
  let v := ap.sumV * scale
  let i := ap.sumI * scale
  let e := recExp v i
  let w (x : Nat) : Word := BitVec.ofNat 32 x
  let fl := (ap.flags % 2 ^ 16) ||| (if ap.chopAll then 2 ^ 11 else 0)
  [w ap.s, w (ap.s / 2 ^ 32), wordOf (mantissa v e), wordOf (mantissa i e), w (ap.n % 2 ^ 24 + (e % 256).toNat * 2 ^ 24),
   w (fl + n * 2 ^ 16 + s.devPos * 2 ^ 25), w (ap.ir + ap.vr * 8 + ap.hist * 256), 0]

/-- A record of unit n is lost (R195, R196). -/
def State.recordLost (s : State) (n : Nat) : State :=
  ((((s.incSat (APT_LOST n) fWord).raise (APT_STAT n) fAPT_STAT_LOST).updApt n (fun a => { a with lostBefore := true }))).chEvent
    n fCH_INT_STAT_APT_LOST

/-- Close the open aperture of unit n at the coming tick, the last sample having its pending weight; `fl` are flags of an early
end (R183, R186, R187). -/
def State.aptClose (s : State) (n fl : Nat) : State :=
  match (s.apt n).ap with
  | none => s
  | some ap0 =>
    let ap1 := s.aptFlush n ap0
    let ap := { ap1 with flags := ap1.flags ||| fl }
    let s1 := ((s.aptScales n ap0).updApt n (fun a => { a with ap := none })).setBit (APT_STAT n) fAPT_STAT_OPEN false
    if ap.n = 0 || ap.w = 0 then (s1.raise (APT_STAT n) fAPT_STAT_EMPTY).incSat (APT_EMPTY n) fWord
    else
      let g := n / 32
      if 64 ≤ (s1.cluster g).fifo.length then s1.recordLost n
      else
        let (base, len, ovw) := match (s.apt n).cfg with
          | some c => (c.base, c.ringLen, c.overwrite)
          | none => (0, 0, false)
        s1.updCluster g (fun c => { c with fifo := c.fifo ++ [⟨n, s.recordWords n ap, ap.w, s.tick + 1, (s.apt n).run, base, len, ovw⟩] })

/-- End the run of unit n; `early` reports it as ended early. -/
def State.aptEnd (s : State) (n : Nat) (early : Bool) : State :=
  let s1 := s.updApt n (fun a => { lostBefore := a.lostBefore, wr := a.wr, run := a.run, tails := a.tails })
  ((s1.setBit (APT_STAT n) fAPT_STAT_ARMED false).setBit (APT_STAT n) fAPT_STAT_OPEN false).raiseIf early (APT_STAT n)
    fAPT_STAT_TRUNCATED

/-- Are there more apertures to open (R185)? -/
def AptSt.more (a : AptSt) : Bool :=
  match a.cfg with
  | some c => if c.rep then c.count = 0 || a.opened < c.count else a.opened = 0
  | none => false

/-- After an aperture has closed: the run waits for its next start, or ends. -/
def State.aptNext (s : State) (n : Nat) : State :=
  if (s.apt n).more then s.raise (APT_STAT n) fAPT_STAT_ARMED else s.aptEnd n false

/-! ### Commands and events -/

/-- APERTURE_START_CMD (R184, R448). -/
def execApertureStartCmd (n : Ch) (at_ : Bool) (s : State) : Out := s.toTile (n / 128) (APT_GO n) fun s =>
  if !(s.desc n).aptEn then .next (s.raise (APT_STAT n) fAPT_STAT_UNBOUND)
  else
    let len := s.lv64 (APT_LEN_LO n)
    if (s.apt n).cfg.isSome || !s.biased n || len = 0 then .next (s.raise (APT_STAT n) fAPT_STAT_REFUSED)
    else
      let ctl := s.lv (APT_CTL n)
      let marker := fAPT_CTL_START_SRC.get ctl != 0
      let cfg : AptCfg := {
        len, period := max len (s.lv64 (APT_PERIOD_LO n)), count := (s.lv (APT_COUNT n)).toNat
        rep := fAPT_CTL_REPEAT.get ctl != 0, marker, mkr := fAPT_CTL_MKR.get ctl, overwrite := fAPT_CTL_RING_MODE.get ctl != 0
        base := (s.rd (APT_RING_BASE n)).toNat / 64 * 64, ringLen := (s.rd (APT_RING_LEN n)).toNat / 64 * 64 }
      let stamp := if at_ && !marker then some (s.rd64 (APT_AT_LO n)) else none
      let late := s.lateOpt stamp
      let waits := (s.cluster (n / 32)).fifo.any (fun r => r.ch == n && r.run == (s.apt n).run)
      let s1 := s.updApt n (fun a => { cfg := some cfg, next := if late then none else stamp, notBefore := s.tick + 2, late,
                                       lostBefore := a.lostBefore, run := a.run + 1
                                       tails := if waits then (a.run, a.wr, (s.rd (APT_RING_RD n)).toNat) :: a.tails else a.tails })
      let s2 := ((s1.wr (APT_RING_WR n) 0).wr (APT_RING_RD n) 0).raise (APT_STAT n) fAPT_STAT_ARMED
      .next (s2.raiseIf late (APT_STAT n) fAPT_STAT_LATE)

/-- APERTURE_STOP (R186): the sample of tick m+1 is the last; a pending start is cancelled. -/
def execApertureStop (n : Ch) (s : State) : Out := s.toTile (n / 128) (APT_GO n) fun s =>
  let a := s.apt n
  if a.cfg.isNone then .next s
  else if a.ap.isSome then .next (s.updApt n (fun a => { a with stopAt := a.stopAt.or (some (s.tick + 2)) }))
  else .next (s.aptEnd n true)

/-- The end of the open aperture falls due at the coming tick: none, its scheduled end, or a STOP. -/
def State.aptDueEnd (s : State) (n : Nat) : Option Bool :=
  match (s.apt n).ap with
  | some ap =>
    if atOrAfter s.nextStamp ap.e then some false
    else match (s.apt n).stopAt with
      | some t => if t ≤ s.tick + 1 then some true else none
      | none => none
  | none => none

/-- Close the open aperture, whose scheduled end falls due at the coming tick: the sample last taken loses the part after the end
(Table 08-2). -/
def State.aptScheduled (s : State) (n : Nat) : State :=
  (s.updApt n (fun a => { a with ap := a.ap.map (fun ap => { ap with wPend := ap.wPend - s.edgeFrac ap.e }) })).aptClose n 0

/-- Close an aperture whose end falls due at the coming tick (R182, R183). -/
def State.aptDueClose (s : State) (n : Nat) : State :=
  match s.aptDueEnd n with
  | some stop =>
    let s1 := if stop then s.aptClose n 2 else s.aptScheduled n
    if (s.apt n).stopAt.isSome then s1.aptEnd n true else s1.aptNext n
  | none => s

/-- End a run at the coming tick (Table 08-3): an aperture whose scheduled end falls due there ends with it, any other is truncated after
the present tick's sample. -/
def State.aptTruncate (s : State) (n : Nat) : State :=
  if (s.apt n).cfg.isNone then s
  else if s.aptDueEnd n = some false then (s.aptScheduled n).aptEnd n ((s.apt n).more || (s.apt n).stopAt.isSome)
  else (s.aptClose n 2).aptEnd n true

/-- APERTURE_CLOSE (R183). -/
def execApertureClose (n : Ch) (s : State) : Out := .next (s.aptDueClose n)

/-- The start stamp and its edge fraction of an aperture that falls due at the coming tick (R182, R184, R185). -/
def State.aptDueStart (s : State) (n : Nat) : Option (Nat × Nat) :=
  let a := s.apt n
  match a.cfg with
  | none => none
  | some c =>
    if s.tick + 1 < a.notBefore || !a.more || a.stopAt.isSome then none
    else if c.marker then
      if s.markerEdge (s.feedTrack (s.aptSrc n)) c.mkr then some (s.nextStamp, 0) else none
    else match a.next with
      | some x => if atOrAfter s.nextStamp x then some (x, s.edgeFrac x) else none
      | none => some (s.nextStamp, 0)

/-- APERTURE_OPEN (R182): an aperture that ends at the same tick closes first (Table 03-6); one whose end has the same due
tick as its start holds one sample and closes with it (Table 08-2, j = m), at a forward jump in its own place by stamp (R97). -/
def execApertureOpen (n : Ch) (s0 : State) : Out :=
  let s := s0.aptDueClose n
  match (s.apt n).ap, s.aptDueStart n, (s.apt n).cfg with
  | none, some (x, f), some c =>
    let late := (s.apt n).late
    let ap : Aperture := { s := x, e := (x + c.len) % 2 ^ 64, wPend := f, tick := s.tick + 1, flags := if late then 4 else 0 }
    let s1 := s.updApt n (fun a => { a with ap := some ap, opened := a.opened + 1, late := false, notBefore := 0,
                                            next := some ((x + c.period) % 2 ^ 64) })
    let s2 := (s1.setBit (APT_STAT n) fAPT_STAT_ARMED false).raise (APT_STAT n) fAPT_STAT_OPEN
    .next (if s.nextIsJump then s2 else s2.aptDueClose n)
  | _, _, _ => .next s

/-- APERTURE_COUNT_LIMIT (R186): the sample of the present tick is the 2^24th. The run continues, unless a STOP awaits its tick. -/
def execApertureCountLimit (n : Ch) (s : State) : Out :=
  match (s.apt n).ap with
  | some ap =>
    if 2 ^ 24 ≤ ap.n + (if ap.wPend = 0 then 0 else 1) then
      let s1 := s.aptClose n 512
      .next (if (s.apt n).stopAt.isSome then s1.aptEnd n true else s1.aptNext n)
    else .next s
  | none => .next s

/-- What a tick does to the open aperture: the sample of the tick before gets its weight, the present one's is 1.0 until an end
cuts it. -/
def State.aptTick (s : State) (n : Nat) : State :=
  match (s.apt n).ap with
  | some ap => (s.aptScales n ap).updApt n (fun a => { a with ap := some { s.aptFlush n ap with wPend := 2 ^ 32 } })
  | none => s

/-- A marker edge at the present tick, while the aperture of unit n is open, is missed (R185); the edge that opened it is not. -/
def State.aptEdge (s : State) (n : Nat) : State :=
  match (s.apt n).ap, (s.apt n).cfg with
  | some ap, some c =>
    let t := s.trk (s.feedTrack (s.aptSrc n))
    s.raiseIf (c.marker && ap.tick < s.tick && t.marksNow.testBit c.mkr && !t.marksPrev.testBit c.mkr) (APT_STAT n)
      fAPT_STAT_MISSED_START
  | _, _ => s

/-- Tokens when an offset passes multiples of 256 bytes going from `a` to `a + d` (R274). -/
def State.ringTokens (s : State) (kind n a d : Nat) : State :=
  let k := (a + d) / 256 - a / 256
  if k = 0 then s else s.addTokens kind n k

/-- APT_RING_WR advances to the offset of the next record (R197), with the tokens of its request line (R274). -/
def State.ringAdvance (s : State) (n len : Nat) : State :=
  let old := (s.rd (APT_RING_WR n)).toNat
  let new := (s.apt n).wr
  (s.wr (APT_RING_WR n) (BitVec.ofNat 32 new)).ringTokens 1 n old ((new + len - old) % len)

/-- Records the writer of cluster g has written in the present period (R195). -/
def State.recsNow (s : State) (g : Nat) : Nat := if (s.cluster g).recTick = s.tick then (s.cluster g).recCount else 0

/-- Ring offset and APT_RING_RD of the run a record belongs to: the present run's, or those an earlier run had (R196). -/
def State.ringOf (s : State) (n run : Nat) : Nat × Nat :=
  let a := s.apt n
  if run = a.run then (a.wr, (s.rd (APT_RING_RD n)).toNat)
  else match a.tails.find? (fun x => x.1 == run) with
    | some x => x.2
    | none => (0, 0)

/-- The offset of the run's next record. -/
def AptSt.moveWr (a : AptSt) (run wr : Nat) : AptSt :=
  if run = a.run then { a with wr } else { a with tails := a.tails.map (fun x => if x.1 = run then (run, wr, x.2.2) else x) }

/-- RECORD_WRITTEN (R195 to R197): the oldest record of the writer reaches sequence memory, in a period after the one it was
formed in and as one of at most four of the period; APT_RING_WR covers it from the next tick. Or it meets a full ring. While sequence
memory does not answer the records wait (R31). A record of an earlier run goes to that run's ring, and moves no WR (R196). -/
def execRecordWritten (g : Clu) (s : State) : Out :=
  match (s.cluster g).fifo with
  | [] => .next s
  | r :: rest =>
    if s.tick < r.tick + 1 || 4 ≤ s.recsNow g || !s.memUp (g / 4) then .next s
    else
      let n := r.ch
      let s1 := s.updCluster g (fun c => { c with fifo := rest })
      let (wr, rd) := s.ringOf n r.run
      if r.ringLen = 0 || (!r.overwrite && (rd / 32 * 32 + r.ringLen - wr % r.ringLen) % r.ringLen = 32) then .next (s1.recordLost n)
      else
        let lost := (s.apt n).lostBefore
        let word (k : Nat) : Nat := ((r.words.getD k 0).toNat) ||| (if k = 5 && lost then 2 ^ 12 else 0)
        let mem := (List.range 8).foldl (fun m k => Mem.writeLE m ((r.base + wr + 4 * k) % 2 ^ 32) (word k) 4) s1.seqMem
        let s2 := { s1 with seqMem := mem }.updApt n (fun a => { a.moveWr r.run ((wr + 32) % r.ringLen) with lostBefore := false })
        let s3 := (s2.updCluster g (fun c => { c with recTick := s.tick, recCount := s.recsNow g + 1 })).incWrap (APT_RECORDS n) fWord
        let s4 := s3.wr64 (APT_LAST_WEIGHT_LO n) r.weight
        .next (if r.run = (s.apt n).run then s4.after (s.tick + 1) (.ringWr n r.ringLen) else s4)

/-! ### Raw and decimated capture (R198, R199) -/

def State.raw (s : State) (n : Nat) : RawSt := (s.chan n).raw
def State.updRaw (s : State) (n : Nat) (f : RawSt → RawSt) : State := s.updChan n (fun c => { c with raw := f c.raw })

/-- RAW_CAPTURE_START (R199). -/
def execRawCaptureStart (n : Ch) (at_ : Bool) (s : State) : Out := s.toTile (n / 128) (APT_RAW_GO n) fun s =>
  if (s.raw n).cfg.isSome || !(s.desc n).aptEn || !s.biased n then .next s
  else
    let ctl := s.lv (APT_RAW_CTL n)
    let cfg : RawCfg := {
      src := s.aptSrc n, sel := fAPT_RAW_CTL_SEL.get ctl, uncal := fAPT_RAW_CTL_UNCAL.get ctl != 0, tag := fAPT_RAW_CTL_TAG.get ctl != 0
      decim := min 10 (fAPT_RAW_CTL_DECIM.get ctl), stopFull := fAPT_RAW_CTL_STOP_FULL.get ctl != 0
      base := (s.rd (APT_RAW_BASE n)).toNat / 64 * 64, len := (s.rd (APT_RAW_LEN n)).toNat / 64 * 64 }
    let stamp := if at_ then some (s.rd64 (APT_RAW_AT_LO n)) else none
    let s1 := (s.updRaw n (fun _ => { cfg := some cfg, pend := some (s.sched stamp) })).raise (APT_RAW_STAT n) fAPT_RAW_STAT_PENDING
    .next (s1.raiseIf (s.lateOpt stamp) (APT_RAW_STAT n) fAPT_RAW_STAT_LATE)

/-- RAW_CAPTURE_BEGIN (R199). -/
def execRawCaptureBegin (n : Ch) (s : State) : Out :=
  match (s.raw n).pend with
  | some d =>
    if s.due d then
      let s1 := s.updRaw n (fun r => { r with pend := none, running := true })
      let s2 := (s1.setBit (APT_RAW_STAT n) fAPT_RAW_STAT_PENDING false).raise (APT_RAW_STAT n) fAPT_RAW_STAT_RUNNING
      let s3 := (s2.wr (APT_RAW_WR n) 0).setFld (APT_RAW_STAT n) fAPT_RAW_STAT_WRAPS 0
      .next ((s3.wr64 (APT_RAW_TICK0_LO n) (s.tick + 1)).wr64 (APT_RAW_STAMP0_LO n) s.nextStamp)
    else .next s
  | none => .next s

/-- Capture is over: the partial 64 bytes are written and WR points past the last word; a wrap in this last step counts, and a ring full
under STOP_FULL is reported (R199). -/
def State.rawEnd (s : State) (n : Nat) (ended : Bool) : State :=
  match (s.raw n).cfg with
  | none => s
  | some c =>
    let r := s.raw n
    let s1 := s.updRaw n (fun _ => {})
    let s2 := (s1.setBit (APT_RAW_STAT n) fAPT_RAW_STAT_RUNNING false).setBit (APT_RAW_STAT n) fAPT_RAW_STAT_PENDING false
    let s3 := if r.running && c.len != 0 then
        let s' := (s2.wr (APT_RAW_WR n) (BitVec.ofNat 32 (r.written % c.len))).ringTokens 2 n (r.advanced % c.len) (r.written - r.advanced)
        let s'' := s'.setFld (APT_RAW_STAT n) fAPT_RAW_STAT_WRAPS (s.fld (APT_RAW_STAT n) fAPT_RAW_STAT_WRAPS + r.written / c.len -
          r.advanced / c.len)
        s''.raiseIf (c.stopFull && decide (c.len ≤ r.written)) (APT_RAW_STAT n) fAPT_RAW_STAT_FULL
      else s2
    s3.raiseIf ended (APT_RAW_STAT n) fAPT_RAW_STAT_ENDED

/-- RAW_CAPTURE_STOP (R199): after the block containing tick m+1; a pending start is cancelled. -/
def execRawCaptureStop (n : Ch) (s : State) : Out := s.toTile (n / 128) (APT_RAW_GO n) fun s =>
  let r := s.raw n
  if r.running then .next (s.updRaw n (fun r => { r with stopAt := r.stopAt.or (some (s.tick + 1)) }))
  else if r.pend.isSome then .next (s.rawEnd n false)
  else .next s

/-- Write one word of raw capture; one formed while sequence memory does not answer is lost, and its place keeps what it holds (R31,
Table 19-4). -/
def State.rawWord (s : State) (n : Nat) (c : RawCfg) (w : Word) : State :=
  let r := s.raw n
  if c.len = 0 || (c.stopFull && c.len ≤ r.written) then s
  else
    let a := (c.base + r.written % c.len) % 2 ^ 32
    { s with seqMem := if s.memUp (n / 128) then s.seqMem.writeLE a w.toNat 4 else s.seqMem }.updRaw n (fun r => { r with written := r.written + 4 })

/-- The channel a running raw capture takes: the one APT_SRC names while APT_EN is 1; across a swap that clears APT_EN it goes on with
the channel it had, and one that changes APT_SRC moves it (Table 02-13 says neither: DESIGN CHOICE, assumption 49). -/
def State.rawSrc (s : State) (n : Nat) (c : RawCfg) : Nat := if (s.desc n).aptEn then s.aptSrc n else c.src

/-- The present tick's sample enters the block of unit n's raw capture (R198). -/
def State.rawTick (s : State) (n : Nat) : State :=
  let r := s.raw n
  match r.running, r.cfg with
  | true, some c =>
    let src := s.rawSrc n c
    let x := (s.chan src).smp
    let first := r.cnt = 0
    let ir := if first then x.ir else r.ir
    let vr := if first then x.vr else r.vr
    let s := (s.updRaw n (fun r => { r with cfg := some { c with src } })).raiseIf (!c.uncal && s.convertBad src x.ir ir x.vr vr)
      (CH_RANGE_STAT src) fCH_RANGE_STAT_RESCALE_SAT
    let v : Rat := if c.uncal then (x.vcode : Rat)
      else (x.v : Rat) * (if x.vr = vr then 1 else ratioQ (ratio (s.vScale src x.vr) (s.vScale src vr)))
    let i : Rat := if c.uncal then (x.icode : Rat)
      else (x.i : Rat) * (if x.ir = ir then 1 else ratioQ (ratio (s.iScale src x.ir) (s.iScale src ir)))
    let accV := (if first then 0 else r.accV) + v
    let accI := (if first then 0 else r.accI) + i
    let size := 2 ^ c.decim
    let s1 :=
      if r.cnt + 1 < size then s.updRaw n (fun r => { r with cnt := r.cnt + 1, accV, accI, ir, vr })
      else
        let word (acc : Rat) (bits tag : Nat) : Word :=
          let m := rhe acc.num (acc.den * size)
          let w := if c.uncal then wordOf (m * 4096) else wordOf (sat32 m)
          if c.tag then Fld.put ⟨0, bits⟩ w tag else w
        let s' := s.updRaw n (fun r => { r with cnt := 0, accV := 0, accI := 0, ir, vr })
        let s' := if c.sel = 2 then s' else s'.rawWord n c (word accV 2 vr)
        if c.sel = 1 then s' else s'.rawWord n c (word accI 3 ir)
    match r.stopAt with
    | some t => if t ≤ s.tick && (s1.raw n).cnt = 0 then s1.rawEnd n false else s1
    | none => s1
  | _, _ => s

/-- RAW_WR_ADVANCE (R199): a 64-byte step has reached sequence memory. -/
def execRawWrAdvance (n : Ch) (s : State) : Out :=
  let r := s.raw n
  match r.running, r.cfg with
  | true, some c =>
    if r.advanced + 64 ≤ r.written && c.len != 0 && s.memUp (n / 128) then
      let adv := r.advanced + 64
      let s1 := (s.updRaw n (fun r => { r with advanced := adv })).wr (APT_RAW_WR n) (BitVec.ofNat 32 (adv % c.len))
      let s2 := (if adv % c.len = 0 then s1.incWrap (APT_RAW_STAT n) fAPT_RAW_STAT_WRAPS else s1).ringTokens 2 n
        (r.advanced % c.len) 64
      if c.stopFull && c.len ≤ adv then .next ((s2.raise (APT_RAW_STAT n) fAPT_RAW_STAT_FULL).rawEnd n false) else .next s2
    else .next s
  | _, _ => .next s

end Sys2Proof.Machine
end

