-- ==== Sys2Proof/Machine/Model.lean ====
section
/-!
DEFINITION. Load model, plausibility supervision, test-signal injection and the capture buffer (chapter 06).
-/

namespace Sys2Proof.Machine

/-! ### The load model (R145 to R151) -/

def State.model (s : State) (n : Nat) : ModelSt := (s.chan n).model
def State.updModel (s : State) (n : Nat) (f : ModelSt → ModelSt) : State := s.updChan n (fun c => { c with model := f c.model })

/-- MODEL_REINIT (R148): at tick k+2; no effect without the model or outside RUN. Each command has its own initialisation. -/
def execModelReinit (n : Ch) (s : State) : Out := s.toTile (n / 128) (CH_MODEL_CMD n) fun s =>
  if (s.desc n).modelEn && s.inRun n then .next (s.updModel n (fun m => { m with reinitAt := m.reinitAt ++ [s.tick + 2] })) else .next s

/-- Keep CH_MODEL_STAT.SETTLING. -/
def State.setSettle (s : State) (n v : Nat) : State :=
  (s.updModel n (fun m => { m with settle := v })).setBit (CH_MODEL_STAT n) fCH_MODEL_STAT_SETTLING (v != 0)

/-- MODEL_SETTLE_END (R148): the settle counter reaches 0 at the end of the present period. -/
def execModelSettleEnd (n : Ch) (s : State) : Out :=
  if (s.model n).settle = 1 then .next (s.setSettle n 0) else .next s

/-- Initialise the model at the present tick, whose sample has been taken (R148). -/
def State.modelInit (s : State) (n : Nat) : State :=
  let s1 := ((s.wr (CH_MODEL_G n) (s.lv (CH_MODEL_G_INIT n))).wr (CH_MODEL_C n) (s.lv (CH_MODEL_C_INIT n))).setSettle n
    (s.lfld (CH_MODEL_SETTLE n) fCH_MODEL_SETTLE_SETTLE)
  let s2 := (s1.setFld (CH_MODEL_STAT n) fCH_MODEL_STAT_COUNT 0).setBit (CH_MODEL_STAT n) fCH_MODEL_STAT_EPISODE false
  s2.updModel n (fun m => { m with v1 := (s.chan n).smp.v, init := false, reinitAt := m.reinitAt.filter (s.tick < ·), cond := false })

/-- The model registers read 0 (R148). -/
def State.modelOff (s : State) (n : Nat) : State :=
  let s1 := (((s.wr (CH_MODEL_G n) 0).wr (CH_MODEL_C n) 0).wr (CH_MODEL_RES n) 0).updModel n (fun _ => {})
  (s1.wr (CH_MODEL_STAT n) 0).wr64 (CH_MODEL_FSTAMP_LO n) 0

/-- The estimates the prediction uses: those held before a bridged blind interval began, else the present ones (R147). -/
def State.estimates (s : State) (n : Nat) : Int × Int :=
  match (s.rng n).prog with
  | some p => if (s.chan n).smp.bridged && p.modelled then (p.g0, p.c0) else
      (coefVal (s.rd (CH_MODEL_G n)), coefVal (s.rd (CH_MODEL_C n)))
  | none => (coefVal (s.rd (CH_MODEL_G n)), coefVal (s.rd (CH_MODEL_C n)))

/-- The model item of a period (R145, R146, R149). -/
def State.modelTick (s : State) (n : Nat) : State :=
  let x := (s.chan n).smp
  let m := s.model n
  let ctl := s.lv (CH_MODEL_CTL n)
  let v := ofQ x.v
  let dv := ofQ (x.v - m.v1)
  let g := coefVal (s.rd (CH_MODEL_G n))
  let c := coefVal (s.rd (CH_MODEL_C n))
  let (g0, c0) := s.estimates n
  let ihat := mulX g0 v + mulX c0 dv
  let rho := ofQ x.i - ihat
  let blank := x.bridged || x.ctrl == 6
  let above := !blank && decide (ofQ (s.lv (CH_MODEL_TH n)).toNat < rho.natAbs)
  let hold := fCH_MODEL_CTL_FREEZE.get ctl != 0 || (fCH_MODEL_CTL_GATE.get ctl != 0 && above) || blank
  let nn := mulX v v + mulX dv dv + one / 2 ^ 16
  let mu := fCH_MODEL_CTL_MU.get ctl
  let a := CH_MODEL_STAT n
  let s1 := if hold then s else
    (s.wr (CH_MODEL_G n) (toCoef (modelStep g rho v nn mu))).wr (CH_MODEL_C n) (toCoef (modelStep c rho dv nn mu))
  let s2 := (s1.setBit a fCH_MODEL_STAT_HELD hold).updModel n (fun m => { m with
    v1 := x.v, ihat := toQ ihat, above, rho := if blank then 0 else toQ rho })
  if blank then s2
  else
    let s3 := s2.wr (CH_MODEL_RES n) (wordOf (toQ rho))
    if m.settle != 0 then s3
    else if above then s3.incSat a fCH_MODEL_STAT_COUNT
    else ((s3.setFld a fCH_MODEL_STAT_COUNT 0).setBit a fCH_MODEL_STAT_EPISODE false).updModel n (fun m => { m with cond := false })

/-- PLAUSIBILITY_FAULT (R149, R150): the present period's count is at or above N and no fault was raised in this episode. -/
def execPlausibilityFault (n : Ch) (s : State) : Out :=
  let a := CH_MODEL_STAT n
  let ctl := s.lv (CH_MODEL_CTL n)
  let lim := fCH_MODEL_CTL_N.get ctl
  let act := fCH_MODEL_CTL_ACTION.get ctl
  if (s.desc n).modelEn && s.inRun n && lim != 0 && lim ≤ s.fld a fCH_MODEL_STAT_COUNT && !s.bit a fCH_MODEL_STAT_EPISODE then
    let s1 := ((s.raise a fCH_MODEL_STAT_FAULT).raise a fCH_MODEL_STAT_EPISODE).wr64 (CH_MODEL_FSTAMP_LO n) s.now
    let s2 := (s1.updModel n (fun m => { m with cond := act.testBit 0 })).logEv 1 16 (if act.testBit 2 then 3 else 2) a n
      (s.now / 2 ^ 32)
    let s3 := if act.testBit 1 then s2.tripSync n 5 else s2
    .next ((if act.testBit 2 then s3.faultNext 9 else s3).chEvent n fCH_INT_STAT_MODEL)
  else .next s

/-! ### Injection (R152 to R154) -/

def State.inj (s : State) (n : Nat) : InjSt := (s.chan n).inj
def State.updInj (s : State) (n : Nat) (f : InjSt → InjSt) : State := s.updChan n (fun c => { c with inj := f c.inj })

/-- INJECTION_START (R154). -/
def execInjectionStart (n : Ch) (at_ : Bool) (s : State) : Out := s.toTile (n / 128) (CH_INJ_GO n) fun s =>
  let a := CH_INJ_STAT n
  let ctl := s.lv (CH_INJ_CTL n)
  let node := fCH_INJ_CTL_NODE.get ctl
  if (s.inj n).active || (s.inj n).pend.isSome then .next s
  else if (node = 1 || node = 2) && !(s.desc n).present (fCH_INJ_CTL_SLOT.get ctl) then .next (s.raise a fCH_INJ_STAT_ABSENT)
  else
    let stamp := if at_ then some (s.rd64 (CH_INJ_AT_LO n)) else none
    .next (((s.updInj n (fun _ => { pend := some (s.sched stamp) })).raise a fCH_INJ_STAT_PENDING).raiseIf (s.lateOpt stamp) a
      fCH_INJ_STAT_LATE)

/-- Injection is over. -/
def State.injEnd (s : State) (n : Nat) : State :=
  (((s.updInj n (fun _ => {})).setBit (CH_INJ_STAT n) fCH_INJ_STAT_ACTIVE false).setBit (CH_INJ_STAT n) fCH_INJ_STAT_PENDING
    false).setBit (CH_ENG_STAT n) fCH_ENG_STAT_INJECT false

/-- INJECTION_BEGIN (R154): the coming tick begins its first period; outside RUN it ends at once. -/
def execInjectionBegin (n : Ch) (s : State) : Out :=
  match (s.inj n).pend with
  | some d =>
    if s.due d then
      if s.inRun n then
        let s1 := s.updInj n (fun i => { i with pend := none, active := true, first := true })
        .next (((s1.setBit (CH_INJ_STAT n) fCH_INJ_STAT_PENDING false).raise (CH_INJ_STAT n) fCH_INJ_STAT_ACTIVE).raise
          (CH_ENG_STAT n) fCH_ENG_STAT_INJECT)
      else .next ((s.injEnd n).raise (CH_INJ_STAT n) fCH_INJ_STAT_ENDED)
    else .next s
  | none => .next s

/-- INJECTION_STOP (R154): x = 0 from period m+2. -/
def execInjectionStop (n : Ch) (s : State) : Out := s.toTile (n / 128) (CH_INJ_GO n) fun s =>
  if (s.inj n).active || (s.inj n).pend.isSome then
    .next (s.updInj n (fun i => { i with stopAt := i.stopAt.or (some (s.tick + 2)) }))
  else .next s

/-- Periods of the injection are used up (R154). -/
def State.injSpent (s : State) (n : Nat) : Bool :=
  let len := (s.lv (CH_INJ_LEN n)).toNat
  len != 0 && len ≤ (s.inj n).n

/-- INJECTION_LEN_END (R154). -/
def execInjectionLenEnd (n : Ch) (s : State) : Out :=
  if (s.inj n).active && s.injSpent n then .next ((s.injEnd n).raise (CH_INJ_STAT n) fCH_INJ_STAT_DONE) else .next s

/-- One step of the 15-bit LFSR x^15 + x^14 + 1. -/
def lfsrStep (x : Nat) : Nat := (x * 2 + ((x.testBit 14) != (x.testBit 13)).toNat) % 2 ^ 15

/-- The injection item of a period (R153): the signal x and the generator's next state. On a channel that a swap has disabled nothing takes
x, while its periods count and a STOP ends it (R154). -/
def State.injTick (s : State) (n : Nat) : State :=
  let i := s.inj n
  if (match i.stopAt with | some t => decide (t ≤ s.tick) | none => false) then s.injEnd n
  else if !i.active || s.injSpent n then s.updInj n (fun i => { i with x := 0, first := false })
  else
    let ctl := s.lv (CH_INJ_CTL n)
    let src := fCH_INJ_CTL_SOURCE.get ctl
    let amp : Int := min 0x10000000 (s.lv (CH_INJ_AMP n)).toInt.natAbs
    let p := max 1 (s.lfld (CH_INJ_PERIOD n) fCH_INJ_PERIOD_PERIOD)
    let freq := (s.lv (CH_INJ_FREQ n)).toNat
    let out := i.lfsr.testBit (Config.prbsStage % 15)
    let x : Int := match src with
      | 0 => amp
      | 1 => if i.neg then -amp else amp
      | 2 => if out then amp else -amp
      | 3 => sineTimes amp (i.phi * 2 ^ 16)
      | 4 => sineTimes amp (tonePhase freq 0 s.now)
      | _ => 0
    let wrap := p ≤ i.cnt + 1
    s.updInj n (fun i => { i with
      x := if fCH_INJ_CTL_NODE.get ctl = 3 then 0 else x, first := i.n = 0, n := i.n + 1, cnt := if wrap then 0 else i.cnt + 1
      neg := if wrap then !i.neg else i.neg, lfsr := if wrap then lfsrStep i.lfsr else i.lfsr, phi := (i.phi + freq) % 2 ^ 32 })

/-! ### Capture (R155 to R158) -/

def State.cap (s : State) (g : Nat) : CapSt := (s.cluster g).cap
def State.updCap (s : State) (g : Nat) (f : CapSt → CapSt) : State := s.updCluster g (fun c => { c with cap := f c.cap })
def State.capState (s : State) (g : Nat) : Nat := s.fld (CLU_CAP_STAT g) fCLU_CAP_STAT_STATE
def State.setCapState (s : State) (g v : Nat) : State := s.setFld (CLU_CAP_STAT g) fCLU_CAP_STAT_STATE v

/-- Entries of one way. -/
def CapSt.depth (c : CapSt) : Nat := 4096 / 2 ^ c.ways

/-- The local channel a way captures, if it is enabled and below 2^W (R155). -/
def CapSt.chan (c : CapSt) (w : Nat) : Option Nat :=
  let b := c.way.getD w 0
  if w < 2 ^ c.ways && b.testBit 7 then some (b % 32) else none

/-- CAPTURE_ARM (R157): takes the configuration; the rings fill from period k+2. While capture runs it starts again, STATE IDLE up to
period k+2 (R158; DESIGN CHOICE, assumption 52). -/
def execCaptureArm (g : Clu) (s : State) : Out := s.toTile (g / 4) (CLU_CAP_GO g) fun s =>
  if s.pwr g < 2 then .next s
  else
    let cfg := s.rd (CLU_CAP_CFG g)
    let ways := min 5 (fCLU_CAP_CFG_WAYS.get cfg)
    let stamp := s.rd64 (CLU_CAP_AT_LO g)
    let trig := fCLU_CAP_CFG_TRIG.get cfg
    let late := trig == 1 && s.isLate stamp
    let c : CapSt := {
      running := true, ways, trig, trigWay := fCLU_CAP_CFG_TRIG_WAY.get cfg
      pre := min (fCLU_CAP_CFG_PRE.get cfg) (4096 / 2 ^ ways - 1), level := (s.rd (CLU_CAP_LEVEL g)).toInt
      way := (List.range 32).map (fun w => bits (s.rd (CLU_CAP_WAY g (w / 4))).toNat (8 * (w % 4)) 8)
      start := s.tick + 2, at_ := if trig = 1 && !late then some stamp else none }
    let s1 := if (s.cap g).running then s.setCapState g 0 else s
    .next ((s1.updCap g (fun _ => c)).raiseIf late (CLU_CAP_STAT g) fCLU_CAP_STAT_LATE)

/-- CAPTURE_STOP (R158): the entry of period m+1 is the last. -/
def execCaptureStop (g : Clu) (s : State) : Out := s.toTile (g / 4) (CLU_CAP_GO g) fun s =>
  if (s.cap g).running then .next (s.updCap g (fun c => { c with stopAt := c.stopAt.or (some (s.tick + 1)) })) else .next s

/-- CAPTURE_FORCE (R157): the trigger holds from two periods later. -/
def execCaptureForce (g : Clu) (s : State) : Out := s.toTile (g / 4) (CLU_CAP_GO g) fun s =>
  if (s.cap g).running then .next (s.updCap g (fun c => { c with forceFrom := c.forceFrom.or (some (s.tick + 2)) })) else .next s

/-- CAPTURE_DONE (R157): D - PRE entries from the trigger on have been written. -/
def execCaptureDone (g : Clu) (s : State) : Out :=
  if (s.cap g).running && s.capState g = 2 && (s.cap g).after = 0 then
    .next (((s.updCap g (fun _ => {})).setCapState g 3).cluEvent g fCLU_INT_STAT_CAPTURE)
  else .next s

/-- A signal of channel n as computed in the present period (Table 06-4). -/
def State.capSignal (s : State) (n code : Nat) : Word :=
  let d := s.desc n
  if !s.inRun n || !d.en then 0
  else if 16 ≤ code then
    let k := (code - 16) / 4
    let x := (s.eng n).slot k
    if !d.present k then 0 else
      wordOf (toQ (match (code - 16) % 4 with | 0 => x.e | 1 => x.p | 2 => x.i | _ => x.u))
  else match code with
    | 1 => wordOf (s.chan n).smp.capV
    | 2 => wordOf (s.chan n).smp.capI
    | 3 => wordOf (s.eng n).raw
    | 4 => wordOf (s.eng n).r
    | 5 => s.rd (CH_DRIVE_NOW n)
    | 6 => wordOf (toQ (driveOf (s.fld (CH_DAC_CODE n) fCH_DAC_CODE_CODE)))
    | 7 => wordOf (s.inj n).x
    | 8 => if d.modelEn then wordOf (s.model n).rho else 0
    | 9 => if d.modelEn then wordOf (s.model n).ihat else 0
    | 10 => if d.modelEn then s.rd (CH_MODEL_G n) else 0
    | 11 => if d.modelEn then s.rd (CH_MODEL_C n) else 0
    | 12 => if d.auxEn then wordOf (s.eng n).aux else 0
    | 13 => if d.gang != 0xFF && !d.leader then s.rd (CH_GANG_SHARE n) else 0
    | 14 => BitVec.ofNat 32 (s.ctrl n + 8 * s.fld (CH_ENG_STAT n) fCH_ENG_STAT_MODE + 16 * (s.inj n).active.toNat +
        32 * (s.model n).above.toNat + 64 * (s.eng n).discarded.toNat)
    | _ => 0

/-- The four signal codes of a channel. -/
def State.capCodes (s : State) (n : Nat) : List Nat := (List.range 4).map (fun k => bits (s.lv (CH_CAP_SEL n)).toNat (8 * k) 5)

/-- Does a trigger that needs nothing of the period before hold in the present one (Table 06-5)? -/
def State.capTrigger (s : State) (g : Nat) : Bool :=
  let c := s.cap g
  let force := match c.forceFrom with | some t => decide (t ≤ s.tick) | none => false
  let way (f : Nat → Bool) : Bool := match c.chan c.trigWay with | some i => f (32 * g + i) | none => false
  force || match c.trig with
    | 1 => match c.at_ with | some x => atOrAfter s.now x | none => true
    | 2 => way (fun n => (s.inj n).active && (s.inj n).first)
    | 3 => way (fun n => (s.chan n).winV.cond || (s.chan n).winI.cond)
    | 4 => way (fun n => (s.model n).cond)
    | _ => false

/-- Do triggers 5 to 7 hold, for the CTRL and signal 0 of a period and of the one before? -/
def CapSt.crosses (c : CapSt) (ctrl : Option Nat) (sig : Option Int) : Bool :=
  match c.trig with
  | 5 => match c.prevCtrl, ctrl with | some p, some x => p != x | _, _ => false
  | 6 => match c.prevSig, sig with | some p, some x => decide (p < c.level) && decide (c.level ≤ x) | _, _ => false
  | 7 => match c.prevSig, sig with | some p, some x => decide (c.level < p) && decide (x ≤ c.level) | _, _ => false
  | _ => false

/-- The present period's entry of every way, as far as the period knows it; the period before the first armed one is looked at only
(R156, R157). -/
def State.capTick (s : State) (g : Nat) : State :=
  let c := s.cap g
  if !c.running || s.tick + 1 < c.start || (s.capState g = 2 && c.after = 0) then s
  else
    let stored := decide (c.start ≤ s.tick)
    let at_ (w k : Nat) : Nat := cluBase g + 0x300000 + w * (0x10000 / 2 ^ c.ways) + 16 * c.idx + 4 * k
    let ways := if stored then (List.range (2 ^ c.ways)).filterMap (fun w => (c.chan w).map (fun i => (w, 32 * g + i))) else []
    let put (m : Mem) (w : Nat × Nat) : Mem :=
      (List.range 4).foldl (fun m k => m.writeLE (at_ w.1 k) (s.capSignal w.2 ((s.capCodes w.2).getD k 0)).toNat 4) m
    let words := ways.flatMap (fun w => (List.range 4).filterMap (fun k =>
      if (s.capCodes w.2).getD k 0 = 14 && s.inRun w.2 && (s.desc w.2).en then some (at_ w.1 k, w.2) else none))
    let n := (c.chan c.trigWay).map (32 * g + ·)
    let code (n : Nat) : Nat := (s.capCodes n).getD 0 0
    let e : CapEntry := {
      tick := s.tick, stamp := s.now, stored, hold := s.capTrigger g, words
      sig := n.map (fun n => (s.capSignal n (code n)).toInt), ctrl := n.map (fun n => s.ctrl n)
      status := match n with | some n => code n == 14 && s.inRun n && (s.desc n).en | none => false }
    let s0 := if s.tick = c.start then s.setCapState g 1 else s
    { s0 with capMem := ways.foldl put s0.capMem }.updCap g (fun c => { c with entry := some e })

/-- At the tick after a period its CTRL stands (R127): code 14 of the entry follows it, then the trigger is judged. -/
def State.capClose (s : State) (g : Nat) : State :=
  let c := s.cap g
  match c.entry with
  | none => s
  | some e =>
    let fix (m : Mem) (w : Nat × Nat) : Mem :=
      if s.ctrl w.2 = 6 then m.writeLE w.1 ((m.read w.1).toNat / 8 * 8 + 6) 1 else m
    let low := match c.chan c.trigWay with | some i => s.ctrl (32 * g + i) == 6 | none => false
    let ctrl := e.ctrl.map (fun x => if low then 6 else x)
    let sig := e.sig.map (fun x => if low && e.status then x / 8 * 8 + 6 else x)
    let hold := e.hold || c.crosses ctrl sig
    let s1 := { s with capMem := e.words.foldl fix s.capMem }.updCap g (fun c => { c with prevSig := sig, prevCtrl := ctrl, entry := none })
    if !e.stored then s1
    else
      let fire := s.capState g = 1 && hold
      let after := if fire then c.depth - c.pre - 1 else c.after - 1
      let s2 := s1.updCap g (fun c => { c with idx := (c.idx + 1) % c.depth, written := c.written + 1, after })
      if fire then
        (((s2.setCapState g 2).setFld (CLU_CAP_STAT g) fCLU_CAP_STAT_TRIG_IDX c.idx).wr64 (CLU_CAP_TSTAMP_LO g) e.stamp).raiseIf
          (c.written < c.pre) (CLU_CAP_STAT g) fCLU_CAP_STAT_PRE_SHORT
      else s2

/-- End a capture before DONE (R158); one that has all its entries only awaits CAPTURE_DONE. -/
def State.capHalt (s : State) (g : Nat) : State :=
  if (s.cap g).running && !(s.capState g = 2 && (s.cap g).after = 0) then
    ((s.updCap g (fun _ => {})).setCapState g 0).raise (CLU_CAP_STAT g) fCLU_CAP_STAT_STOPPED
  else s

/-- The same once the entry of the period before is complete. -/
def State.capEnd (s : State) (g : Nat) : State := (s.capClose g).capHalt g

/-- The cluster leaves IDLE: the capture ends, with an open entry at the coming tick. -/
def State.capLeave (s : State) (g : Nat) : State :=
  if (s.cap g).entry.isSome then s.updCap g (fun c => { c with stopAt := some 0 }) else s.capHalt g

/-- The capture at a tick whose codes are known: the entry of the period before is complete, and the last one under a STOP. -/
def State.capSettle (s : State) (g : Nat) : State :=
  match (s.cap g).entry, (s.cap g).stopAt with
  | some e, some t => if t ≤ e.tick then s.capEnd g else s.capClose g
  | some _, none => s.capClose g
  | none, _ => s

end Sys2Proof.Machine
end

