-- ==== Sys2Proof/Machine/Engine.lean ====
section
/-!
DEFINITION. The loop engine (chapters 04 and 05): one period of a cluster's schedule, saturation modes, gangs, residue checks
and discarded periods, the code applied at a tick.
-/

namespace Sys2Proof.Machine

/-! ### Codes at the tick (R100, R127, R204, R205) -/

/-- Sources of channel n whose release is due at the coming tick, as far as the present period knows. -/
def State.releaseDue (s : State) (n : Nat) : Nat :=
  let c := s.chan n
  let t := s.tick + 1
  s.releasing n t ||| (match c.pg.release with | some (x, _) => if x = t then 1 else 0 | none => 0) |||
    (match c.dac.modeStart with
      | some x => if x + 16 = t && !(match c.dac.modeNext with | some (y, _) => decide (y ≤ t) | none => false)
        then 2 ^ srcModeSwitch else 0
      | none => 0) |||
    (if c.trk.computed.isSome then 2 ^ srcUnderrun else 0) |||
    (if s.haltRestart then 2 ^ srcHalt else 0)

/-- A source holds and no release of it is due at the coming tick (R127, "known at cycle 0"). -/
def State.heldThrough (s : State) (n : Nat) : Bool := (List.range 10).any (fun b =>
  (s.holdBits n).testBit b && !(s.releaseDue n).testBit b)

/-- Report the outcome of a period: CTRL, and IN_CTRL of each slot. -/
def State.setCtrl (s : State) (n c : Nat) : State :=
  (List.range 4).foldl (fun t k => t.setBit (LOOP_STAT n k) fLOOP_STAT_IN_CTRL (c == k))
    (s.setFld (CH_LOOP_STAT n) fCH_LOOP_STAT_CTRL c)

/-- The registers of a slot that is absent, or whose channel is disabled, read as 0 (R108). -/
def State.zeroSlot (s : State) (n k : Nat) : State :=
  let s1 := ((s.wr (LOOP_ERR n k) 0).wr (LOOP_OUT n k) 0).wr (LOOP_INT n k) 0
  (s1.setBit (LOOP_STAT n k) fLOOP_STAT_IN_CTRL false).setBit (LOOP_STAT n k) fLOOP_STAT_TRACKING false

/-- The code applied at the present tick: the engine's in RUN while no source holds, else the safe code, which the park buffer takes from
CH_SAFE_CODE itself and the DAC slice beside it as R206 says (R204, R207). A major transition of the slice sets DEGLITCH (R205). The
CTRL of the period before follows the code (R127). -/
def State.applyCode (s : State) (n : Nat) : State :=
  let held := s.isHeld n || !s.inRun n
  let a := CH_DAC_CODE n
  let slice := if held then (s.dac n).safe else (s.eng n).hold
  let code := if held then s.fld (CH_SAFE_CODE n) fCH_SAFE_CODE_SAFE else slice
  let s1 := ((s.setFld a fCH_DAC_CODE_CODE code).setBit a fCH_DAC_CODE_SAFE held).updDac n (fun d => { d with last := slice })
  let s2 := s1.raiseIf (s.biased n && slice / 16384 != (s.dac n).last / 16384) (CH_DAC_STAT n) fCH_DAC_STAT_DEGLITCH
  if s.ctrl n = 7 then s2 else s2.setCtrl n (if held || !(s.desc n).en then 6 else (s.eng n).sel)

/-- The drive of the code applied at the present tick (R127). -/
def State.dApplied (s : State) (n : Nat) : Int := driveOf (s.fld (CH_DAC_CODE n) fCH_DAC_CODE_CODE)

/-! ### GUARD timer (R112 to R115) -/

/-- The GUARD timer at the start of the present period: loaded, or less the period in RUN that has ended (R114, R115). -/
def State.guardTick (s : State) (n : Nat) : State :=
  let a := CH_ENG_STAT n
  let e := s.eng n
  if !e.guardLoad && !e.ran then s
  else
    let v := if e.guardLoad && s.inRun n then 4096 else s.fld a fCH_ENG_STAT_GUARD_LEFT - e.ran.toNat
    ((s.setFld a fCH_ENG_STAT_GUARD_LEFT v).setBit a fCH_ENG_STAT_TIMER (v != 0)).updEng n (fun e =>
      { e with guardLoad := false, ran := false })

/-- The present period in RUN counts for a GUARD timer that is not 0 (R114). -/
def State.guardCount (s : State) (n : Nat) : State :=
  if s.fld (CH_ENG_STAT n) fCH_ENG_STAT_GUARD_LEFT = 0 then s else s.updEng n (fun e => { e with ran := true })

/-- GUARD_TIMER_EXPIRY (R114): the decrement at the end of the present period reaches 0. -/
def execGuardTimerExpiry (n : Ch) (s : State) : Out :=
  let a := CH_ENG_STAT n
  if s.fld a fCH_ENG_STAT_GUARD_LEFT = 1 && (s.eng n).ran && !(s.eng n).guardLoad then
    .next ((s.setFld a fCH_ENG_STAT_GUARD_LEFT 0).setBit a fCH_ENG_STAT_TIMER false)
  else .next s

/-- GUARD mode in the present period (R114). -/
def State.guardMode (s : State) (n : Nat) : Bool :=
  s.fld (CH_ENG_STAT n) fCH_ENG_STAT_GUARD_LEFT != 0 || (s.inj n).active || s.bit (CH_ENG_CTL n) fCH_ENG_CTL_GUARD_FORCE ||
    s.bit (CLU_ENG_CTL (n / 32)) fCLU_ENG_CTL_GUARD_ALL

/-! ### Gangs (R141 to R144, R70) -/

/-- The share message of a leader in RUN: its I of the present tick, or the bridge value (R141, R175). -/
def State.shareOf (s : State) (n : Nat) : Option Share :=
  let d := s.desc n
  if d.leader && s.inRun n then some ⟨d.gang, s.devPos, n, s.irange n, (s.chan n).smp.iUse⟩ else none

/-- The share value a member matches (R142). -/
def State.shareMatch (s : State) (n : Nat) : Option Int :=
  let d := s.desc n
  match s.gangEntry (n / 32) d.gang with
  | some e => (s.shares.find? (fun x => x.gang == d.gang && x.dev == e.dev && x.leader == e.leaderCh && x.range == s.irange n)).map
      (·.value)
  | none => none

/-- A gang member that is not its leader. -/
def ChDesc.follower (d : ChDesc) : Bool := d.en && d.gang != 0xFF && !d.leader

/-- A cluster's episode of unmatched share messages (R70): one for all its members together; it starts with the first period in which a
member finds no match and ends with the first in which every member does, and GANG_MISMATCH is set and logged at its start. R70 says 'in
every period'; the model compares, and reports, only while the member's cluster is in RUN, where slot 0 and its share term are computed
at all (Table 04-1). (DESIGN CHOICE, assumption 48.) -/
def State.mismatchTick (s : State) (g : Nat) : State :=
  let bad := s.pwr g == 3 && (chansOf g).any (fun n => (s.desc n).follower && (s.shareMatch n).isNone)
  let s1 := if bad && !(s.cluster g).mismatch then
      ((s.raise (CLU_BANK_STAT g) fCLU_BANK_STAT_GANG_MISMATCH).logEv 2 3 1 (CLU_BANK_STAT g) g 0).cluEvent g fCLU_INT_STAT_GANG
    else s
  s1.updCluster g (fun c => { c with mismatch := bad })

/-! ### One channel's items before the exponents -/

/-- What a channel computes in a period before stage exponents are known. -/
structure ChanCalc where
  n : Nat
  guard : Bool
  raw : Int
  r : Int
  v : Int
  d2r : Int
  aux : Int
  stale : Bool
  share : Option Int
  /-- The burden step, and whether a full scale it uses is 0 (R160, R167). -/
  step : Int
  zero : Bool
  slots : List SlotCalc
deriving DecidableEq, Repr

/-- A slot that is absent or not computed: all 0. -/
def SlotCalc.none : SlotCalc := ⟨0, 0, 0, 0, 0, false, false, false, false, 0, false, false, false, false, 0⟩

/-- What the converter of an auxiliary input makes of a voltage in units of 2^-30 of 5 V (R437): 0 V to 5.0 V in steps of 16 bits (DESIGN
CHOICE, assumption 42: rounded down). -/
def auxSample (x : Int) : Int := max 0 (min (2 ^ 30) (x / 2 ^ 14 * 2 ^ 14))

/-- Auxiliary input of a channel and whether its sample is stale (R139). -/
def State.auxIn (s : State) (n : Nat) (inp : TickIn) : Int × Bool :=
  let d := s.desc n
  let k := n / 128 * 16 + d.aux
  if !d.auxEn then (0, false)
  else if inp.auxStale.contains k then (SMap.get 0 s.aux k, true)
  else (auxSample (inputAt inp.aux k), false)

/-- The measured quantity of a source (Table 05-1), exact; `gang` is the gang's sum of tick k-1 of each leader. -/
def State.measured (s : State) (n src : Nat) (aux : Int) (gang : List (Nat × Int)) : Int :=
  let x := (s.chan n).smp
  match src with
  | 0 => ofQ x.v
  | 1 => ofQ x.iUse
  | 2 => x.v * x.iUse.natAbs * 2 ^ 68
  | 3 => ofQ aux
  | _ =>
    let m := match s.gangEntry (n / 32) (s.desc n).gang with | some e => max 1 e.members | none => 1
    ofQ (inputAt gang n) / m

/-- The side on which `ref` stops a slot of a kind whose output is `u`: 1 above it, -1 below; at equality an upper slot is stopped from
above and a lower slot from below, and slot 0 not at all. -/
def stopSide (kind : Nat) (u ref : Int) : Int :=
  if ref < u then 1 else if u < ref then -1 else if kind = 2 then 1 else if kind = 3 then -1 else 0

/-- Slot s saturated in the period before, and its direction (R113): that of the clamp, or the side of the selector bound that stopped it.
Where neither did and the code was substituted (CTRL 6, R127) the rule names no direction: the model takes the side of d_applied, and none
for slot 0 where its output equals it (DESIGN CHOICE, assumption 51). -/
def State.satDir (s : State) (n k : Nat) (d : ChDesc) : Int :=
  let x := (s.eng n).slot k
  if x.satDir != 0 then x.satDir
  else if s.ctrl n = 6 then stopSide (d.kind k) x.u (s.dApplied n)
  else 0

/-- The raw setpoint of the coming tick (R129, R143, R220). -/
def State.rawSetpoint (s : State) (n : Nat) (share : Option Int) : Int :=
  let t := s.trk (s.feedTrack n)
  let base := if t.has then t.val else (s.lv (CH_SETPOINT n)).toInt
  let kg := coefVal (s.coef n (s.coefBank n) 0 4)
  let sh := match share with | some x => rhe (kg * x) (2 ^ 128) | none => 0
  sat32 (base + sh + s.pgTerm n)

/-- The setpoint path: raw setpoint, r, v, second difference (R130, R133, R223); at RUN entry and in the period before a halt's
release (R325) it starts at slot 0's measured quantity. -/
def State.setpointPath (s : State) (n : Nat) (d : ChDesc) (share : Option Int) (aux : Int) (gang : List (Nat × Int)) :
    Int × Int × Int × Int :=
  let e := s.eng n
  let raw := s.rawSetpoint n share
  let y0 := sat32 (rhe (s.measured n (d.src 0) aux gang) (2 ^ 98))
  if e.entry || s.haltRestart then (raw, y0, 0, 0)
  else
    let ramp := match (s.chan n).pg.release with
      | some (t, _) => t == s.tick + 1 && s.lbit (PG_REL_CTL n) fPG_REL_CTL_RAMP
      | none => false
    let r := if ramp then y0 else e.r
    let v := if ramp then 0 else e.v
    let rate0 := (s.lv (CH_SLEW_RATE n)).toNat
    let rate := if d.follower && rate0 = 0 then 0x100000 else rate0
    let vn := slewStep rate (s.lv (CH_SLEW_ACC n)).toNat v (raw - r)
    (raw, sat32 (r + vn), vn, vn - v)

/-- The burden step computed in the present period (R167), 0 where none is, and whether a full scale it uses is 0. -/
def State.burdenStep (s : State) (n : Nat) : Int × Bool :=
  match (s.rng n).prog with
  | some p =>
    if s.lbit (CH_RANGE_CTL n) fCH_RANGE_CTL_BURDEN_EN && s.tick + 1 = p.j + p.m then
      let ia := ofQ (s.chan n).smp.iUse
      let ib := scaleX ia (ratio (s.iScale n p.a) (s.iScale n p.b))
      (mulX ib (coefVal (s.lv (CH_IRANGE_BURDEN n p.b))) - mulX ia (coefVal (s.lv (CH_IRANGE_BURDEN n p.a))),
        ratioBad (s.iScale n p.a) (s.iScale n p.b))
    else (0, false)
  | none => (0, false)

/-- All items of channel n up to the slot laws (R120, R122); an error moves the output in the direction of (KP + KI) times it, which
decides R113's hold (DEDUCED, assumption 51); with a halt's release at the coming tick every slot's integrator is set
as a tracking slot's (R325). -/
def State.chanCalc (s : State) (n : Nat) (inp : TickIn) (gang : List (Nat × Int)) : ChanCalc :=
  let d := s.desc n
  let (aux, stale) := s.auxIn n inp
  let share := if d.follower then s.shareMatch n else none
  let (raw, r, v, d2r) := s.setpointPath n d share aux gang
  let e := s.eng n
  let guard := s.guardMode n
  let restart := s.haltRestart
  let bank := s.coefBank n
  let ictl := s.lv (CH_INJ_CTL n)
  let node := fCH_INJ_CTL_NODE.get ictl
  let islot := fCH_INJ_CTL_SLOT.get ictl
  let x := ofQ (s.inj n).x
  let (step, zero) := s.burdenStep n
  let slots := (List.range 4).map (fun k =>
    if !d.present k then SlotCalc.none
    else
      let ref := if k = 0 then ofQ r + (if node = 0 then x else 0) else ofQ (s.lv (LOOP_LIMIT n k)).toInt
      let err := ref - s.measured n (d.src k) aux gang + (if node = 1 && islot = k then x else 0)
      let out := if node = 2 && islot = k then x else 0
      let y := e.slot k
      let kp := coefVal (s.coef n bank k 0)
      let ki := coefVal (s.coef n bank k 1)
      let ib := ibound (s.coef n bank k 5)
      let dir := s.satDir n k d
      let push := (kp + ki) * StageKind.wide.clamp err
      let hold := guard && !e.entry && !restart && ((dir = 1 && 0 < push) || (dir = -1 && push < 0))
      (slotLaw kp ki ib err (s.ffTerm n bank k d aux d2r) out y.i (s.dApplied n)
        (restart || (!guard && !e.entry && s.ctrl n != k)) hold y.preload).burden ib step)
  { n, guard, raw, r, v, d2r, aux, stale, share, step, zero, slots }

/-! ### Stages (R108, R109) -/

/-- Stage i of a slot: error, proportional, integrator, output. -/
def stageOf (i : Nat) : StageKind := match i with | 2 => .integ | 3 => .unit | _ => .wide
def SlotCalc.stage (c : SlotCalc) (i : Nat) : Int := match i with | 0 => c.e | 1 => c.p | 2 => c.i | _ => c.u

/-- The exponent of each stage 4 s + i of a cluster (R108), with the faulty copies of the period (R109). -/
def stageExps (cs : List ChanCalc) (faults : List (Nat × Int)) : List Int :=
  (List.range 16).map (fun t =>
    (stageOf (t % 4)).exponentWith (cs.map (fun c => (c.slots.getD (t / 4) SlotCalc.none).stage (t % 4)))
      ((faults.find? (fun f => f.1 == t)).map (·.2)))

/-- A slot's stages rounded to their fields. -/
def SlotCalc.rounded (c : SlotCalc) (k : Nat) (es : List Int) : SlotCalc :=
  let r (i : Nat) (x : Int) : Int := (stageOf i).round (es.getD (4 * k + i) 0) x
  { c with e := r 0 c.e, p := r 1 c.p, i := r 2 c.i, u := r 3 c.u, judged := r 3 c.judged }

/-! ### Residue checks (R116, R117, Table 04-6) -/

/-- The item of slot k. -/
def slotItem (k : Nat) : EngItem := match k with | 0 => .slot0 | 1 => .slot1 | 2 => .slot2 | _ => .slot3

/-- Items to recompute for a failed item of channel n, with what depends on it (R116, Table 04-6); of the two reserve items, an injection
enters its node's slot, a bridge value every slot with SRC 1 or 2. -/
def State.itemDeps (s : State) (n : Nat) (x : EngItem) : List EngItem :=
  let d := s.desc n
  let ctl := s.lv (CH_INJ_CTL n)
  let slots (f : Nat → Bool) : List EngItem := ((List.range 4).filter (fun k => d.present k && f k)).map slotItem
  match x with
  | .setpoint => [.setpoint, .slot0, .selector]
  | .ff => [.ff, .slot0] ++ (if d.ffRail then slots (0 < ·) else []) ++ [.selector]
  | .injection =>
    let node := fCH_INJ_CTL_NODE.get ctl
    if node = 3 then [.injection] else [.injection, slotItem (if node = 0 then 0 else fCH_INJ_CTL_SLOT.get ctl), .selector]
  | .bridging => [.bridging] ++ slots (fun k => d.src k == 1 || d.src k == 2) ++ [.selector]
  | .cal => [.cal, .slot0, .slot1, .slot2, .slot3, .selector, .model]
  | .selector => [.selector]
  | .model => [.model]
  | y => [y, .selector]

/-- Lane-cycles of an item; the calibration correction never fits. -/
def itemCost : EngItem → Nat
  | .setpoint => 6
  | .ff => 4
  | .injection => 4
  | .bridging => 8
  | .cal => 25
  | .slot0 => 12
  | .slot1 => 8
  | .slot2 => 8
  | .slot3 => 8
  | .selector => 4
  | .model => 6

/-- Do the recompute of these items and the recheck fit in 24 lane-cycles? -/
def State.recomputeFits (s : State) (n : Nat) (xs : List EngItem) : Bool :=
  let need := ((xs.map (s.itemDeps n)).flatten).eraseDups
  need.foldl (fun a i => a + itemCost i) 2 ≤ 24

/-- What becomes of a channel's period: 0 stands, 1 recomputed, 2 the model's results discarded, 3 all discarded. Where the recompute fits
only without a failed model item, or only the model's recheck fails, the model's results alone are dropped, as for a model item on its own
(R117; DESIGN CHOICE, assumption 51). -/
def State.residueOutcome (s : State) (n : Nat) (ups : List Upset) : Nat :=
  if ups.isEmpty then 0
  else
    let rest := ups.filter (fun u => u.item != .model)
    if s.recomputeFits n (ups.map (·.item)) && ups.all (·.recheckOk) then 1
    else if rest.isEmpty || (s.recomputeFits n (rest.map (·.item)) && rest.all (·.recheckOk)) then 2
    else 3

/-- The residue flags and counters of a channel. Outcome 2 counts as not recovered, also where other items of the period were recomputed
(R116, R117; DESIGN CHOICE, assumption 51). -/
def State.residueFlags (s : State) (n outcome : Nat) : State :=
  let g := n / 32
  if outcome = 0 then s
  else
    let s1 := (s.raise (CH_ENG_STAT n) fCH_ENG_STAT_RES_FAIL).raise (CLU_ENG_STAT g) fCLU_ENG_STAT_RES_FAIL
    if outcome = 1 then
      ((s1.raise (CH_ENG_STAT n) fCH_ENG_STAT_RECOMPUTED).raise (CLU_ENG_STAT g) fCLU_ENG_STAT_RECOMPUTED).incSat (CLU_ENG_CNT g)
        fCLU_ENG_CNT_RECOMPUTES
    else
      (((s1.raise (CH_ENG_STAT n) fCH_ENG_STAT_UNRECOVERED).raise (CLU_ENG_STAT g) fCLU_ENG_STAT_UNRECOVERED).incSat
        (CLU_ENG_CNT g) fCLU_ENG_CNT_UNRECOVERED).cluEvent g fCLU_INT_STAT_ENGINE

/-- RESIDUE_TEST (R119): acts in period k+1; ignored while a test has not reached its period. -/
def execResidueTest (g : Clu) (lane : Fin 8) (chan : Fin 4) (s : State) : Out := s.toTile (g / 4) (CLU_ENG_TEST g) fun s =>
  match (s.cluster g).test with
  | some (t, _, _) => if s.tick < t then .next s else
      .next (s.updCluster g (fun c => { c with test := some (s.tick + 1, lane, chan) }))
  | none => .next (s.updCluster g (fun c => { c with test := some (s.tick + 1, lane, chan) }))

/-- LANE_FAIL (R118): 16 consecutive periods with a residue failure in the lane of global quad q. -/
def execLaneFail (q : Quad) (s : State) : Out :=
  let g := q.val / 8
  let l := q.val % 8
  let a := CLU_ENG_STAT g
  if 16 ≤ (s.cluster g).laneFails.getD l 0 && !(s.rd a).getLsbD l then
    let s1 := (s.setBitAt a l).over (quadChans q) (fun t n => t.after (s.tick + 1) (.hold n srcLaneFail true))
    .next (((s1.logEv 2 l 3 a g 0).raiseFault 10).cluEvent g fCLU_INT_STAT_ENGINE)
  else .next s

/-- Residue failures of channel n in the present period: the upsets, and a test of it (R116, R119). In a lane already declared failed they
are no longer recomputed (R118), and the model drops them wholly, flags included (DESIGN CHOICE, assumption 51). -/
def State.upsetsOf (s : State) (n : Nat) (inp : TickIn) : List Upset :=
  let g := n / 32
  if (s.rd (CLU_ENG_STAT g)).getLsbD (n / 4 % 8) then []
  else
    let t := match (s.cluster g).test with
      | some (k, l, c) => if k = s.tick && n = 32 * g + 4 * l + c then [⟨n, .slot0, true⟩] else []
      | none => []
    inp.upsets.filter (fun u => u.ch == n) ++ t

/-- Count consecutive periods with a residue failure on an enabled channel, lane by lane (R118); a test does not count. Outside RUN only
the calibration correction runs (R177), and outside IDLE and RUN nothing that could fail. -/
def State.laneCount (s : State) (g : Nat) (inp : TickIn) : State :=
  let fails (l : Nat) : Bool := inp.upsets.any (fun u => u.ch / 4 == 8 * g + l && (s.desc u.ch).en &&
    (s.pwr g == 3 || (s.pwr g == 2 && u.item == .cal)))
  s.updCluster g (fun c => { c with laneFails := (List.range 8).map (fun l => if fails l then c.laneFails.getD l 0 + 1 else 0) })

/-! ### Finishing a channel: selector, burden step, drive, reports -/

/-- A channel after the selector: its rounded slots, the selector's result, the drive with the burden step, whether a clamp of the drive
acted, and whether on the burden step. -/
structure ChanDone where
  cc : ChanCalc
  sel : Selected
  drive : Int
  sat : Bool
  clamp : Bool
deriving DecidableEq, Repr

/-- Selector and burden step of a channel: the selector judges the proposals as they were before the step, which moves them all alike,
and the step moves its result unless the code of the coming tick is substituted (R125, R167, R170). A slot that the selector did not pass
is stopped on the side of what it passed, and the slot in control where the window stops the step (R113). -/
def State.chanSelect (s : State) (c : ChanCalc) (es : List Int) : ChanDone :=
  let n := c.n
  let d := s.desc n
  let slots := (List.range 4).map (fun k => (c.slots.getD k SlotCalc.none).rounded k es)
  let lo := windowVal (s.lv (CH_DRIVE_LO n))
  let hi := windowVal (s.lv (CH_DRIVE_HI n))
  let sel := select ((List.range 4).map d.kind) (slots.map (·.judged)) lo hi
  let moves := c.step != 0 && !s.heldThrough n
  let want := if moves then sel.d + c.step else sel.d
  let drive := StageKind.unit.clamp (if moves then min hi (max lo want) else want)
  let slots := (List.range 4).map (fun k =>
    let x := slots.getD k SlotCalc.none
    { x with dirU := if x.dirU != 0 then x.dirU else if sel.ctrl = k then stopSide 1 want drive else stopSide (d.kind k) x.judged sel.d })
  { cc := { c with slots }, sel, drive, sat := sel.window || drive != want, clamp := moves && drive != want }

/-- Write a slot's results (R111, R113, R126, R128). -/
def State.slotReport (s : State) (n k ctrl : Nat) (c : SlotCalc) : State :=
  let g := n / 32
  let a := LOOP_SAT n k
  let s1 := s.updEng n (fun e => e.setSlot k { i := c.i, e := c.e, u := c.u, p := c.p, f := c.f, satDir := c.dirU })
  let s2 := (((((s1.raiseIf c.satE a fLOOP_SAT_ERR).raiseIf c.satP a fLOOP_SAT_P).raiseIf c.satI a fLOOP_SAT_I).raiseIf c.satU a
    fLOOP_SAT_OUT).raiseIf c.held a fLOOP_SAT_FROZEN)
  let s3 := (s2.setBit a fLOOP_SAT_I_NOW c.atBound).setBit a fLOOP_SAT_FROZEN_NOW c.held
  let flag (s : State) (b : Bool) (i : Nat) : State := if b then s.setBitAt (CLU_ENG_SAT g) (4 * k + i) else s
  let s4 := flag (flag (flag (flag s3 c.satE 0) c.satP 1) c.satI 2) c.satU 3
  let s5 := ((s4.wr (LOOP_ERR n k) (wordOf (toQ c.e))).wr (LOOP_OUT n k) (wordOf (toQ c.u))).wr (LOOP_INT n k) (wordOf (toQ c.i))
  let b := LOOP_STAT n k
  let s6 := (s5.setBit b fLOOP_STAT_IN_CTRL (ctrl == k)).setBit b fLOOP_STAT_TRACKING c.tracked
  ((s6.raiseIf (ctrl == k) b fLOOP_STAT_CTRL_SEEN).raiseIf c.tracked b fLOOP_STAT_TRACKED).raiseIf c.burdenClamp (CH_RANGE_STAT n)
    fCH_RANGE_STAT_BURDEN_CLAMP

/-- Blanking events that the codes of the coming tick cause (Table 10-4). -/
def State.blankCauses (s : State) (n : Nat) (r : Int) : Nat :=
  let e := s.eng n
  let sp := !e.entry && (s.lv (WIN_BLANK_STEP n)).toNat < (r - e.r).natAbs
  sp.toNat + (if s.pgTerm n != (s.chan n).pg.lastTerm then 4 else 0)

/-- Write a channel's results of the present period; `drv` is the drive rounded to its field (R100, R110, R128). -/
def State.chanReport (s : State) (c : ChanDone) (drv : Int) : State :=
  let n := c.cc.n
  let d := s.desc n
  let a := CH_LOOP_STAT n
  let known := s.heldThrough n
  let ctrl := if known then 6 else c.sel.ctrl
  let blank := s.blankCauses n c.cc.r
  let s1 := (List.range 4).foldl (fun t k =>
    if d.present k then t.slotReport n k ctrl (c.cc.slots.getD k SlotCalc.none) else t) s
  let s2 := s1.updEng n (fun e => { e with
    r := c.cc.r, v := c.cc.v, d2r := c.cc.d2r, entry := false, drive := drv, hold := codeOf drv, sel := c.sel.ctrl
    aux := c.cc.aux, blankNext := blank, raw := c.cc.raw, discarded := false })
  let s3 := ((s2.setFld a fCH_LOOP_STAT_CTRL ctrl).setBit a fCH_LOOP_STAT_CONFLICT_NOW c.sel.conflict).raiseIf c.sel.conflict a
    fCH_LOOP_STAT_CONFLICT
  let s4 := (s3.setBit a fCH_LOOP_STAT_AUX_STALE_NOW c.cc.stale).raiseIf c.cc.stale a fCH_LOOP_STAT_AUX_STALE
  let s5 := if ctrl < 6 then s4.setBitAt a (8 + ctrl) else s4
  let s6 := (s5.wr (CH_DRIVE_NOW n) (wordOf (toQ drv))).wr (CH_SLEW_NOW n) (wordOf c.cc.r)
  let s7 := s6.raiseIf c.sat (CLU_ENG_SAT (n / 32)) fCLU_ENG_SAT_DRIVE
  let s8 := (s7.raiseIf c.clamp (CH_RANGE_STAT n) fCH_RANGE_STAT_BURDEN_CLAMP).raiseIf c.cc.zero (CH_RANGE_STAT n)
    fCH_RANGE_STAT_RESCALE_SAT
  let s9 := s8.setBit (CH_ENG_STAT n) fCH_ENG_STAT_MODE c.cc.guard
  if d.follower then
    let t := (s9.setBit (CH_GANG_STAT n) fCH_GANG_STAT_MATCH c.cc.share.isSome).wr (CH_GANG_SHARE n)
      (wordOf (c.cc.share.getD 0))
    t.raiseIf c.cc.share.isNone (CH_GANG_STAT n) fCH_GANG_STAT_MISMATCH
  else s9

/-- Discard a channel's results of the present period (R117): every carried value stays, an aperture repeats the sample, a capture shows
what is kept. The reports of the period's own outcome (CTRL, SEEN, MODE, LOOP_SAT, the gang's) are results too and stay unwritten
(DESIGN CHOICE, assumption 51). -/
def State.chanDiscard (s : State) (n : Nat) (old : Sample) : State :=
  s.updChan n (fun c => { c with
    eng := { c.eng with discarded := true }, smp := { c.smp with
      accV := old.v, accI := old.iUse, accIr := old.ir, accVr := old.vr, capV := old.capV, capI := old.capI, repeated := true } })

/-- The gang sums a cluster's leaders use in the present period, of the samples of the tick before, with their counts
(R144). -/
def State.leaderSums (s : State) (g : Nat) : List (Nat × Int × Nat) :=
  (chansOf g).filterMap (fun n =>
    let d := s.desc n
    if d.leader then let (x, c) := s.gangTotal d.gang; some (n, x, c) else none)

/-- Report a leader's count (R144). -/
def State.leaderReport (s : State) (x : Nat × Int × Nat) : State :=
  let n := x.1
  let m := match s.gangEntry (n / 32) (s.desc n).gang with | some e => e.members | none => 0
  (s.setFld (CH_GANG_STAT n) fCH_GANG_STAT_RECEIVED x.2.2).raiseIf (x.2.2 != m) (CH_GANG_STAT n) fCH_GANG_STAT_COUNT_SHORT

/-- The model before the schedule: initialisation, or the settle counter's step (R148). A period that is discarded changes nothing in the
model (R146): an initialisation due in it comes in the next one (DESIGN CHOICE, assumption 51). -/
def State.modelBegin (s : State) (n : Nat) (discarded : Bool) : State :=
  let m := s.model n
  if !(s.desc n).modelEn then s.modelOff n
  else if discarded then s.updModel n (fun m => { m with init := m.init || (s.eng n).entry })
  else if (s.eng n).entry || m.init || m.reinitAt.any (· ≤ s.tick) then s.modelInit n
  else if m.settle = 0 then s
  else s.setSettle n (m.settle - 1)

/-- The stages whose two exponent copies disagree: those with a listed copy that is not the correct exponent (R109). -/
def stageFaults (good : List Int) (faults : List (Nat × Int)) : List Nat :=
  (List.range good.length).filter (fun k => match faults.find? (fun f => f.1 == k) with
    | some f => f.2 != good.getD k 0
    | none => false)

/-- One period of the engine of cluster g in RUN (Table 04-1); `olds` are the samples of the tick before. -/
def State.engineTick (s : State) (g : Nat) (inp : TickIn) (sums : List (Nat × Int × Nat)) (olds : Nat → Sample) : State :=
  let on := ((chansOf g).filter (fun n => (s.desc n).en)).map (fun n => (n, s.residueOutcome n (s.upsetsOf n inp)))
  let off := (chansOf g).filter (fun n => !(s.desc n).en && s.ctrl n == 7)
  let s0 := (s.over (chansOf g) State.guardCount).over off (fun t n => t.setCtrl n 6)
  let idle := (chansOf g).filter (fun n => !(s.desc n).en && ((s.inj n).active || (s.inj n).pend.isSome))
  let s1 := ((s0.over on (fun t x => (t.modelBegin x.1 (2 ≤ x.2)).injTick x.1)).over idle State.injTick).over sums State.leaderReport
  let gang := sums.map (fun x => (x.1, x.2.1))
  let cs := on.map (fun x => s1.chanCalc x.1 inp gang)
  let faults := (inp.expFaults.filter (fun f => f.clu == g)).map (fun f => (f.stage, f.exp))
  let es := stageExps cs faults
  let ds := cs.map (fun c => s1.chanSelect c es)
  let drives := ds.map (·.drive)
  let de := StageKind.unit.exponentWith drives ((faults.find? (fun f => f.1 == 16)).map (·.2))
  let s2 := s1.over (stageFaults (stageExps cs [] ++ [StageKind.unit.exponent drives]) faults) (fun t _ =>
    (t.raise (CLU_ENG_STAT g) fCLU_ENG_STAT_EXP_MISMATCH).logEv 2 19 1 (CLU_ENG_STAT g) g 0)
  let s3 := (List.range 4).foldl (fun t k =>
    t.wr (CLU_ENG_EXP g k) (BitVec.ofNat 32 ((List.range 4).foldl (fun a i => a + (es.getD (4 * k + i) 0 % 256).toNat * 256 ^ i) 0)))
    s2
  let s4 := s3.setFld (CLU_ENG_EXP4 g) fCLU_ENG_EXP4_EXP_DRIVE (de % 256).toNat
  let s5 := s4.over ds (fun t c =>
    let n := c.cc.n
    let o := ((on.find? (fun x => x.1 == n)).map (·.2)).getD 0
    let t1 := t.residueFlags n o
    if o = 3 then t1.chanDiscard n (olds n)
    else
      let t2 := t1.chanReport c (StageKind.unit.round de c.drive)
      if (s.desc n).modelEn && o != 2 then t2.modelTick n else t2)
  (s5.laneCount g inp).updCluster g (fun c => { c with test := match c.test with
    | some (k, l, x) => if k ≤ s.tick then none else some (k, l, x)
    | none => none })

/-- A period of cluster g in IDLE: the calibration correction alone runs (R177); its recompute does not fit, so that a failure repeats
the samples of the tick before (R116, R117, Table 04-6). -/
def State.idleTick (s : State) (g : Nat) (inp : TickIn) (olds : Nat → Sample) : State :=
  let bad := (chansOf g).filter (fun n => (s.desc n).en && (s.upsetsOf n inp).any (fun u => u.item == .cal))
  (s.over bad (fun t n => (t.residueFlags n 3).chanDiscard n (olds n))).laneCount g inp

/-! ### The channel at a tick, beside the engine -/

/-- The blanking events of Table 10-4 that fall at the present tick (R218). -/
def State.blankTick (s : State) (n : Nat) : State :=
  let b := (s.eng n).blankNext
  (s.updEng n (fun e => { e with blankNext := 0 })).over ((List.range 3).filter b.testBit) (fun t i => t.blankEvent n i (40 * s.tick))

/-- Windows and the trip latch at the present tick, after its blanking events: the EVENT condition of the period that has ended, whether that
period was quiet, and what the new period begins with (R216, R224). -/
def State.protectTick (s : State) (n : Nat) : State :=
  let inst := 40 * s.tick
  let pg := (s.chan n).pg
  let win (s : State) (w : Win) : State := s.updWin n w (fun x => { x with
    cond := x.seen && (s.route n w).testBit 2, seen := s.outside n w && !s.winMasked n w inst })
  let s3 := ((win (win s .v) .i).wr (PG_TRIP_SRC n) ((s.rd (PG_TRIP_SRC n)) &&& 0xFFFFFF1F)).refreshNow n inst
  let left := match (s3.chan n).blank.ends with | some e => e - inst | none => 0
  let s4 := s3.setFld (WIN_BLANK_NOW n) fWIN_BLANK_NOW_REMAIN left
  s4.updChan n (fun c => { c with pg := { c.pg with
    quiet := if pg.syncCause || pg.asyncSeen then 0 else c.pg.quiet + 1, syncCause := false, asyncSeen := s.tripInputs n inst != 0 } })

end Sys2Proof.Machine
end

