-- ==== Sys2Proof/Machine/Lanes.lean ====
section
/-!
DEFINITION. Event lanes and timing sets (chapter 12): groups, vectors in bit planes, edge placement, inputs, ball levels.
-/

namespace Sys2Proof.Machine

def State.lane (s : State) (l : Nat) : LaneSt := SMap.get {} s.lanes l
def State.setLane (s : State) (l : Nat) (x : LaneSt) : State := { s with lanes := SMap.set {} s.lanes l x }
def State.updLane (s : State) (l : Nat) (f : LaneSt → LaneSt) : State := s.setLane l (f (s.lane l))
def State.grp (s : State) (x : Nat) : GrpSt := SMap.get {} s.grps x
def State.setGrp (s : State) (x : Nat) (g : GrpSt) : State := { s with grps := SMap.set {} s.grps x g }
def State.updGrp (s : State) (x : Nat) (f : GrpSt → GrpSt) : State := s.setGrp x (f (s.grp x))

/-- EVL_GRP_STAT of global group x, and its STATE codes. -/
def grpStat (x : Nat) : Nat := EVL_GRP_STAT (x / 2) (x % 2)
def grStopped : Nat := 0
def grArming : Nat := 1
def grReady : Nat := 2
def grPlaying : Nat := 3
def grUnderrun : Nat := 4
def grDone : Nat := 5
def State.grpState (s : State) (x : Nat) : Nat := s.fld (grpStat x) fEVL_GRP_STAT_STATE
def State.setGrpState (s : State) (x v : Nat) : State := s.setFld (grpStat x) fEVL_GRP_STAT_STATE v

/-- The lanes of a group. -/
def grpLanes (x : Nat) : List Nat := (List.range 4).map (4 * x + ·)

/-! ### Lane levels (Tables 12-1 and 12-3, R261) -/

def State.laneCtl (s : State) (l : Nat) (f : Fld) : Bool := s.lbit (EVL_LANE_CTL (l / 8) (l % 8)) f
def State.laneOwned (s : State) (l : Nat) : Bool := (s.laneEntry l).1
/-- Channel that owns a lane. -/
def State.laneOwner (s : State) (l : Nat) : Nat := l / 8 * 32 + (s.laneEntry l).2.1
def State.laneInput (s : State) (l : Nat) : Bool := (s.laneEntry l).2.2
/-- IDLE as a logical level. -/
def State.idleLevel (s : State) (l : Nat) : Bool := s.laneCtl l fEVL_LANE_CTL_IDLE != s.laneCtl l fEVL_LANE_CTL_INV
/-- The owner is held at its safe code, as far as the lane heeds it. -/
def State.ownerHeld (s : State) (l : Nat) : Bool := s.laneCtl l fEVL_LANE_CTL_SAFE && s.isHeld (s.laneOwner l)

/-- The lane's codes act: its group plays and neither a swap nor a hold keeps it idle. -/
def State.lanePlays (s : State) (l : Nat) : Bool :=
  s.laneOwned l && (s.lane l).swapWait.isNone && 2 ≤ s.pwr (l / 8) && s.grpState (l / 4) == grPlaying &&
    (s.laneInput l || !(s.ownerHeld l || (s.lane l).safeWait.isSome))

/-- Level the device drives on a lane's ball; none at high impedance (Table 12-1, R252). -/
def State.evlBall (s : State) (l : Nat) : Option Bool :=
  let idle := s.laneCtl l fEVL_LANE_CTL_IDLE
  if s.pwr (l / 8) = 0 then none
  else if (s.lane l).swapWait.isSome then some idle
  else if !s.laneOwned l || s.laneInput l then none
  else if s.lanePlays l then some ((s.lane l).level != s.laneCtl l fEVL_LANE_CTL_INV)
  else some idle

/-- Is segment g in test mode? -/
def State.segTest (s : State) (g : Nat) : Bool := s.jtag.test.testBit g

/-- A ball of a segment in test mode: none at high impedance; cells as R401 numbers them, a control cell of 1 enables. -/
def State.scanBall (s : State) (g cell ctl : Nat) : Option Bool :=
  let c (k : Nat) : Bool := SMap.get false s.jtag.cells (64 * g + k)
  if s.fld TST_STAT fTST_STAT_IR = 5 || !c ctl then none else some (c cell)

/-- Ball EVL_l; none at high impedance: isolation decides first, then test mode, then the lane (R423). -/
def State.evlPin (s : State) (l : Nat) : Option Bool :=
  if s.isolated (l / 32) then none
  else if s.segTest (l / 8) then s.scanBall (l / 8) (26 + 3 * (l % 8)) (27 + 3 * (l % 8))
  else s.evlBall l

/-- Ball level of a lane as its receiver sees it. -/
def State.evlLevel (s : State) (l : Nat) : Bool := (s.evlPin l).getD (SMap.get false s.laneIn l)
/-- The same at a core clock cycle `x` of the present period, counted from tick 0 (R262): the level before the first later change. -/
def State.evlLevelAt (s : State) (l x : Nat) : Bool :=
  match (s.lane l).ins.find? (fun e => x < e.1) with
  | some e => (s.evlPin l).getD e.2
  | none => s.evlLevel l
/-- The condition a lane presents in the present period (R262). -/
def State.laneCond (s : State) (l : Nat) : Bool := (s.lane l).condAt == some s.tick

/-- A lane remembers a hold of its owner, seen before or at the present tick (R261). -/
def State.laneHold (s : State) (l t : Nat) : State :=
  if s.laneOwned l && s.ownerHeld l then s.updLane l (fun x => { x with safeWait := some t }) else s

/-- EVL_LANE_STAT at a tick, and the hold that R261 remembers. -/
def State.laneTick (s : State) (l : Nat) : State :=
  let a := EVL_LANE_STAT (l / 8) (l % 8)
  let s1 := (s.setBit a fEVL_LANE_STAT_LEVEL (s.evlLevel l)).setBit a fEVL_LANE_STAT_HIZ (s.evlPin l).isNone
  s1.laneHold l s.tick

/-- EVL_LANE_STAT shows the lane's entry of the active structure. -/
def State.laneShow (s : State) (l : Nat) : State :=
  let e := s.laneEntry l
  let a := EVL_LANE_STAT (l / 8) (l % 8)
  ((s.setBit a fEVL_LANE_STAT_OWNED e.1).setFld a fEVL_LANE_STAT_OWNER e.2.1).setBit a fEVL_LANE_STAT_DIR e.2.2

/-- The lanes of cluster g. -/
def cluLanes (g : Nat) : List Nat := (List.range 8).map (8 * g + ·)

/-- A change of the lane table at a commit, whose tick is the coming one (R252), given the entries before it. -/
def State.laneSwap (s : State) (g : Nat) (old : Nat → Bool × Nat × Bool) : State :=
  s.over (cluLanes g) (fun t l =>
    let t1 := t.laneShow l
    if old l = t.laneEntry l then t1
    else t1.updLane l (fun x => { x with swapWait := some (s.tick + 1), edges := [], watch := none, condAt := none }))

/-! ### Groups (R254 to R258) -/

/-- Read block b of a group's area; the planes of `ue` meet an uncorrectable error and read as 0 (R254, R255). Each is counted as an
error of its memory, which raises a cause (R387; where it lies in the staging SRAM is open, assumption 53); one log entry is made for the block, of SEVERITY 3 for that reason (R447). A block
that sequence memory does not give is lost (R31). -/
def State.stageBlock (s : State) (x b : Nat) (ue : List PlaneUe) : State :=
  let g := s.grp x
  if !s.memUp (x / 8) then s.setGrp x { g with ready := false, lost := true, planes := [] }
  else
  let s1 := s.setGrp x { g with ready := false, lost := false, planes := (List.range 16).map (fun p =>
    if ue.any (·.plane == p) then 0 else s.seqMem.readLE (g.base + 1024 * b + 64 * p) 64) }
  if ue.any (·.plane < 16) then
    let s2 := (ue.filter (·.plane < 16)).foldl (fun t p =>
      if p.staged then let (w, u) := t.free; u.eccLoad 3 (x / 2) w.toNat else t.eccLoad 5 0 (g.base + 1024 * b + 64 * p.plane)) s1
    (s2.raise (grpStat x) fEVL_GRP_STAT_ECC).logEv 2 13 3 (grpStat x) (x / 2) 0
  else s1

/-- Vector v of the staged block. -/
def GrpSt.vector (g : GrpSt) (v : Nat) : Nat :=
  (List.range 11).foldl (fun a p => a + ((g.planes.getD p 0).testBit (v % 512)).toNat * 2 ^ p) 0

/-- Fix cycle c with vector v of the area: the vector and the live timing-set values (R259). Each visit of a block reads it, but for block
0 as EVL_READY staged it. -/
def State.fixCycle (s : State) (x c v : Nat) (ue : List PlaneUe) : State :=
  let s1 := if v = 0 && (s.grp x).ready then s.updGrp x (fun g => { g with ready := false })
    else if v % 512 = 0 then s.stageBlock x (v / 512) ue else s
  let vec := (s1.grp x).vector v
  let ts := bits vec 8 3
  s1.updGrp x (fun g => { g with fixed := some ⟨c, vec, (List.range 4).map (fun l =>
    ((s.lv (EVL_TS_E1 (x / 2) (x % 2) ts l)).toNat, (s.lv (EVL_TS_E2 (x / 2) (x % 2) ts l)).toNat))⟩ })

/-- The group no longer plays: no edge of it is left. A STOP still to act makes a DONE group STOPPED at its tick (R258). -/
def State.grpEnd (s : State) (x st : Nat) : State :=
  let s1 := (s.setGrpState x st).updGrp x (fun g => { g with
    c0 := none, fixed := none, v := 0, stopAt := if st = grDone then g.stopAt else none })
  s1.over (grpLanes x) (fun t l => t.updLane l (fun y => { y with edges := [], watch := none }))

/-- Leaving IDLE or RUN stops a group (R258). -/
def State.grpLeave (s : State) (x : Nat) : State :=
  if s.grpState x = grStopped then s else (s.grpEnd x grStopped).raise (grpStat x) fEVL_GRP_STAT_ENDED

/-- EVL_ARM (R256). -/
def execEvlArm (x : Elg) (s : State) : Out := s.toTile (x / 8) (EVL_GRP_GO (x / 2) (x % 2)) fun s =>
  let g := x.val / 2
  let i := x.val % 2
  let len := s.fld (EVL_GRP_LEN g i) fEVL_GRP_LEN_LEN
  let st := s.grpState x
  if s.pwr g < 2 || !(st == grStopped || st == grDone) || len = 0 then .next (s.raise (grpStat x) fEVL_GRP_STAT_REFUSED)
  else
    let s1 := s.updGrp x (fun y => { y with
      mode := s.lfld (EVL_GRP_CTL g i) fEVL_GRP_CTL_MODE % 3, base := (s.rd (EVL_GRP_BASE g i)).toNat / 1024 * 1024, len
      atCyc := (s.rd (EVL_GRP_AT g i)).toNat, planes := [], ready := false, c0 := none, fixed := none, v := 0, stopAt := none })
    .next (s1.setGrpState x grArming)

/-- EVL_READY (R256, R255): block 0 is staged, which it cannot be while sequence memory does not answer (R31). -/
def execEvlReady (x : Elg) (ue : List PlaneUe) (s : State) : Out :=
  if s.grpState x = grArming && s.memUp (x / 8) then .next (((s.stageBlock x 0 ue).updGrp x (fun g => { g with ready := true })).setGrpState x grReady) else .next s

/-- EVL_START (R256): choose the first cycle. -/
def execEvlStart (x : Elg) (at_ : Bool) (s : State) : Out := s.toTile (x / 8) (EVL_GRP_GO (x / 2) (x % 2)) fun s =>
  let g := x.val / 2
  if s.grpState x != grReady || s.pwr g < 2 then .next (s.raise (grpStat x) fEVL_GRP_STAT_REFUSED)
  else
    let first := (s.nextStamp / 2 ^ 32 + 1) % 2 ^ 32
    let want := (s.grp x).atCyc
    let late := at_ && s.isLate (want * 2 ^ 32)
    let c := if at_ && !late then want else first
    let s1 := (s.updGrp x (fun y => { y with c0 := some c, v := 0 })).wr (EVL_GRP_CYCLE0 g (x % 2)) (BitVec.ofNat 32 c)
    let s2 := s1.raiseIf late (grpStat x) fEVL_GRP_STAT_LATE
    .next (if atOrAfter s.now ((c + 2 ^ 32 - 1) % 2 ^ 32 * 2 ^ 32) then s2.fixCycle x c 0 [] else s2)

/-- EVL_STOP (R258): the programme ends at tick k+2; a further STOP does not delay it. -/
def execEvlStop (x : Elg) (s : State) : Out := s.toTile (x / 8) (EVL_GRP_GO (x / 2) (x % 2)) fun s =>
  if s.grpState x = grStopped || (s.grp x).stopAt.isSome then .next s
  else .next ((s.updGrp x (fun y => { y with stopAt := some (s.tick + 2) })).after (s.tick + 2) (.evlStop x))

/-- Add block credits (R257): credits pay owed blocks first during under-run. -/
def State.addBlocks (s : State) (x add : Nat) : State :=
  let a := EVL_GRP_CREDIT (x / 2) (x % 2)
  let g := s.grp x
  let st := s.grpState x
  let idle := st == grStopped || st == grDone
  let mode := if idle then s.lfld (EVL_GRP_CTL (x / 2) (x % 2)) fEVL_GRP_CTL_MODE else g.mode
  let len := if idle then s.fld (EVL_GRP_LEN (x / 2) (x % 2)) fEVL_GRP_LEN_LEN else g.len
  if mode != 2 then s
  else
    let owed := s.fld a fEVL_GRP_CREDIT_OWED
    let pay := if st = grUnderrun then min add owed else 0
    let c0 := s.fld a fEVL_GRP_CREDIT_CREDIT
    let c := min len (c0 + (add - pay))
    let s1 := (s.setFld a fEVL_GRP_CREDIT_OWED (owed - pay)).setFld a fEVL_GRP_CREDIT_CREDIT c
    (s1.raiseIf (len < c0 + (add - pay)) (grpStat x) fEVL_GRP_STAT_FILL_OVER).updGrp x (fun y => { y with
      arrivals := (s.tick + 1, c - c0) :: y.arrivals.filter (fun z => s.tick ≤ z.1 + 70) })

/-- EVL_FILL (R257). -/
def execEvlFill (x : Elg) (add : Nat) (s : State) : Out := s.toTile (x / 8) (EVL_GRP_FILL (x / 2) (x % 2)) fun s =>
  .next (s.addBlocks x (add % 2 ^ 16))

/-- Credits held at tick j - 64 (R257); a credit that arrives in period k is held from tick k+1 on. -/
def State.blockCreditAt (s : State) (x j : Nat) : Nat :=
  s.fld (EVL_GRP_CREDIT (x / 2) (x % 2)) fEVL_GRP_CREDIT_CREDIT -
    ((s.grp x).arrivals.filter (fun z => j < z.1 + 64)).foldl (fun a z => a + z.2) 0

/-! ### Cycle boundaries (R252, R257, R259, R261) -/

/-- The edges that a fixed cycle gives to lane `li` of a group, and whether its E2 is not after its E1 (Table 12-3). -/
def cycleEdges (f : FixedCycle) (li : Nat) (input : Bool) : List LaneEdge × Bool :=
  let code := bits f.vec (2 * li) 2
  let (e1, e2) := f.es.getD li (0, 0)
  let at1 (k : EdgeKind) : LaneEdge := ⟨f.cycle * 2 ^ 32 + e1, false, k⟩
  let at2 (k : EdgeKind) : LaneEdge := ⟨f.cycle * 2 ^ 32 + e2, true, k⟩
  if code = 0 then ([], false)
  else if code = 3 then
    if e2 ≤ e1 then ([], true)
    else if input then ([at1 .watchOn, at2 .watchOff], false) else ([at1 (.level true), at2 (.level false)], false)
  else ([at1 (if input then .strobe (code == 2) else .level (code == 2))], false)

/-- A boundary due at the coming tick ends a lane's wait: the change of the lane table, or the end of the hold, came at an earlier tick
(R252, R261). -/
def State.waitEnds (s : State) (l : Nat) : Bool :=
  let y := s.lane l
  (y.swapWait.any (· ≤ s.tick)) || (!s.laneInput l && !s.ownerHeld l && y.safeWait.any (· < s.tick))

/-- Lanes of a group at a boundary, due at the coming tick, before it gives them the edges of its cycle: a wait for it ends where the
change or the end of the hold came at an earlier tick, and with it every edge of an earlier cycle (R252, R261); a lane that begins to play
starts from its idle level. -/
def State.lanesAtBoundary (s : State) (x : Nat) : State :=
  s.over (grpLanes x) (fun t l =>
    let ends := t.waitEnds l
    let was := t.lanePlays l
    let t1 := t.updLane l (fun y => { y with
      swapWait := y.swapWait.filter (s.tick < ·), safeWait := if t.ownerHeld l then y.safeWait else y.safeWait.filter (s.tick ≤ ·)
      edges := if ends then [] else y.edges })
    if was then t1 else t1.updLane l (fun y => { y with level := t1.idleLevel l }))

/-- Give the lanes of a group the edges of its present cycle. -/
def State.giveEdges (s : State) (x : Nat) (f : FixedCycle) : State :=
  s.over (List.range 4) (fun t li =>
    let l := 4 * x + li
    if t.laneOwned l then
      let (es, bad) := cycleEdges f li (t.laneInput l)
      (t.updLane l (fun y => { y with edges := y.edges ++ es })).raiseIf bad (grpStat x) fEVL_GRP_STAT_TS_BAD
    else t)

/-- A block is left: four tokens of KIND 4 in a stream (Table 13-6). -/
def State.leaveBlock (s : State) (x : Nat) : State := if (s.grp x).mode = 2 then s.addTokens 4 x 4 else s

/-- Enter vector v (unwrapped) of a playing group at the coming tick's boundary of cycle c. A block without a credit, or one that could not
be read, is an under-run (R257, R31). -/
def State.enterVector (s : State) (x c v : Nat) (ue : List PlaneUe) : State :=
  let g := s.grp x
  let total := 512 * g.len
  let vm := v % total
  let newBlock := g.v / 512 != v / 512 || v = 0
  let s0 := if newBlock && v != 0 then s.leaveBlock x else s
  let s1 := match g.fixed with
    | some f => if f.cycle = c then s0 else s0.fixCycle x c vm ue
    | none => s0.fixCycle x c vm ue
  let a := EVL_GRP_CREDIT (x / 2) (x % 2)
  let short := g.mode = 2 && newBlock && s1.blockCreditAt x (s.tick + 1) = 0
  let s2 :=
    if newBlock then
      let s3 := if short then s1.incSat a fEVL_GRP_CREDIT_OWED
        else if g.mode = 2 then s1.setFld a fEVL_GRP_CREDIT_CREDIT (s1.fld a fEVL_GRP_CREDIT_CREDIT - 1) else s1
      if short || (s1.grp x).lost then
        let s4 := if s3.bit (grpStat x) fEVL_GRP_STAT_UNDERRUN then s3
          else s3.wr (EVL_GRP_UR_CYCLE (x / 2) (x % 2)) (BitVec.ofNat 32 c)
        (s4.raise (grpStat x) fEVL_GRP_STAT_UNDERRUN).setGrpState x grUnderrun
      else s3.setGrpState x grPlaying
    else s1
  let s4 := s2.setFld (EVL_GRP_POS (x / 2) (x % 2)) fEVL_GRP_POS_VECTOR vm
  match (s4.grp x).fixed with
  | some f =>
    let s5 := s4.setFld (grpStat x) fEVL_GRP_STAT_TS_NOW (bits f.vec 8 3)
    let s6 := if s5.grpState x = grPlaying then s5.giveEdges x f else s5
    let s7 := s6.updGrp x (fun y => { y with v, cyc := c, fixed := none })
    if g.mode = 0 && v + 1 = total then s7
    else s7.fixCycle x ((c + 1) % 2 ^ 32) ((v + 1) % total) (if newBlock then [] else ue)
  | none => s4

/-- One boundary of a playing group: the end of a ONCE programme, or the next vector. -/
def State.boundaryStep (s : State) (x c v : Nat) (ue : List PlaneUe) : State :=
  if (s.grp x).mode = 0 && 512 * (s.grp x).len ≤ v then (s.grpEnd x grDone).raise (grpStat x) fEVL_GRP_STAT_DONE
  else s.enterVector x c v ue

/-- A group has taken the boundary of cycle c: a boundary is due once (R97). -/
def State.boundaryTaken (s : State) (x c : Nat) : Bool :=
  let g := s.grp x
  g.c0.isSome && (if s.grpState x = grReady then (match g.fixed with | some f => f.cycle == (c + 1) % 2 ^ 32 | none => false)
                  else g.cyc == c)

/-- EVL_CYCLE_BOUNDARY (R259): a cycle boundary is due at the coming tick. `ue` names the planes with an uncorrectable error in a
block read there (R255). Where a forward jump passes whole cycles, each has its boundary there, and its edges fall due (R260). -/
def execEvlCycleBoundary (x : Elg) (ue : List PlaneUe) (s : State) : Out :=
  let c := s.nextStamp / 2 ^ 32 % 2 ^ 32
  if c = s.now / 2 ^ 32 % 2 ^ 32 || s.boundaryTaken x c then .next s
  else
    let g := s.grp x
    let s := s.lanesAtBoundary x
    .next (
      match g.c0 with
      | some c0 =>
        if s.grpState x = grReady && !atOrAfter s.nextStamp (c0 * 2 ^ 32) then
          if (c + 1) % 2 ^ 32 = c0 then s.fixCycle x c0 0 ue else s
        else
          let first := if s.grpState x = grReady then c0 else (g.cyc + 1) % 2 ^ 32
          let v := if s.grpState x = grReady then 0 else g.v + 1
          (List.range ((c + 2 ^ 32 - first) % 2 ^ 32 + 1)).foldl (fun t m =>
            if (t.grp x).c0.isNone then t else t.boundaryStep x ((first + m) % 2 ^ 32) (v + m) ue) s
      | none => s)

/-! ### Edges and captures (R260, R262, R263) -/

/-- Core clock cycle, after the present tick, at which a stamp due at the coming tick is placed (R260). -/
def State.edgeCycle (s : State) (stamp : Nat) : Nat := 400 - (s.edgeFrac stamp * 800 + 2 ^ 32) / 2 ^ 33

/-- EVL_EDGE (R260, R262): the first edge of the named kind that is due at the coming tick is placed. -/
def execEvlEdge (l : Lane) (second : Bool) (s : State) : Out :=
  let y := s.lane l
  let a := EVL_LANE_STAT (l / 8) (l % 8)
  match y.edges.find? (fun e => e.second == second && atOrAfter s.nextStamp (e.stamp % 2 ^ 64)) with
  | none => .next s
  | some e =>
    let s1 := s.updLane l (fun z => { z with edges := z.edges.erase e })
    let due := match (s.grp (l / 4)).stopAt with | some t => decide (s.tick + 1 < t) | none => true
    if !s.lanePlays l || !due then .next s1
    else
      let cyc := 400 * s.tick + s.edgeCycle (e.stamp % 2 ^ 64)
      let lvl := s.evlLevelAt l cyc != s.laneCtl l fEVL_LANE_CTL_INV
      let present (t : State) : State := (t.raise a fEVL_LANE_STAT_COND_SEEN).updLane l (fun z =>
        { z with condAt := some (s.tick + 1) })
      match e.kind with
      | .level b =>
        if b = y.level then .next s1
        else .next ((s1.raiseIf (y.last == some cyc) a fEVL_LANE_STAT_COLLAPSED).updLane l (fun z =>
          { z with level := b, last := some cyc }))
      | .strobe b => .next (if lvl = b then present s1 else s1)
      | .watchOn => .next (s1.updLane l (fun z => { z with watch := some cyc, seen := (z.ins.find? (cyc ≤ ·.1)).map (·.1) }))
      | .watchOff =>
        let s2 := s1.updLane l (fun z => { z with watch := none, seen := none })
        .next (if y.watch.isSome && y.seen.any (· ≤ cyc) then present s2 else s2)

/-- EVL_INPUT_EDGE (R263, R262): the ball of a lane changes at core clock cycle `cyc` of the present period. -/
def execEvlInputEdge (l : Lane) (rising : Bool) (cyc : Nat) (s : State) : Out :=
  let at_ := 400 * s.tick + cyc % 400
  let s0 := s.updLane l (fun z => { z with ins := z.ins.filter (400 * s.tick ≤ ·.1) ++ [(at_, SMap.get false s.laneIn l)] })
  let s1 := { s0 with laneIn := SMap.set false s.laneIn l rising }
  if !s.laneOwned l || !s.laneInput l || (s.lane l).swapWait.isSome || s.pwr (l / 8) = 0 then .next s1
  else
    let g := l.val / 8
    let i := l.val % 8
    let a := EVL_LANE_STAT g i
    let s2 := s1.updLane l (fun z => { z with seen := if z.watch.isSome then z.seen.or (some at_) else z.seen })
    let sel := s.lfld (EVL_LANE_CTL g i) fEVL_LANE_CTL_CAP_EDGE
    if sel.testBit (if rising then 0 else 1) then
      let st := stampOf ((s.phase.p + cyc % 400 * s.phase.delta / 400) % 2 ^ 96)
      let s3 := (s2.wr64 (EVL_LANE_CAP_LO g i) st).incWrap (EVL_LANE_CAP_CNT g i) fWord
      .next ((s3.raiseIf (s.bit a fEVL_LANE_STAT_CAP_NEW) a fEVL_LANE_STAT_CAP_OVER).raise a fEVL_LANE_STAT_CAP_NEW)
    else .next s2

end Sys2Proof.Machine
end

