-- ==== Sys2Proof/Machine/Link.lean ====
section
/-!
DEFINITION. Host requests to the BARs (chapters 00, 01): what a register reads, plain register writes and their messages,
the holding latches, sequence memory through BAR2, requests that break R36.
-/

namespace Sys2Proof.Machine

/-! ### Reads -/

/-- A bit string as a number, bit 0 first. -/
def bitsOf (n : Nat) (f : Nat → Bool) : Nat := (List.range n).foldl (fun a i => a + (f i).toNat * 2 ^ i) 0

/-- The 64 bits a _LO/_HI pair reads at its _LO address: registers the device computes, and stored ones (R36). -/
def State.pair (s : State) (lo : Nat) : Nat :=
  if lo = PHB_NOW_LO then s.now
  else if lo = PHB_INC_LO then s.phase.delta
  else if lo = PHB_TICK_LO then s.tick % 2 ^ 64
  else if lo = PCI_INT_PEND_LO then bitsOf 40 s.vecCond
  else if lo = HUB_UID_LO then Config.uid.toNat
  else s.rd64 lo

/-- Is a register's name that of the _LO half of a pair? -/
def isLo (a : Nat) : Bool := match regAt a with | some r => r.half == 1 | none => false
/-- Is it the _HI half? -/
def isHi (a : Nat) : Bool := match regAt a with | some r => r.half == 2 | none => false

/-- Is the span an address lies in reachable (R38, R374, R379)? -/
def State.answers (s : State) (a : Nat) : Bool :=
  if 0x1000000 ≤ a && a < 0x5000000 then s.tileUp ((a - 0x1000000) / 0x1000000) else true

/-- What a host read of BAR4 offset `o` returns (Tables 01-10, 17-5): the mailbox registers, request and response areas, the MSI-X
table and its pending bit array; 0 at a reserved offset. -/
def State.readBar4 (s : State) (o : Nat) : Word :=
  if o < 0x20 then s.rd (bar4Base + o)
  else if 0x100 ≤ o && o < 0x1100 then BitVec.ofNat 32 (s.cob.req.readLE (o - 0x100) 4)
  else if 0x2000 ≤ o && o < 0x4000 then BitVec.ofNat 32 (s.cob.resp.readLE (o - 0x2000) 4)
  else if 0x8000 ≤ o && o < 0x8400 then s.msixWord ((o - 0x8000) / 16) (o % 16 / 4)
  else if o = 0x9000 then BitVec.ofNat 32 s.host.pba
  else if o = 0x9004 then BitVec.ofNat 32 (s.host.pba / 2 ^ 32)
  else 0

def State.updStat (s : State) (g : Nat) (f : Fld) (v : Nat) : State := s.setFld (CLU_BANK_STAT g) f v
/-- Mark the standby bank as not validated, with a code. -/
def State.stbyCode (s : State) (g code : Nat) : State :=
  ((s.updStat g fCLU_BANK_STAT_STBY_VALID 0).updStat g fCLU_BANK_STAT_CODE code).wr (CLU_STBY_ID g) 0

/-- Is a BAR0 offset in a structure bank? The cluster and the bank. -/
def bankOf (a : Nat) : Option (Nat × Nat) :=
  if 0x1000000 ≤ a && a < 0x5000000 then
    let y := a % 0x400000
    let g := (a - 0x1000000) / 0x400000
    if 0x100000 ≤ y && y < 0x200000 then some (g, 0) else if 0x200000 ≤ y && y < 0x300000 then some (g, 1) else none
  else none

/-- The memory of Table 19-2 that holds a BAR0 offset, and its global cluster: 1 coefficient RAM, 2 structure bank, 4 capture buffer. -/
def memAt (a : Nat) : Option (Nat × Nat) :=
  if 0x1000000 ≤ a && a < 0x5000000 then
    let y := a % 0x400000
    let g := (a - 0x1000000) / 0x400000
    if 0x10000 ≤ y && y < 0x30000 && 0x800 ≤ y % 0x1000 && y % 0x1000 < 0xC00 then some (1, g)
    else if 0x100000 ≤ y && y < 0x300000 then some (2, g)
    else if 0x300000 ≤ y && y < 0x310000 then some (4, g)
    else none
  else none

/-- An uncorrectable error at an address of a memory (R387, Table 19-2). A bad word of coefficient RAM keeps the value that the engine read
for it in the previous period, until it is written. A standby bank is no longer valid; the active one becomes standby so. -/
def State.memUe (s : State) (mem clu addr : Nat) : State :=
  let s1 := s.eccUe mem (if 1 ≤ mem && mem ≤ 4 then clu else 0) addr
  if mem = 1 then
    let a := addr / 4 * 4
    let old := (((s1.coefBad ++ s1.coefOld).find? (fun e => e.1 == a)).map (·.2)).getD (s1.rd a)
    { s1 with coefBad := SMap.insert a old (SMap.erase s1.coefBad a) }
  else if mem = 2 then
    match bankOf addr with
    | some (g, b) =>
      if b = s1.activeBank g then s1.updCluster g (fun c => { c with bankBad := true }) else s1.stbyCode g 0
    | none => s1
  else s1

/-- What a host read of a register returns on a virtual channel (R6, R15, R17, R38): 0 at a reserved address; a _HI register returns its
latch; a structure bank and a capture buffer, which reads 0 in OFF (R37), what they hold (R158). An address above `bar4Base` is a BAR4
offset. -/
def State.readReg (s : State) (a vc : Nat) : Word :=
  if !s.answers a then 0
  else if (bankOf a).isSome then BitVec.ofNat 32 (s.banks.readLE a 4)
  else if (memAt a).any (·.1 == 4) then
    if (memAt a).any (fun m => s.pwr m.2 != 0) then BitVec.ofNat 32 (s.capMem.readLE a 4) else 0
  else if bar4Base ≤ a then s.readBar4 (a - bar4Base)
  else if a = HUB_ID then BitVec.ofNat 32 (0x5120 + 2 ^ 16 * Config.silicon)
  else if a = TST_IDCODE then BitVec.ofNat 32 (2 ^ 28 * (Config.silicon % 16) + 2 ^ 12 * 0x5120 + 2 * 0x6B5 + 1)
  else if isLo a then BitVec.ofNat 32 (s.pair a)
  else if isHi a then SMap.get 0 s.latches (2 * (a - 4) + vc % 2)
  else if (cluBase 0 ≤ a && a < 0x5000000) && (a % 0x400000 == 0x80) then
    let g := (a - 0x1000000) / 0x400000
    BitVec.ofNat 32 (bitsOf 32 (fun i => (s.rd (CH_INT_STAT (32 * g + i)) &&& s.rd (CH_INT_EN (32 * g + i))) != 0))
  else if (regAt a).isSome || (memAt a).any (·.1 == 1) then s.rd a
  else 0

/-- A read of a register loads the latch of its pair, on the read's virtual channel, where it is a _LO register (R17). -/
def State.loadLatch (s : State) (addr vc : Nat) : State :=
  if isLo addr && s.answers addr then
    { s with latches := SMap.set 0 s.latches (2 * addr + vc % 2) (BitVec.ofNat 32 (s.pair addr / 2 ^ 32)) }
  else s

/-- READ_LO_LATCH (R17, R313, R314): the host reads a register; its completion carries one DW. A memory of Table 19-2 that answers the read
may meet errors (R387); an uncorrectable one of the capture buffer sets EP. -/
def execReadLoLatch (addr : Nat) (rd : RegRead) (s : State) : Out :=
  if s.memOn then
    let s1 := s.loadLatch addr rd.req.vc
    match (memAt addr).filter (fun _ => s.answers addr) with
    | none => .next (s1.complete rd.req 0 false 4)
    | some (m, g) =>
      let s2 := (List.range rd.ecc.ce).foldl (fun t _ => t.eccCe) s1
      if rd.ecc.ue.isSome then .next ((s2.memUe m g (addr / 4 * 4)).complete rd.req 0 (m = 4) 4)
      else .next (s2.complete rd.req 0 false 4)
  else .next (s.unsupported rd.req addr false)

/-! ### Plain register writes (R15, R36) -/

/-- Bits of a register that a command of its own writes; REGISTER_WRITE leaves them (assumption 11). -/
def ownRow (a : Nat) : Word :=
  if a = HUB_CLK_CTL then 1
  else if a = SKL_CTL then 1
  else if a = TST_CTL then 1
  else if 0x1000000 ≤ a && a < 0x5000000 then
    let y := a % 0x400000
    if 0x10000 ≤ y && y < 0x30000 && [0x48, 0x50, 0x40C, 0x42C].contains (y % 0x1000) then 0xFFFFFFFF else 0
  else 0

/-- A register after a write of `data` with byte enables `be`: RW and SH bits take the enabled bytes, W1C bits clear where a 1 is
written, but for those (`same`) that the device sets in the same core clock cycle (R16). -/
def storeBits (a : Nat) (old data : Word) (be : Nat) (same : Word) : Word :=
  let m := beMask be &&& ~~~(ownRow a)
  let k := m &&& (maskAt a .rw ||| maskAt a .sh)
  ((old &&& ~~~k) ||| (data &&& k)) &&& ~~~(data &&& m &&& maskAt a .w1c &&& ~~~same)

/-- Vectors whose source or enable register is at `a` (Table 15-3, R318). -/
def vecsOf (a : Nat) : List Nat :=
  if a = HUB_INT_STAT || a = HUB_INT_EN then [0]
  else if a = PCI_INT_STAT || a = PCI_INT_EN || a = PCI_LINK_STAT then [1]
  else if a = PHB_STAT || a = PHB_INT_EN then [2]
  else if a = DMA_INT_STAT || a = DMA_INT_EN then [3]
  else if a = MBX_STAT || a = MBX_INT_EN then [4]
  else if a = MBX_EVT_STAT || a = MBX_EVT_EN then [5]
  else if a = SKL_INT_STAT || a = SKL_INT_EN then [6]
  else if a = CAL_SESS_STAT || a = CAL_WTRIM_STAT || a = CAL_FAIL_SUM then [7]
  else if a = PCI_VEC_EN_LO then List.range 32
  else if a = PCI_VEC_EN_HI then (List.range 8).map (32 + ·)
  else if 0x1000000 ≤ a && a < 0x5000000 then
    let g := (a - 0x1000000) / 0x400000
    let y := a % 0x400000
    if y = 0x88 || y = 0x8C then [24 + g]
    else if 0x10000 ≤ y && y < 0x30000 && (y % 0x1000 = 0xF8 || y % 0x1000 = 0xFC) then [8 + g] else []
  else []

/-- CH_ENG_STAT.FORCED of the channels that a write of CH_ENG_CTL or CLU_ENG_CTL concerns. -/
def State.showForced (s : State) (a : Nat) : State :=
  let one (t : State) (n : Nat) : State := t.setBit (CH_ENG_STAT n) fCH_ENG_STAT_FORCED
    (t.bit (CH_ENG_CTL n) fCH_ENG_CTL_GUARD_FORCE || t.bit (CLU_ENG_CTL (n / 32)) fCLU_ENG_CTL_GUARD_ALL)
  if 0x1000000 ≤ a && a < 0x5000000 then
    let g := (a - 0x1000000) / 0x400000
    if a = CLU_ENG_CTL g then s.over (chansOf g) one
    else
      let n := 32 * g + (a % 0x400000 - 0x10000) / 0x1000 % 32
      if a = CH_ENG_CTL n then one s n else s
  else s

/-- Store a register's bits and send the messages of R318: the vector's condition is true after the write. -/
def State.storeReg (s : State) (a : Nat) (data : Word) (be : Nat) (same : Word) : State :=
  let t0 := s.wr a (storeBits a (s.rd a) data be same)
  let t := (if DMA_REQ_TOK 0 ≤ a && a < DMA_REQ_TOK 64 then t0.tokenShow ((a - DMA_REQ_TOK 0) / 4) else t0).showForced a
  t.over (vecsOf a) (fun u v => if u.vecCond v then u.sendVec v else u)

/-- A write of the MSI-X table, word `k` of it (Table 01-10): clearing a vector's mask sends its pending message while its
condition is true (R318). -/
def State.writeMsix (s : State) (k : Nat) (data : Word) (be : Nat) : State :=
  let v := k / 4
  let w := k % 4
  let old := s.msixWord v w
  let m := beMask be &&& (if w = 3 then 1 else if w = 0 then 0xFFFFFFFC else 0xFFFFFFFF)
  let new := (old &&& ~~~m) ||| (data &&& m)
  let t := { s with host := { s.host with msix := SMap.set (if w = 3 then 1 else 0) s.host.msix k new } }
  if w = 3 && old.getLsbD 0 && !new.getLsbD 0 && s.host.pba.testBit v && t.vecCond v then t.sendVec v else t

/-! ### BAR2 (R39, R375) -/

/-- An access to sequence memory through BAR2 outside ACTIVE (R375). -/
def State.dramDiscard (s : State) : State :=
  if s.dramLogged then s
  else (({ s with dramLogged := true }).raise PWR_DRAM_STAT fPWR_DRAM_STAT_ACCESS_DISCARDED).logEv 0xC 9 1 PWR_DRAM_STAT 0 0

/-- BAR2_READ (R39, R313): correctable errors are corrected and counted; an uncorrectable one sets EP in the completions and is logged
with its address. -/
def execBar2Read (addr len : Nat) (ecc : ReadEcc) (rq : Req) (s : State) : Out :=
  if !s.memOn then .next (s.unsupported rq addr false)
  else if !s.dramActive then .next (s.dramDiscard.completeRead rq false addr len)
  else
    let s1 := (List.range ecc.ce).foldl (fun t _ => t.eccCe) s
    match ecc.ue.filter (fun a => decide (addr ≤ a) && decide (a < addr + len)) with
    | some a => .next (((s1.elog 0x22 rq.vc rq.hdr a).eccUe 5 0 a).completeRead rq true addr len)
    | none => .next (s1.completeRead rq false addr len)

/-- The bytes a BAR2 read returns (R39, R375). -/
def State.readBar2 (s : State) (addr len : Nat) : List Byte :=
  if s.dramActive then s.seqMem.readBytes addr len else List.replicate len 0

/-- A host write by a memory request whose row carries no header: the one that an unsupported request logs is open (assumption 10). -/
def State.memWriteOpen (s : State) (addr : Nat) (f : State → Out) : Out :=
  let (h, s1) := s.freeTlp
  let (v, s2) := s1.free
  if s.memOn then f s else .next (s2.unsupported ⟨v.toNat % 2, h⟩ addr true)

/-- BAR2_WRITE (R39): bytes land at the linear address. -/
def execBar2Write (addr : Nat) (bytes : List Byte) (s : State) : Out := s.memWriteOpen addr fun s =>
  if !s.dramActive then .next s.dramDiscard
  else .next { s with seqMem := s.seqMem.writeBytes addr (bytes.take (2 ^ 32 - addr)) }

/-- BAR0_REQUEST_ABORT (R313): a request that breaks R36 is logged as class 0x0B; a read is answered with Completer Abort (status
code 4), a write is discarded. -/
def execBar0RequestAbort (write : Bool) (addr : Nat) (rq : Req) (s : State) : Out :=
  if !s.memOn then .next (s.unsupported rq addr write)
  else
    let t := s.elog 0x0B rq.vc rq.hdr addr
    .next (if write then t else t.complete rq 4 false 0)

end Sys2Proof.Machine
end

