-- ==== Sys2Proof/Machine/Welt.lean ====
section
/-!
DEFINITION. Shared operations of the Welt rotation (chapter 14): crossfades, slices declared failed, permanent service, quality
registers, and what ends a quad's rotation.
-/

namespace Sys2Proof.Machine

/-! ### Slices and their registers -/

/-- The SLICE_MAP field of a kind. -/
def mapField (k : Nat) : Fld := ⟨4 * k, 3⟩
/-- Lane served permanently by the Welt slice of a kind; 4: none. -/
def State.perm (s : State) (q k : Nat) : Nat := s.fld (QUAD_SLICE_MAP q) (mapField k)
/-- Is a slice declared failed? -/
def State.sliceFailed (s : State) (q sl : Nat) : Bool := s.bit (QUAD_SL_QUAL q sl) fQUAD_SL_QUAL_FAILED
/-- Kinds of slice of a quad. -/
def kinds : List Nat := [0, 1, 2]
/-- Event-log entry of a quad's slice (Table 17-4, SOURCE 3). -/
def State.logSlice (s : State) (q sl bit sev addr : Nat) : State := s.logEv 3 bit sev addr q sl
/-- Set a sticky bit of CAL_FAIL_SUM (vector 7). -/
def State.failSum (s : State) (f : Fld) (t : Nat) : State := s.withVec 7 (fun u => u.setBitAt CAL_FAIL_SUM (f.lsb + t))
/-- Set a sticky bit of CAL_SESS_STAT (vector 7). -/
def State.sessEvent (s : State) (f : Fld) : State := s.withVec 7 (fun u => u.raise CAL_SESS_STAT f)

/-- The slices that serve kind k of lane l, own and Welt. -/
def State.serving (s : State) (q k l : Nat) : List Nat :=
  let y := (s.quadSt q).kind k
  if y.fading l s.tick || y.fading l (s.tick + 1) then [3 * l + k, 12 + k]
  else if y.serve = l then [12 + k] else [3 * l + k]

/-- Keep CAL_QUAL_CH of the four channels of a quad (R305). STALE sets at the eighth decision of a lane in a row that accepts no calibration,
64 s after the last one, as the example of R396 has it (DEDUCED, assumption 54). -/
def State.qualRefresh (s : State) (q : Nat) : State :=
  s.over (List.range 4) (fun t l =>
    let q' (f : Fld) (sl : Nat) : Nat := s.fld (QUAD_SL_QUAL q sl) f
    let res (k : Nat) : Nat := ((s.serving q k l).map (q' fQUAD_SL_QUAL_RES)).foldl max 0
    let sls := kinds.flatMap (fun k => s.serving q k l)
    let a := CAL_QUAL_CH (4 * q + l)
    let t1 := ((t.setFld a fCAL_QUAL_CH_DAC_RES (res 0)).setFld a fCAL_QUAL_CH_V_RES (res 1)).setFld a fCAL_QUAL_CH_I_RES (res 2)
    let t2 := t1.setBit a fCAL_QUAL_CH_STALE (sls.any (fun sl => 8 ≤ q' fQUAD_SL_QUAL_AGE sl))
    let t3 := t2.setBit a fCAL_QUAL_CH_PERM (kinds.any (fun k => s.perm q k == l))
    (t3.setBit a fCAL_QUAL_CH_SUSPECT (sls.any (fun sl => q' fQUAD_SL_QUAL_SUSPECT sl != 0))).setBit a fCAL_QUAL_CH_PROD
      (sls.any (fun sl => q' fQUAD_SL_QUAL_PROD sl != 0)))

/-! ### Crossfades (R292, R293) -/

def State.updKind (s : State) (q k : Nat) (f : KindSt → KindSt) : State := s.updQuad q (fun x => x.setKind k (f (x.kind k)))

/-- Begin a crossfade of a kind at tick `t`; a finished or broken-off one is replaced. -/
def State.fadeStart (s : State) (q k lane t : Nat) (toWelt : Bool) : State :=
  s.updKind q k (fun y => { y with fade := some ⟨lane, toWelt, t⟩, serve := if toWelt then lane else 4, diff := 0 })

/-- An ADC crossfade whose 256 samples have been taken by tick `t` ends; a mean difference above 50 ppm marks both slices (R293). Where
both kinds exceed it, the one log entry names the first (DESIGN CHOICE, assumption 54). -/
def State.fadeEnd (s : State) (q t : Nat) : State :=
  let x := s.quadSt q
  let atEnd (k : Nat) : Bool := match (x.kind k).fade with | some f => decide (f.start + 256 ≤ t) | none => false
  let bad := [1, 2].filter (fun k => atEnd k && decide (50 * 256 * 2 ^ 128 < 1000000 * ((x.kind k).diff).natAbs))
  let lane (k : Nat) : Nat := match (x.kind k).fade with | some f => f.lane | none => 0
  let s1 := s.over bad (fun u k => (u.raise (QUAD_SL_QUAL q (3 * lane k + k)) fQUAD_SL_QUAL_SUSPECT).raise (QUAD_SL_QUAL q (12 + k))
    fQUAD_SL_QUAL_SUSPECT)
  let s2 := match bad with
    | [] => s1
    | k :: _ => ((s1.raise (QUAD_WELT_STAT q) fQUAD_WELT_STAT_CROSS_MISMATCH).failSum fCAL_FAIL_SUM_CROSS (q / 32)).logSlice q
        (3 * lane k + k) 8 1 (QUAD_WELT_STAT q)
  let ended := kinds.filter atEnd
  if ended.isEmpty then s else (s2.over ended (fun u k => u.updKind q k (fun y => { y with fade := none, diff := 0 }))).qualRefresh q

/-- Crossfades that end at tick `t`, of every quad. -/
def State.fadesEnd (s : State) (t : Nat) : State := s.over (s.quad.map (·.1)) (fun u q => u.fadeEnd q t)

/-! ### Failed slices (R302, R303) -/

/-- Declare a slice failed (R302); a lane slice is replaced by the Welt slice of its kind where that is free (R303). A Welt slice that
serves another lane in the present step leaves it at once (DESIGN CHOICE: the spec is silent; assumption 54). A restored slice that fails
again is not handed back, whatever calibration it has passed. -/
def State.failSlice (s : State) (q sl : Nat) : State :=
  let s1 := ((s.setBitAt (QUAD_SLICE_FAIL q) sl).raise (QUAD_SL_QUAL q sl) fQUAD_SL_QUAL_FAILED).failSum fCAL_FAIL_SUM_FAILED (q / 32)
  let s2 := (s1.raiseFault 11).logSlice q sl sl 3 (QUAD_SLICE_FAIL q)
  let k := sl % 3
  let l := sl / 3
  let y := (s.quadSt q).kind k
  if l < 4 && s.perm q k == l then
    (s2.updQuad q (fun x => { x with passed := x.passed &&& (7 - 2 ^ k) })).qualRefresh q
  else if l < 4 && s.perm q k == 4 && !s.sliceFailed q (12 + k) then
    let s3 := (s2.setFld (QUAD_SLICE_MAP q) (mapField k) l).updQuad q (fun x => { x with changed := l :: x.changed })
    let freed := y.serve = l
    (if freed then s3 else if s.biased (4 * q + l) then s3.fadeStart q k l (s.tick + 1) true
      else s3.updKind q k (fun y => { y with serve := l, fade := none })).qualRefresh q
  else s2.qualRefresh q

/-! ### What ends a quad's rotation (R294) -/

/-- Kinds whose Welt slice serves lane L in this step and hands back at its end: not those in permanent service, unless a restored
slice has passed (R303, R304). -/
def State.handbackKinds (s : State) (q l : Nat) : List Nat :=
  kinds.filter (fun k => ((s.quadSt q).kind k).serve == l && (s.perm q k != l || (s.quadSt q).passed.testBit k))

/-- Start HANDBACK of lane l at tick `t` (R292). -/
def State.handback (s : State) (q l t : Nat) : State :=
  let s1 := s.over (s.handbackKinds q l) (fun u k =>
    (if u.perm q k = l then u.setFld (QUAD_SLICE_MAP q) (mapField k) 4 else u).fadeStart q k l t false)
  (s1.updQuad q (fun x => { x with passed := 0, restored := 0, stopping := false })).qualRefresh q

/-- The lane of the present rotation step. -/
def State.stepLane (s : State) : Nat := (s.tick + 1) / 4000000 % 4
/-- Periods since the step boundary, at the coming tick. -/
def State.stepPos (s : State) : Nat := (s.tick + 1) % 4000000

/-- Rotation of a quad stops: the present step's calibrations no longer count for it. -/
def State.stopRotation (s : State) (q : Nat) : State :=
  let a := QUAD_WELT_STAT q
  let s1 := if s.sess.quad = some q then { s with sess := { s.sess with bad := true } } else s
  ((s1.updQuad q (fun x => { x with rotating := false, borrowed := false })).setBit a fQUAD_WELT_STAT_ACTIVE false).setBit a
    fQUAD_WELT_STAT_SESSION false

/-- WELT_EN cleared at a bank swap whose commit tick is the coming tick (Table 14-6). -/
def State.weltOff (s : State) (q : Nat) : State :=
  let x := s.quadSt q
  if !(x.rotating || x.borrowed) then s
  else
    let p := s.stepPos
    if p < 256 then (s.stopRotation q).updQuad q (fun x => { x with stopping := true })
    else if p ≤ 3200256 then (s.handback q s.stepLane (s.tick + 1)).stopRotation q
    else s.stopRotation q

/-- The cluster leaves IDLE or RUN: every lane returns to its own set except under permanent service, and the step's results are
discarded (Table 14-6). -/
def State.weltLeave (s : State) (q : Nat) : State :=
  let x := s.quadSt q
  let s1 := s.over kinds (fun u k => u.updKind q k (fun _ => { serve := u.perm q k }))
  let s2 := if x.rotating || x.borrowed then (s1.raise (QUAD_WELT_STAT q) fQUAD_WELT_STAT_DISCARDED).stopRotation q else s1
  (s2.updQuad q (fun x => { x with passed := 0, stopping := false })).qualRefresh q

/-! ### Ramps (R301) -/

/-- Periods per ramp step. -/
def State.rampPeriod (s : State) : Nat := 2 ^ min 8 (s.fld CAL_CTL fCAL_CTL_RAMP)

/-- Begin a ramp of a register's exact value at tick `t`, from its present value. -/
def State.rampTo (s : State) (a : Nat) (coef : Bool) (now target : Int) (t : Nat) : State :=
  let start := match s.ramps.find? (fun r => r.addr == a) with
    | some r => r.now
    | none => now
  { s with ramps := s.ramps.filter (fun r => r.addr != a) ++ [⟨a, coef, start, target, 0, t + s.rampPeriod⟩] }

end Sys2Proof.Machine
end

