-- ==== Sys2Proof/Machine/Commit.lean ====
section
/-!
DEFINITION. Structure banks, validation, shadowed fields and commits (chapter 02, R54 to R71).
-/

namespace Sys2Proof.Machine

/-! ### Standby banks (R54 to R57) -/

/-- A commit with BANK = 1 is pending. -/
def State.bankPending (s : State) (g : Nat) : Bool :=
  match (s.cluster g).commit.pend with | some p => p.bank | none => false

/-- Write bytes into a bank where the rules let it (R54, R55, R63): to the standby bank, while the policy is OPEN and no bank
commit is pending. Otherwise the write is discarded and logged with the header of the request. -/
def State.bankWrite (s : State) (g b a : Nat) (bytes : List Byte) (vc : Nat) (hdr : Tlp) : State :=
  if b = s.activeBank g || s.polSigned || s.bankPending g then s.elog 0x20 vc hdr a
  else { s with banks := s.banks.writeBytes a bytes }.stbyCode g 0

/-- Bytes of a word that a write's enables select, one at a time. -/
def State.bankWord4 (s : State) (a : Nat) (data : Word) (be : Nat) : List Byte :=
  (List.range 4).map (fun i => if be.testBit i then BitVec.ofNat 8 (data.toNat / 256 ^ i) else s.banks.read (a + i))

/-- A write of one word to a structure bank (R54). -/
def State.writeBank (s : State) (addr : Nat) (data : Word) (be : Nat) (rq : Req) : Out :=
  let a := addr / 4 * 4
  match bankOf a with
  | none => .next s
  | some (g, b) => s.toTileReq (g / 4) a rq fun s => .next (s.bankWrite g b a (s.bankWord4 a data be) rq.vc rq.hdr)

/-- STANDBY_BANK_WRITE (R54): the host writes one word to a structure bank. -/
def execStandbyBankWrite (addr : Nat) (data : Word) (be : Nat) (rq : Req) (s : State) : Out :=
  s.memWrite rq addr (fun s => s.writeBank addr data be rq)

/-- VALIDATE (R56, R55). -/
def execValidate (g : Clu) (s : State) : Out := s.toTile (g / 4) (CLU_BANK_CTL g) fun s =>
  if s.fld (CLU_BANK_STAT g) fCLU_BANK_STAT_CODE = 2 || s.bankPending g then .next s
  else if s.polSigned then .next (s.updStat g fCLU_BANK_STAT_CODE 0x1E)
  else .next (s.stbyCode g 2)

/-- The outcome of a check of the standby bank (R56, Table 02-11). -/
def State.checked (s : State) (g : Nat) (v : Verdict) : State :=
  let s1 := s.updStat g fCLU_BANK_STAT_CODE v.code
  if v.code = 1 then
    (s1.updStat g fCLU_BANK_STAT_STBY_VALID 1).wr (CLU_STBY_ID g) (BitVec.ofNat 32 (s.bankWord g (s.stbyBank g) 0x10))
  else (s1.setFld (CLU_BANK_FAIL g) fCLU_BANK_FAIL_OFFSET v.off).setFld (CLU_BANK_FAIL g) fCLU_BANK_FAIL_CHANNEL v.chan

/-- VALIDATION_DONE (R56). -/
def execValidationDone (g : Clu) (s : State) : Out :=
  if s.fld (CLU_BANK_STAT g) fCLU_BANK_STAT_CODE = 2 then
    .next ((s.checked g (s.checkBank g (s.stbyBank g))).cluEvent g fCLU_INT_STAT_VALIDATED)
  else .next s

/-- INVALIDATE. -/
def execInvalidate (g : Clu) (s : State) : Out := s.toTile (g / 4) (CLU_BANK_CTL g) fun s =>
  if s.bankPending g then .next s else .next (s.stbyCode g 0)

/-! ### Commit groups (R58 to R66) -/

/-- Base of a commit group: clusters 0 to 15, and 16 for the hub; the groups have one layout (R58). -/
def grpBase (g : Nat) : Nat := if g = 16 then 0 else cluBase g
/-- A register of a commit group, by the name of the hub's. -/
def grpReg (g hub : Nat) : Nat := grpBase g + hub

def State.com (s : State) (g : Nat) : CommitSt := if g = 16 then s.hubCommit else (s.cluster g).commit
def State.setCom (s : State) (g : Nat) (c : CommitSt) : State :=
  if g = 16 then { s with hubCommit := c } else s.updCluster g (fun x => { x with commit := c })
def State.updCom (s : State) (g : Nat) (f : CommitSt → CommitSt) : State := s.setCom g (f (s.com g))

/-- The shadows of a group are frozen (R60, R66). -/
def CommitSt.frozen (c : CommitSt) : Bool := c.pend.isSome || c.freezeEnd.isSome

/-- The commit group of a register. -/
def grpOf (a : Nat) : Nat := if 0x1000000 ≤ a && a < 0x5000000 then (a - 0x1000000) / 0x400000 else 16

/-- COMMIT interrupt of a group: HUB_INT_STAT or CLU_INT_STAT (chapter 15). -/
def State.comEvent (s : State) (g : Nat) : State :=
  if g = 16 then s.hubEvent fHUB_INT_STAT_COMMIT else s.cluEvent g fCLU_INT_STAT_COMMIT

/-- A second write to a register in a frozen interval is refused (R61, R447). -/
def State.refuseWrite (s : State) (g a : Nat) (data : Word) : State :=
  let st := grpReg g HUB_COMMIT_STAT
  let s1 := if s.bit st fHUB_COMMIT_STAT_SHADOW_BUSY then s else s.wr (grpReg g HUB_REFUSED_ADDR) (BitVec.ofNat 32 a)
  ((s1.raise st fHUB_COMMIT_STAT_SHADOW_BUSY).logEv (if g = 16 then 0xC else 2) 16 1 st a data.toNat).comEvent g

/-- A write of a shadowed register in a frozen interval: held, one per register, or refused (R61). -/
def State.holdWrite (s : State) (g a : Nat) (data : Word) (be : Nat) : State :=
  if (s.com g).held.any (fun w => w.addr == a) then s.refuseWrite g a data
  else s.updCom g (fun c => { c with held := c.held ++ [⟨a, data, be⟩] })

/-- A host write of a register with no row of its own (R15, R16, R36, R38, R61). -/
def registerWrite (addr : Nat) (data : Word) (be : Nat) (rq : Req) (same : Word) (s : State) : Out :=
  let a := addr / 4 * 4
  if !s.answers a then .next (s.discardReq ((a - 0x1000000) / 0x1000000) a rq)
  else if bar4Base + 0x8000 ≤ a && a < bar4Base + 0x8400 then .next (s.writeMsix ((a - bar4Base - 0x8000) / 4) data be)
  else if (regAt a).isNone then .next s
  else if maskAt a .sh != 0 && (s.com (grpOf a)).frozen then .next (s.holdWrite (grpOf a) a data be)
  else .next (s.storeReg a data be same)

/-- A commit treated as written in the present period (R59, R63, R65). -/
def State.commitWrite (s : State) (g : Nat) (bank at_ : Bool) (stamp : Nat) : State :=
  let st := grpReg g HUB_COMMIT_STAT
  let bank := bank && g != 16
  if bank && !s.bit (CLU_BANK_STAT g) fCLU_BANK_STAT_STBY_VALID then
    ((s.raise st fHUB_COMMIT_STAT_COMMIT_REFUSED).logEv 2 17 1 st g 0).comEvent g
  else
    let due := s.sched (if at_ then some stamp else none)
    ((s.updCom g (fun c => { c with pend := some ⟨due, bank, at_⟩ })).setBit st fHUB_COMMIT_STAT_PENDING true).setBit st
      fHUB_COMMIT_STAT_BANK_PENDING bank

/-- The word a commit command writes. -/
def commitWord (bank at_ : Bool) : Word := BitVec.ofNat 32 (1 + 2 * bank.toNat + 4 * at_.toNat)

/-- COMMIT (R59 to R63, R65): a write of CLU_COMMIT or HUB_COMMIT with GO = 1. -/
def execCommit (g : Grp) (bank : Bool) (at_ : Bool) (s : State) : Out :=
  let body (s : State) : Out :=
    let stamp := s.rd64 (grpReg g HUB_COMMIT_AT_LO)
    let c := s.com g
    if !c.frozen then .next (s.commitWrite g bank at_ stamp)
    else if c.heldCommit.isSome then .next (s.refuseWrite g (grpReg g HUB_COMMIT) (commitWord bank at_))
    else .next ((s.updCom g (fun c => { c with heldCommit := some ⟨bank, at_, stamp⟩ })).setBit (grpReg g HUB_COMMIT_STAT)
      fHUB_COMMIT_STAT_HELD_COMMIT true)
  if g = 16 then body s else s.toTile (g / 4) (grpReg g HUB_COMMIT) body

/-- COMMIT_CANCEL (R66): cancels a commit written with AT whose tick is at or after m+2. -/
def execCommitCancel (g : Grp) (s : State) : Out :=
  let body (s : State) : Out :=
    match (s.com g).pend with
    | some p =>
      if p.at_ && !s.due p.due then
        let s1 := (s.updCom g (fun c => { c with pend := none, freezeEnd := some (s.tick + 2) })).setBit
          (grpReg g HUB_COMMIT_STAT) fHUB_COMMIT_STAT_BANK_PENDING false
        .next (s1.after (s.tick + 2) (.freezeEnd g))
      else .next s
    | none => .next s
  if g = 16 then body s else s.toTile (g / 4) (grpReg g HUB_COMMIT_CANCEL) body

/-! ### The commit tick -/

/-- Is `a` a shadowed register of group g? -/
def shadowOf (g a : Nat) : Bool := maskAt a .sh != 0 && grpOf a == g

/-- Every live SH field of a group takes its shadow value (R59). -/
def State.liveFromShadow (s : State) (g : Nat) : State :=
  let keep := s.live.filter (fun e => !shadowOf g e.1)
  { s with live := (s.regs.filter (fun e => shadowOf g e.1)).foldl (fun m e => SMap.set (regReset e.1) m e.1 (s.rd e.1)) keep }

/-- Held writes land in their shadows (R59, R66). -/
def State.landHeld (s : State) (g : Nat) : State :=
  ((s.com g).held.foldl (fun t w => t.storeReg w.addr w.data w.be 0) s).updCom g (fun c => { c with held := [] })

/-- A held commit is treated as written in the period that starts (R62, R66). -/
def State.beginHeld (s : State) (g : Nat) : State :=
  match (s.com g).heldCommit with
  | some h =>
    let s1 := (s.updCom g (fun c => { c with heldCommit := none })).setBit (grpReg g HUB_COMMIT_STAT)
      fHUB_COMMIT_STAT_HELD_COMMIT false
    s1.commitWrite g h.bank h.at_ h.stamp
  | none => s

/-- The freeze of a cancelled commit ends (R66), at its tick. -/
def State.endFreeze (s : State) (g : Nat) : State :=
  let s1 := (s.landHeld g).updCom g (fun c => { c with freezeEnd := none })
  (s1.setBit (grpReg g HUB_COMMIT_STAT) fHUB_COMMIT_STAT_PENDING false).beginHeld g

/-- The safe code of a channel at the coming tick, a write of CH_SAFE_CODE that takes effect there included (R206). -/
def State.safeNext (s : State) (n : Nat) : Nat :=
  s.later.foldl (fun c x => match x.2 with
    | .safeDac m code => if m = n && x.1 ≤ s.tick + 1 then code else c
    | _ => c) (s.dac n).safe

/-- Start the loop engine of a channel as at RUN entry, at the coming tick (R103, R126, R133). -/
def State.engineEntry (s : State) (n : Nat) : State :=
  let code := s.safeNext n
  s.updEng n (fun e => { coefPend := e.coefPend, coefLate := e.coefLate, aux := e.aux, entry := true, guardLoad := true, ran := e.ran
                         slots := [{ preload := true }, {}, {}, {}], hold := code, drive := driveOf code })

/-- LOOP_STAT and CH_GANG_STAT fields that show the active structure. -/
def State.showDesc (s : State) (n : Nat) : State :=
  let d := s.desc n
  let s1 := (List.range 4).foldl (fun t k => (t.setFld (LOOP_STAT n k) fLOOP_STAT_KIND (if d.en then d.kind k else 0)).setFld
    (LOOP_STAT n k) fLOOP_STAT_SRC (if d.en then d.src k else 0)) s
  let m := d.en && d.gang != 0xFF
  ((s1.setBit (CH_GANG_STAT n) fCH_GANG_STAT_MEMBER m).setBit (CH_GANG_STAT n) fCH_GANG_STAT_LEADER d.leader).setFld
    (CH_GANG_STAT n) fCH_GANG_STAT_GANG_ID d.gang

/-- A channel across a bank swap in RUN (R67, R68, R69, Table 02-13); `old` is its descriptor before. -/
def State.swapRun (s : State) (n : Nat) (old : ChDesc) : State :=
  let d := s.desc n
  if !d.en then (List.range 4).foldl (fun t k => t.zeroSlot n k) (s.modelOff n)
  else if !old.en then s.engineEntry n
  else
    let all := old.gang != d.gang || old.leader != d.leader || old.dacMode != d.dacMode
    let changed (k : Nat) : Bool := all || old.kind k != d.kind k || old.src k != d.src k
    let ks := (List.range 4).filter changed
    let s1 := ks.foldl (fun t k => t.updEng n (fun e => e.setSlot k { preload := d.kind k != 0 })) (((List.range 4).filter (fun k =>
      !d.present k)).foldl (fun t k => t.zeroSlot n k) s)
    let s2 := if ks.isEmpty then s1 else s1.updEng n (fun e => { e with guardLoad := true })
    if old.modelEn then s2 else s2.updModel n (fun m => { m with init := d.modelEn })

/-- A channel at a bank swap in any power state; `old` is its descriptor before. -/
def State.swapChan (s : State) (n : Nat) (old : ChDesc) : State :=
  let d := s.desc n
  let g := n / 32
  let s1 := s.showDesc n
  let s2 := if s.pwr g = 3 then s1.swapRun n old else s1
  let s3 := if old.dacMode = d.dacMode then s2 else s2.modeChange n (s.tick + 2) d.dacMode
  if old.en != d.en && (d.en || s.pwr g != 0) then s3.after (s.tick + 2) (.hold n srcDisabled (!d.en)) else s3

/-- Does a swap end the aperture run of a channel (Table 02-13)? APT_SRC and APT_GANG count while APT_EN is 1 (R49). -/
def aptChanged (old new : ChDesc) : Bool :=
  old.aptEn != new.aptEn || (old.aptEn && (old.aptSrc != new.aptSrc || old.aptGang != new.aptGang))

/-- The descriptor a channel has once the banks of its cluster are exchanged. -/
def State.stbyDesc (s : State) (n : Nat) : ChDesc :=
  let d := s.bankDesc (n / 32) (s.stbyBank (n / 32)) (n % 32)
  if d.en then d else {}

/-- A window whose ROUTE has changed acts at the commit tick if it is outside (R216, Table 02-13). -/
def State.swapRoute (s : State) (n : Nat) (old : ChDesc) : State :=
  let d := s.desc n
  let one (t : State) (w : Win) (a b : Nat) : State := if a = b then t else t.after (s.tick + 1) (.routeAct n (winIx w))
  one (one s .v old.routeV d.routeV) .i old.routeI d.routeI

/-- Exchange the banks of a cluster (R59, R67 to R71); aperture runs that the swap ends close first, with what the old structure gave
them (Table 08-3). -/
def State.swapBanks (s0 : State) (g : Nat) : State :=
  let s := s0.over ((chansOf g).filter (fun n => aptChanged (s0.desc n) (s0.stbyDesc n))) State.aptTruncate
  let olds := (chansOf g).map (fun n => (n, s.desc n))
  let lanes (l : Nat) : Bool × Nat × Bool := s.laneEntry l
  let welt := ((List.range 8).map (8 * g + ·)).filter s.weltEn
  let av := s.activeValid g && !(s.cluster g).bankBad
  let aid := s.rd (CLU_ACTIVE_ID g)
  let s1 := ((s.updStat g fCLU_BANK_STAT_ACTIVE (1 - s.activeBank g)).updStat g fCLU_BANK_STAT_ACTIVE_VALID 1).updStat g
    fCLU_BANK_STAT_STBY_VALID av.toNat
  let s2 := ((s1.updStat g fCLU_BANK_STAT_CODE av.toNat).wr (CLU_ACTIVE_ID g) (s.rd (CLU_STBY_ID g))).wr (CLU_STBY_ID g)
    (if av then aid else 0)
  let s3 := s2.updCluster g (fun c => { c with bankBad := false })
  let s4 := olds.foldl (fun t x => (t.swapChan x.1 x.2).swapRoute x.1 x.2) s3
  let s5 := s4.over (welt.filter (fun q => !s4.weltEn q)) State.weltOff
  s5.laneSwap g lanes

/-- A window whose WIN_x_CTL or thresholds a commit has changed: a comparator whose enable changed starts INSIDE, tied comparators are
judged anew, and a window that BLANK no longer masks acts at the commit tick if it is outside (R214, R215, R226). -/
def State.commitWindow (s : State) (n : Nat) (w : Win) (old : State) : State :=
  let a := WIN_CTL n (winIx w)
  let inst := 40 * (s.tick + 1)
  if old.lv a = s.lv a && old.lv (WIN_TH n (winIx w)) = s.lv (WIN_TH n (winIx w)) then s
  else
    let one (t : State) (hi : Bool) : State := if old.cmpEnabled n w hi = t.cmpEnabled n w hi then t else t.setLatch n w hi false
    let t1 := (one (one s true) false).tieLatches n w
    let t2 := if t1.outside n w then t1 else t1.updWin n w (fun x => { x with episode := false, faulted := false, masked := false })
    let freed := old.winMasked n w inst && !t2.winMasked n w inst
    (if freed then t2.after (s.tick + 1) (.routeAct n (winIx w)) else t2).refreshWin n inst

/-- The windows of a cluster at a commit. -/
def State.commitWindows (s : State) (g : Nat) (old : State) : State :=
  s.over (chansOf g) (fun t n => (t.commitWindow n .v old).commitWindow n .i old)

/-- The exact value of a board correction's word (R106, R13); GAIN words lie at even offsets of eight. -/
def boardVal (a : Nat) (w : Word) : Int := if a % 8 = 0 then coefVal w else ofQ w.toInt

/-- Board corrections at a hub commit: at once, or under a ramp from the present value (R301, R307). -/
def State.commitBoard (s : State) (old : State) : State :=
  let ads := ((s.live ++ old.live).map (·.1)).filter (fun a => CAL_BOARD_GAIN 0 0 ≤ a && a < CAL_BOARD_GAIN 512 0)
  let chg := (ads.eraseDups).filter (fun a => s.lv a != old.lv a)
  let ramp := s.bit CAL_CTL fCAL_CTL_BOARD_RAMP
  let rest := s.ramps.filter (fun r => !chg.contains r.addr)
  let start (a : Nat) : Int := match old.ramps.find? (fun r => r.addr == a) with
    | some r => r.now
    | none => boardVal a (old.lv a)
  let first := s.tick + 1 + s.rampPeriod
  { s with ramps := if ramp then rest ++ chg.map (fun a => ⟨a, a % 8 == 0, start a, boardVal a (s.lv a), 0, first⟩) else rest }

/-- COMMIT_TICK (R59, R62, R65): the pending commit of a group is due at the coming tick. -/
def execCommitTick (g : Grp) (s : State) : Out :=
  match (s.com g).pend with
  | none => .next s
  | some p =>
    if !s.due p.due then .next s
    else
      let st := grpReg g HUB_COMMIT_STAT
      let s1 := s.liveFromShadow g
      let s2 := if g = 16 then (s1.phaseCommit (s.lv PHB_CTL) (s.lv PHB_QUAD_CPC) (s.lv64 PHB_FREE_INC_LO)).commitBoard s
        else s1.commitWindows g s
      let s3 := if p.bank then s2.swapBanks g else s2
      let s4 := (s3.incWrap st fHUB_COMMIT_STAT_GEN).wr64 (grpReg g HUB_SWAP_STAMP_LO) s.nextStamp
      let s5 := (s4.updCom g (fun c => { c with pend := none })).landHeld g
      let s6 := (s5.setBit st fHUB_COMMIT_STAT_PENDING false).setBit st fHUB_COMMIT_STAT_BANK_PENDING false
      let s7 := if p.at_ && p.due.stamp.isNone then (s6.raise st fHUB_COMMIT_STAT_LATE_STAMP).comEvent g else s6
      .next (if (s.com g).heldCommit.isSome then s7.after (s.tick + 1) (.heldCommit g) else s7)

/-- P(k+2) as the present period k fixes it (R73, R338): a hub commit due at the coming tick acts there first (R91). -/
def State.pAfterNext (s : State) : Nat :=
  match execCommitTick 16 s with
  | .next t => t.phaseTick.nextP
  | _ => s.phaseTick.nextP

/-- The stamp of tick k+2. -/
def State.stampAfterNext (s : State) : Nat := stampOf s.pAfterNext

/-- The bits of a word of coefficient RAM that are not reserved (R5, R106, Table 05-2); `o` is its offset in the channel block. -/
def coefBits (o : Nat) : Word :=
  let w := o % 0x80 / 4
  if w < 3 || w = 5 || (w < 6 && o % 0x200 < 0x80) then 0x3FFFFFFF else 0

/-- A write of a word of a channel's coefficient RAM, whose reserved bits stay 0 (R5, R35, R102, R106, R123); it corrects a word that read
uncorrectable (R387). -/
def State.writeCoef (s : State) (addr : Nat) (data : Word) (be : Nat) (rq : Req) : Out :=
  let a := addr / 4 * 4
  let y := a % 0x400000
  if 0x1000000 ≤ a && a < 0x5000000 && 0x10000 ≤ y && y < 0x30000 && 0x800 ≤ y % 0x1000 && y % 0x1000 < 0xC00 then
    if s.answers a then
      let m := beMask be &&& coefBits (y % 0x1000)
      let old := s.rd a
      let s1 := { s with coefBad := s.coefBad.erase a }
      let s2 := if s.coefOld.any (fun e => e.1 == a) then s1 else { s1 with coefOld := SMap.insert a old s1.coefOld }
      .next (s2.wr a ((old &&& ~~~m) ||| (data &&& m)))
    else .next (s.discardReq ((a - 0x1000000) / 0x1000000) a rq)
  else .next s

/-- COEFFICIENT_WINDOW_WRITE: the host writes a word of a channel's coefficient RAM. -/
def execCoefficientWindowWrite (addr : Nat) (data : Word) (be : Nat) (rq : Req) (s : State) : Out :=
  s.memWrite rq addr (fun s => s.writeCoef addr data be rq)

end Sys2Proof.Machine
end

