-- ==== Sys2Proof/Machine/Dma.lean ====
section
/-!
DEFINITION. DMA channels (chapter 13): instructions and their checks, loops, waits and signals, stops, and the channel commands.
The bytes of a burst are moved in DmaBurst.lean.
-/

namespace Sys2Proof.Machine

def State.dmaCh (s : State) (d : Nat) : DmaSt := SMap.get {} s.dma d
def State.setDma (s : State) (d : Nat) (x : DmaSt) : State := { s with dma := SMap.set {} s.dma d x }
def State.updDma (s : State) (d : Nat) (f : DmaSt → DmaSt) : State := s.setDma d (f (s.dmaCh d))

/-- DMA_CH_STAT.STATE codes. -/
def dmIdle : Nat := 0
def dmRunning : Nat := 1
def dmWaiting : Nat := 2
def dmDone : Nat := 3
def dmStopped : Nat := 4

def State.dmaState (s : State) (d : Nat) : Nat := s.fld (DMA_CH_STAT d) fDMA_CH_STAT_STATE
def State.setDmaState (s : State) (d v : Nat) : State :=
  (s.setFld (DMA_CH_STAT d) fDMA_CH_STAT_STATE v).setBit (DMA_CH_STAT d) fDMA_CH_STAT_TOKEN_WAIT false
/-- WAITING for a request token (R274). -/
def State.dmaTokenWait (s : State) (d : Nat) : State :=
  (s.setDmaState d dmWaiting).setBit (DMA_CH_STAT d) fDMA_CH_STAT_TOKEN_WAIT true
/-- RUNNING or WAITING. -/
def State.dmaActive (s : State) (d : Nat) : Bool := s.dmaState d == dmRunning || s.dmaState d == dmWaiting
def State.dmaPc (s : State) (d : Nat) : Nat := s.fld (DMA_CH_STAT d) fDMA_CH_STAT_PC
def State.dmaRefuse (s : State) (d : Nat) : State := s.raise (DMA_CH_STAT d) fDMA_CH_STAT_REFUSED

/-! ### Units and lines (R270, Table 13-5) -/

/-- Streams of a reshuffled MOVE. -/
def MoveSt.f (m : MoveSt) : Nat := 2 ^ m.factor
/-- Bytes of a unit. -/
def MoveSt.unit (m : MoveSt) : Nat :=
  if m.shuf = 1 || m.shuf = 2 then 64 * m.f else if m.shuf = 3 || m.shuf = 4 then 1024 else 64
/-- 64-byte lines of a unit. -/
def MoveSt.unitLines (m : MoveSt) : Nat := m.unit / 64
/-- Lines of the whole MOVE. -/
def MoveSt.total (m : MoveSt) : Nat := m.len / 64

/-- The source and destination byte ranges (R269): base and length of each. -/
def MoveSt.ranges (m : MoveSt) : List (Nat × Nat) × List (Nat × Nat) :=
  let streams (a : Nat) : List (Nat × Nat) := (List.range m.f).map (fun j => (a + j * m.stride, m.len / m.f))
  if m.shuf = 1 then (streams m.src, [(m.dst, m.len)])
  else if m.shuf = 2 then ([(m.src, m.len)], streams m.dst)
  else ([(m.src, m.len)], [(m.dst, m.len)])

/-- Two ranges share a byte. -/
def rangesMeet (a b : Nat × Nat) : Bool := a.1 < b.1 + b.2 && b.1 < a.1 + a.2

/-- Two ranges of one list share a byte. -/
def overlapAmong : List (Nat × Nat) → Bool
  | [] => false
  | x :: xs => xs.any (rangesMeet x) || overlapAmong xs

/-! ### Stops (R277, R278) -/

/-- Word k of the instruction at PC. -/
def State.dmaWord (s : State) (d k : Nat) : Nat :=
  s.seqMem.readLE (((s.rd (DMA_CH_PROG_BASE d)).toNat / 16 * 16 + 16 * s.dmaPc d + 4 * k) % 2 ^ 32) 4

/-- PC has reached PROG_LEN (R268). -/
def State.dmaPast (s : State) (d pc : Nat) : Bool := decide (s.fld (DMA_CH_PROG_LEN d) fDMA_CH_PROG_LEN_LEN ≤ pc)

/-- Residue, partial flag and lines of a stop: whole units, and the lines issued of the next. -/
def MoveSt.status (m : MoveSt) : Nat × Bool × Nat :=
  let u := m.unitLines
  (m.len - m.lines / u * m.unit, m.lines % u != 0, m.lines % u)

/-- The 64-byte write-back record (R278). -/
def State.dmaWriteBack (s : State) (d : Nat) : State :=
  if s.bit (DMA_CH_CTL d) fDMA_CH_CTL_WB_EN then
    let ws := [DMA_CH_STAT d, DMA_CH_RESIDUE d, DMA_CH_PART d, DMA_CH_LOOP d, DMA_CH_ITER d].map (fun a => (s.rd a).toNat)
    let a := (s.rd (DMA_CH_WB d)).toNat / 64 * 64
    { s with seqMem := (List.range 16).foldl (fun m k => m.writeLE (a + 4 * k) (ws.getD k 0) 4) s.seqMem }
  else s

/-- Residue, partial flag and lines of a stop at the present instruction, and the bytes that a RESUME skips: for a MOVE not yet begun, D
is what an earlier stop left (R278, R281). -/
def State.dmaLeft (s : State) (d : Nat) : (Nat × Bool × Nat) × Nat :=
  let x := s.dmaCh d
  match x.move with
  | some m => (m.status, m.lines / m.unitLines * m.unit)
  | none =>
    if !s.dmaPast d (s.dmaPc d) && bits (s.dmaWord d 0) 0 4 = 1 then ((s.dmaWord d 3 - x.skip, false, 0), x.skip) else ((0, false, 0), 0)

/-- A channel stops with a code other than DONE. -/
def State.dmaStop (s : State) (d code : Nat) : State :=
  let ((r, p, l), skip) := s.dmaLeft d
  let s1 := ((s.setDmaState d dmStopped).setFld (DMA_CH_STAT d) fDMA_CH_STAT_CODE code).wr (DMA_CH_RESIDUE d) (BitVec.ofNat 32 r)
  let s2 := (s1.setBit (DMA_CH_PART d) fDMA_CH_PART_PARTIAL p).setFld (DMA_CH_PART d) fDMA_CH_PART_LINES l
  let s3 := s2.updDma d (fun x => { x with move := none, wait := none, skip })
  (s3.dmaWriteBack d).withVec 3 (fun t => t.setBitAt DMA_INT_STAT d)

/-! ### Execution (R266 to R273) -/

/-- Go on at instruction `pc` (R268). -/
def State.dmaGo (s : State) (d pc : Nat) : State :=
  let s1 := (s.setFld (DMA_CH_STAT d) fDMA_CH_STAT_PC pc).updDma d (fun x => { x with move := none, wait := none, skip := 0 })
  if s.dmaPast d pc then s1.dmaStop d 0x1A else s1.setDmaState d dmRunning

/-- Run `f` where channel d is about to execute an instruction with this OP; a reserved OP stops it (R266). -/
def State.dmaExec (s : State) (d op : Nat) (f : State) : State :=
  let x := s.dmaCh d
  if s.dmaState d != dmRunning || x.move.isSome || x.wait.isSome then s
  else
    let o := bits (s.dmaWord d 0) 0 4
    if o = op then f
    else if [1, 2, 3, 4, 15].contains o then s
    else s.dmaStop d 0x10

/-- Effective addresses of the MOVE at PC (R271). -/
def State.dmaEffective (s : State) (d : Nat) : Nat × Nat :=
  let src := s.dmaWord d 1
  let dst := s.dmaWord d 2
  match (s.dmaCh d).loop with
  | some l =>
    if l.target ≤ s.dmaPc d && s.dmaPc d < l.idx then
      let i := (s.rd (DMA_CH_ITER d)).toNat
      let k := if l.mod = 0 then i else i % l.mod
      ((src + k * l.sinc) % 2 ^ 32, (dst + k * l.dinc) % 2 ^ 32)
    else (src, dst)
  | none => (src, dst)

/-- The MOVE at PC. -/
def State.dmaMoveAt (s : State) (d : Nat) : MoveSt :=
  let w := s.dmaWord d 0
  let (src, dst) := s.dmaEffective d
  let len := s.dmaWord d 3
  let factor := bits w 19 3
  let st := (s.rd (DMA_CH_STRIDE d)).toNat
  { ssp := bits w 4 2, dsp := bits w 6 2, barrier := w.testBit 8, reqEn := w.testBit 9, req := bits w 10 6
    shuf := bits w 16 3, factor, esize := bits w 22 1, src, dst, len
    stride := if st = 0 then len / 2 ^ factor else st, lines := 0 }

/-- Base of a channel's host window. -/
def State.hostBase (s : State) (d : Nat) : Nat :=
  (s.rd (DMA_CH_HWIN_LO d)).toNat / 4096 * 4096 + 2 ^ 32 * (s.rd (DMA_CH_HWIN_HI d)).toNat

/-- Is a range outside its space (Table 13-1)? -/
def State.dmaOutside (s : State) (d sp : Nat) (r : Nat × Nat) : Bool :=
  match sp with
  | 0 => 2 ^ 32 < r.1 + r.2
  | 1 => 0x8000000 < r.1 + r.2
  | 2 => 2 ^ 64 < s.hostBase d + r.1 + r.2
  | _ => true

/-- Does a DEV range touch a standby structure bank? -/
def State.touchesStandby (s : State) (r : Nat × Nat) : Bool :=
  (List.range 16).any (fun g => rangesMeet r (bankBase g (s.stbyBank g), 0x100000))

/-- The checks of Table 13-4, in order; 0 where all pass. The stride it checks is DMA_CH_STRIDE (DEDUCED: the table speaks of a nonzero
stride; assumption 30). -/
def State.dmaCheck (s : State) (d : Nat) (m : MoveSt) : Nat :=
  let w := s.dmaWord d 0
  let shuffled := m.shuf = 1 || m.shuf = 2
  let (rs, rd) := m.ranges
  let stride := (s.rd (DMA_CH_STRIDE d)).toNat
  let hostOff := !s.bit (DMA_CH_HWIN_LO d) fDMA_CH_HWIN_LO_EN
  if bits w 23 9 != 0 || ((m.shuf = 0 || m.shuf = 3 || m.shuf = 4) && (m.factor != 0 || m.esize != 0)) then 0x11
  else if m.ssp = 3 || m.dsp = 3 || (m.ssp = 2 && m.dsp = 2) || ((m.ssp = 2 || m.dsp = 2) && hostOff) ||
    rs.any (s.dmaOutside d m.ssp) || rd.any (s.dmaOutside d m.dsp) then 0x12
  else if m.src % 64 != 0 || m.dst % 64 != 0 || m.len % 64 != 0 || (shuffled && stride % 64 != 0) then 0x13
  else if m.len = 0 || m.len % m.unit != 0 then 0x14
  else if 5 ≤ m.shuf || (shuffled && (m.factor = 0 || 6 ≤ m.factor || (stride != 0 && stride < m.len / m.f))) then 0x15
  else if (m.ssp = m.dsp && rs.any (fun a => rd.any (rangesMeet a))) || overlapAmong rs || overlapAmong rd then 0x16
  else if m.dsp = 1 && s.polSigned && rd.any s.touchesStandby then 0x17
  else 0

/-- The MOVE waits for a token (R274). -/
def State.tokenWait (s : State) (m : MoveSt) : Bool :=
  m.reqEn && m.buf.isEmpty && s.fld (DMA_REQ_TOK m.req) fDMA_REQ_TOK_TOKENS == 0

/-- DMA_BARRIER_DONE (R276, R280): every write has arrived. The read that shows it for host memory cannot return while the link is down. -/
def execDmaBarrierDone (d : Dma) (s : State) : Out :=
  match (s.dmaCh d).move with
  | some m =>
    if !(s.dmaActive d && m.barrier && m.total ≤ m.lines) then .next s
    else if m.dsp = 2 && !s.host.linkUp then .next (s.dmaStop d 4)
    else .next (s.dmaGo d (s.dmaPc d + 1))
  | none => .next s

/-- The host link is lost (R280): channels with a host MOVE that is under way, or with the read of a HOST barrier outstanding, stop. -/
def State.dmaLinkLost (s : State) : State :=
  s.over (List.range 32) (fun t d => match (t.dmaCh d).move with
    | some m => if t.dmaActive d && (((m.ssp = 2 || m.dsp = 2) && decide (m.lines < m.total) && !t.tokenWait m) ||
        (m.dsp = 2 && m.barrier && decide (m.total ≤ m.lines))) then t.dmaStop d 4 else t
    | none => t)

/-- A read of the engine fails (R279): every channel that runs stops, and the failing read is recorded. -/
def State.dmaBusStop (s : State) (space kind addr : Nat) : State :=
  let s1 := s.over (List.range 32) (fun t d => if t.dmaActive d then t.dmaStop d 3 else t)
  let s2 := (s1.raise DMA_ENG_STAT fDMA_ENG_STAT_BUS_STOP).wr64 DMA_ERR_ADDR_LO addr
  (s2.setFld DMA_ERR_INFO fDMA_ERR_INFO_SPACE space).setFld DMA_ERR_INFO fDMA_ERR_INFO_KIND kind

/-- DMA_LOOP (R271). A first LOOP with COUNT 1 does not repeat the body. While no loop is active i is 0. The TARGET is judged before NESTED (DESIGN CHOICE, assumption 30). -/
def execDmaLoop (d : Dma) (s : State) : Out :=
  let w := s.dmaWord d 0
  let pc := s.dmaPc d
  let target := bits w 4 12
  let count := s.dmaWord d 3
  let lp : LoopSt := ⟨pc, target, bits w 16 16, s.dmaWord d 1, s.dmaWord d 2⟩
  let show_ (t : State) (i : Nat) (on : Bool) : State :=
    ((t.setFld (DMA_CH_LOOP d) fDMA_CH_LOOP_LOOP_IDX pc).setBit (DMA_CH_LOOP d) fDMA_CH_LOOP_ACTIVE on).wr (DMA_CH_ITER d)
      (BitVec.ofNat 32 i)
  let again (i : Nat) : State := ((show_ s i true).updDma d (fun x => { x with loop := some lp })).dmaGo d target
  let ends : State := ((show_ s 0 false).updDma d (fun x => { x with loop := none })).dmaGo d (pc + 1)
  let go : State :=
    if pc ≤ target then s.dmaStop d 0x18
    else match (s.dmaCh d).loop with
      | none => if count = 1 then ends else again 1
      | some l =>
        if l.idx != pc then s.dmaStop d 0x19
        else
          let i := ((s.rd (DMA_CH_ITER d)).toNat + 1) % 2 ^ 32
          if count != 0 && i = count then ends else again i
  .next (s.dmaExec d 2 go)

/-! ### WAIT and SIGNAL (R272, R273) -/

/-- A WAIT of KIND `k`: reserved kinds and bits stop the channel; `f` is what to wait for. -/
def State.dmaWait (s : State) (d k : Nat) (f : WaitFor) : State :=
  let w := s.dmaWord d 0
  let kind := bits w 4 2
  let resv := bits w 6 2 != 0 || bits w 14 18 != 0 || s.dmaWord d 3 != 0 ||
    (kind != 2 && (s.dmaWord d 1 != 0 || s.dmaWord d 2 != 0))
  s.dmaExec d 3 (if kind = 3 then s.dmaStop d 0x1B
    else if resv then s.dmaStop d 0x11
    else if kind != k then s
    else (s.updDma d (fun x => { x with wait := some f })).setDmaState d dmWaiting)

/-- DMA_WAIT_EVENT (R272). -/
def execDmaWaitEvent (d : Dma) (s : State) : Out := .next (s.dmaWait d 0 (.event (bits (s.dmaWord d 0) 8 6)))
/-- DMA_WAIT_KICK (R272). -/
def execDmaWaitKick (d : Dma) (s : State) : Out := .next (s.dmaWait d 1 .kick)
/-- DMA_WAIT_STAMP (R272). -/
def execDmaWaitStamp (d : Dma) (s : State) : Out :=
  .next (s.dmaWait d 2 (.stamp (s.dmaWord d 1 + 2 ^ 32 * s.dmaWord d 2)))

/-- DMA_WAIT_SATISFIED (R272): the condition holds; of several channels on one event line the lowest-numbered is served. -/
def execDmaWaitSatisfied (d : Dma) (s : State) : Out :=
  match (s.dmaCh d).wait with
  | some (.event e) =>
    let a := DMA_EVT_CNT e
    let n := s.fld a fDMA_EVT_CNT_COUNT
    if n != 0 && (List.range d).all (fun x => (s.dmaCh x).wait != some (.event e)) then
      .next ((s.setFld a fDMA_EVT_CNT_COUNT (n - 1)).dmaGo d (s.dmaPc d + 1))
    else .next s
  | some .kick =>
    let n := s.fld (DMA_CH_KICKS d) fDMA_CH_KICKS_KICKS
    if n != 0 then .next ((s.setFld (DMA_CH_KICKS d) fDMA_CH_KICKS_KICKS (n - 1)).dmaGo d (s.dmaPc d + 1)) else .next s
  | some (.stamp x) => .next (if atOrAfter s.now x then s.dmaGo d (s.dmaPc d + 1) else s)
  | none => .next s

/-- Add to an event counter (R272). -/
def State.evtAdd (s : State) (e v : Nat) : State :=
  let a := DMA_EVT_CNT e
  let n := s.fld a fDMA_EVT_CNT_COUNT + v
  (s.setFld a fDMA_EVT_CNT_COUNT (min n 0xFFFF)).raiseIf (0xFFFF < n) a fDMA_EVT_CNT_OVER

/-- The tile that a SIGNAL of KIND 1 to 3 reaches. -/
def signalTile (kind target : Nat) : Nat := if kind = 2 then target / 8 else target / 128

/-- A SIGNAL of KIND `k`: reserved kinds, reserved bits and a TARGET beyond its range stop the channel, in that order (DESIGN CHOICE for
the last two). A tile that is down receives nothing (DEDUCED from R38; assumption 30). -/
def State.dmaSignal (s : State) (d k : Nat) (f : State → Nat → Nat → State) : State :=
  let w := s.dmaWord d 0
  let kind := bits w 4 4
  let target := bits w 16 9
  let v := max 1 (s.dmaWord d 1)
  let resv := bits w 8 8 != 0 || bits w 25 7 != 0 || s.dmaWord d 2 != 0 || s.dmaWord d 3 != 0
  s.dmaExec d 4 (if 4 ≤ kind then s.dmaStop d 0x1C
    else if resv then s.dmaStop d 0x11
    else if (kind = 0 && 64 ≤ target) || (kind = 2 && 32 ≤ target) then s.dmaStop d 0x1C
    else if kind != k then s
    else (if k = 0 || s.tileUp (signalTile k target) then f s target v else s).dmaGo d (s.dmaPc d + 1))

/-- DMA_SIGNAL_EVENT (R272). -/
def execDmaSignalEvent (d : Dma) (s : State) : Out := .next (s.dmaSignal d 0 State.evtAdd)
/-- DMA_SIGNAL_TRACK_FILL (R273, R247). -/
def execDmaSignalTrackFill (d : Dma) (s : State) : Out := .next (s.dmaSignal d 1 State.addCredits)
/-- DMA_SIGNAL_GROUP_FILL (R273, R257). -/
def execDmaSignalGroupFill (d : Dma) (s : State) : Out := .next (s.dmaSignal d 2 State.addBlocks)
/-- DMA_SIGNAL_RING_CONSUME (R273): APT_RING_RD advances modulo APT_RING_LEN. -/
def execDmaSignalRingConsume (d : Dma) (s : State) : Out := .next (s.dmaSignal d 3 (fun t n v =>
  let len := (t.rd (APT_RING_LEN n)).toNat / 64 * 64
  if len = 0 then t else t.wr (APT_RING_RD n) (BitVec.ofNat 32 (((t.rd (APT_RING_RD n)).toNat + v / 32 * 32) % len))))

/-- DMA_END (R266, R272). -/
def execDmaEnd (d : Dma) (s : State) : Out :=
  let resv := bits (s.dmaWord d 0) 4 28 != 0 || s.dmaWord d 1 != 0 || s.dmaWord d 2 != 0 || s.dmaWord d 3 != 0
  .next (s.dmaExec d 15 (if resv then s.dmaStop d 0x11
    else
      let s1 := ((s.setDmaState d dmDone).setFld (DMA_CH_STAT d) fDMA_CH_STAT_CODE 1).wr (DMA_CH_RESIDUE d) 0
      (s1.wr (DMA_CH_PART d) 0).evtAdd (32 + d) 1))

/-! ### Channel commands (R277, R281, R282) -/

def State.busStop (s : State) : Bool := s.bit DMA_ENG_STAT fDMA_ENG_STAT_BUS_STOP

/-- DMA_START (R282). -/
def execDmaStart (d : Dma) (s : State) : Out :=
  if s.dmaActive d || s.busStop then .next (s.dmaRefuse d)
  else
    let s1 := (s.setDma d {}).setFld (DMA_CH_STAT d) fDMA_CH_STAT_CODE 0
    .next (((s1.wr (DMA_CH_LOOP d) 0).wr (DMA_CH_ITER d) 0).dmaGo d 0)

/-- DMA_ABORT (R277): a burst in progress is finished first, at the beats that its channel is given. -/
def execDmaAbort (d : Dma) (s : State) : Out :=
  if !s.dmaActive d then .next s
  else match (s.dmaCh d).move with
    | some m => .next (if m.buf.isEmpty then s.dmaStop d 2 else s.updDma d (fun x => { x with move := some { m with abort := true } }))
    | none => .next (s.dmaStop d 2)

/-- DMA_RESUME (R281). -/
def execDmaResume (d : Dma) (s : State) : Out :=
  let code := s.fld (DMA_CH_STAT d) fDMA_CH_STAT_CODE
  if s.dmaState d != dmStopped || [1, 2, 0x1A].contains code || s.busStop then .next (s.dmaRefuse d)
  else .next (if s.dmaPast d (s.dmaPc d) then s.dmaStop d 0x1A else s.setDmaState d dmRunning)

/-- DMA_KICK (R282). -/
def execDmaKick (d : Dma) (s : State) : Out := .next (s.incSat (DMA_CH_KICKS d) fDMA_CH_KICKS_KICKS)

end Sys2Proof.Machine
end

