-- ==== Sys2Proof/Machine/Host.lean ====
section
/-!
DEFINITION. The meanings of the rows of chapter 15: halts by doorbell and ball, link errors, lanes and widths, configuration.
-/

namespace Sys2Proof.Machine

/-! ### Halts -/

/-- HALT_DOORBELL (R320, R321): a decoded write of HUB_HALT with HALT = 1. -/
def execHaltDoorbell (chain : Bool) (_cyc : Nat) (rq : Req) (s : State) : Out :=
  if !s.host.linkUp || s.host.retraining || !s.host.memEnable || s.host.dstate = .d3hot then .next s
  else
    let s1 := (s.haltLatch .doorbell).elog 0x24 rq.vc rq.hdr HUB_HALT
    .next (if chain then s1.sendHalt else s1)

/-- HALT_N_ASSERT (R322): the HALT_N ball goes low, or (`low` false) returns high. -/
def execHaltNAssert (low : Bool) (_cyc : Nat) (s : State) : Out :=
  let s1 := s.setBit HUB_HALT_STAT fHUB_HALT_STAT_BALL_LOW low
  if !low then .next s1
  else
    let s2 := s1.haltLatch .ball
    .next (if s.bit HUB_HALT_CTL fHUB_HALT_CTL_BALL_TO_CHAIN then s2.sendHalt else s2)

/-- HALT_RELEASE (R325): refused while HALT_N is low at the write; else at tick k+2. -/
def execHaltRelease (s : State) : Out :=
  if s.bit HUB_HALT_STAT fHUB_HALT_STAT_BALL_LOW then .next (s.raise HUB_HALT_STAT fHUB_HALT_STAT_RELEASE_REFUSED)
  else .next (s.after (s.tick + 2) .haltRelease)

/-! ### Link errors and lanes (R326 to R330) -/

/-- A sticky of PCI_LINK_STAT with PCI_INT_STAT.LINK (vector 1). -/
def State.linkEvent (s : State) (f : Fld) : State :=
  (s.raise PCI_LINK_STAT f).withVec 1 (fun t => t.raise PCI_INT_STAT fPCI_INT_STAT_LINK)

/-- The link enters Recovery. -/
def State.recovery (s : State) : State :=
  (s.linkEvent fPCI_LINK_STAT_RETRAINED).incSat PCI_LINK_STAT fPCI_LINK_STAT_RETRAINS

/-- Count of a lane's errors (PCI_LANE_ERR). -/
def laneErrField (l : Nat) : Fld := ⟨8 * l, 8⟩

/-- A TLP of this header is a completion (PRESUMED: the header layout of PCIe; assumption 33). -/
def Tlp.completion (h : Tlp) : Bool := h.h0.toNat / 2 ^ 24 % 32 == 10
/-- KIND of DMA_ERR_INFO for a completion without success: UR 1, CA 2, by its status code. -/
def Tlp.failKind (h : Tlp) : Nat := if h.h1.toNat / 2 ^ 13 % 8 = 4 then 2 else 1

/-- LINK_ERROR (R326, Table 15-5): classes 0x01 to 0x0F, of which 0x0B has its own row; for class 0x01 `addr` is the lane. An ECRC error
is one only with its check enabled; a non-posted request that is not supported is answered with Unsupported Request; a bad completion is
a DMA bus error (R279). -/
def execLinkError (cls : Nat) (addr : Nat) (rq : Req) (s : State) : Out :=
  if cls = 0 || 0xF < cls || cls = 0xB || (cls = 0xE && !s.host.cfg.ecrcCheck) then .next s
  else if cls = 0xA then .next (s.unsupported rq addr (Tlp.posted rq.hdr))
  else
    let s1 := s.elog cls rq.vc rq.hdr addr
    if cls = 1 then
      let s2 := s1.incSat PCI_LANE_ERR (laneErrField (addr % 4))
      .next { s2 with host := { s2.host with
        errTicks := (addr % 4, s.tick) :: s2.host.errTicks.filter (fun x => s.tick < x.2 + 2000) } }
    else if cls = 7 && Tlp.completion rq.hdr then .next (s1.dmaBusStop 2 3 addr)
    else if cls = 9 then .next (s1.dmaBusStop 2 4 addr)
    else if cls = 0xF then .next (s1.dmaBusStop 2 (Tlp.failKind rq.hdr) addr)
    else .next (if cls = 5 || cls = 0xC then s1.recovery else s1)

/-- Working lanes to width and lane reversal (Table 15-7). -/
def widthOf (ok : Nat) : Nat × Bool :=
  let l (i : Nat) : Bool := ok.testBit i
  if l 0 && l 1 && l 2 && l 3 then (4, false)
  else if l 0 && l 1 then (2, false)
  else if l 2 && l 3 then (2, true)
  else if l 0 then (1, false)
  else if l 3 then (1, true)
  else (0, false)

/-- Receiver errors of a lane in the last millisecond. -/
def State.laneErrors (s : State) (l : Nat) : Nat := (s.host.errTicks.filter (fun x => x.1 = l && s.tick < x.2 + 2000)).length

/-- LANE_DECLARED_FAILED (R328): with AUTO_NARROW, a lane over its error limit, or (`lock`) one that fails symbol lock or
equalisation in Recovery. A link that is in Recovery already does not enter it again. -/
def execLaneDeclaredFailed (lane : Fin 4) (lock : Bool) (s : State) : Out :=
  let tooMany := s.fld PCI_LANE_CFG fPCI_LANE_CFG_ERR_LIMIT < s.laneErrors lane
  if s.bit PCI_LANE_CFG fPCI_LANE_CFG_AUTO_NARROW && (s.rd PCI_LINK_STAT).getLsbD (6 + lane) && (lock || tooMany) then
    let s1 := (s.clrBitAt PCI_LINK_STAT (6 + lane)).elog 0x23 0 Tlp.zero lane
    let s2 := s1.raiseFault 16
    let s2 := if s.host.retraining then s2 else s2.recovery
    .next { s2 with host := { s2.host with retraining := true } }
  else .next s

/-- The link goes down (R331, R280). -/
def State.linkDown (s : State) : State :=
  let s1 := ((s.setFld PCI_LINK_STAT fPCI_LINK_STAT_WIDTH 0).setFld PCI_LINK_STAT fPCI_LINK_STAT_SPEED 0).elog 0x10 0 Tlp.zero 0
  let s2 := ({ s1 with host := { s1.host with linkUp := false, retraining := false } }).linkEvent fPCI_LINK_STAT_LINK_DOWN
  let s3 := s2.dmaLinkLost
  if s.bit HUB_HALT_CTL fHUB_HALT_CTL_DOWN_HALT then (s3.haltLatch .doorbell).elog 0x24 0 Tlp.zero HUB_HALT else s3

/-- WIDTH_CHANGE_DONE (R329): Recovery ends at the widest width of Table 15-7 that the partner offers. -/
def execWidthChangeDone (s : State) : Out :=
  if !s.host.retraining then .next s
  else
    let (w0, rev) := widthOf (s.fld PCI_LINK_STAT fPCI_LINK_STAT_LANE_OK)
    let w := min w0 s.host.partner
    let old := s.fld PCI_LINK_STAT fPCI_LINK_STAT_WIDTH
    if w = 0 then .next s.linkDown
    else
      let s1 := (s.setFld PCI_LINK_STAT fPCI_LINK_STAT_WIDTH w).setBit PCI_LINK_STAT fPCI_LINK_STAT_REVERSED rev
      let s2 := { s1 with host := { s1.host with retraining := false } }
      .next (if w < old then s2.linkEvent fPCI_LINK_STAT_DOWNSIZED else s2)

/-- WIDEN (R330): Recovery with every lane offered; a lane that fails is declared failed again. -/
def execWiden (s : State) : Out :=
  if !s.host.linkUp then .next s
  else
    let s1 := (s.setFld PCI_LINK_STAT fPCI_LINK_STAT_LANE_OK 15).recovery
    .next { s1 with host := { s1.host with retraining := true, errTicks := [] } }

/-- DL_DOWN (R331). -/
def execDlDown (s : State) : Out := if s.host.linkUp then .next s.linkDown else .next s

/-- LINK_UP (R331): training completes at the widest width both sides offer, at a speed of code 1 to 4. The lanes are idle while PERST_N is
low (R424). -/
def execLinkUp (partner : Nat) (speed : Nat) (s : State) : Out :=
  let (w0, rev) := widthOf (s.fld PCI_LINK_STAT fPCI_LINK_STAT_LANE_OK)
  let p := if 4 ≤ partner then 4 else if 2 ≤ partner then 2 else partner
  let w := min w0 p
  if s.host.linkUp || w = 0 || s.hubTest || s.hub.perstLow then .next s
  else
    let s1 := ((s.setFld PCI_LINK_STAT fPCI_LINK_STAT_WIDTH w).setFld PCI_LINK_STAT fPCI_LINK_STAT_SPEED
      (max 1 (min 4 speed))).setBit PCI_LINK_STAT fPCI_LINK_STAT_REVERSED rev
    .next { s1 with host := { s1.host with linkUp := true, retraining := false, partner := p } }

/-! ### Configuration space (R32, R310, R311) -/

/-- Type bits of BAR register i: memory, 64 bits, BAR2 prefetchable; a high half has none. -/
def barType (i : Nat) : Word := if i = 0 || i = 4 then 4 else if i = 2 then 0xC else 0
/-- Address bits of BAR register i: 128 MiB, 4 GiB and 64 KiB. -/
def barMask (i : Nat) : Word := if i = 0 then 0xF8000000 else if i = 2 then 0 else if i = 4 then 0xFFFF0000 else 0xFFFFFFFF
/-- Size of the BAR whose low half is register i. -/
def barSize (i : Nat) : Nat := if i = 0 then 2 ^ 27 else if i = 2 then 2 ^ 32 else 2 ^ 16
/-- BAR register i as it reads. -/
def State.barWord (s : State) (i : Nat) : Word := (s.host.bars.getD i 0 &&& barMask i) ||| barType i
/-- Base address of the BAR whose low half is register i. -/
def State.barAddr (s : State) (i : Nat) : Nat :=
  (s.barWord i &&& barMask i).toNat + 2 ^ 32 * (s.barWord (i + 1)).toNat
/-- Where a memory request at a host address lands: BAR0, BAR2 or BAR4 and the offset; nowhere while Memory Space Enable is 0. -/
def State.barHit (s : State) (addr : Nat) : Option (Nat × Nat) :=
  if !s.host.memEnable then none
  else ([0, 2, 4].find? (fun i => s.barAddr i ≤ addr && decide (addr < s.barAddr i + barSize i))).map (fun i => (i, addr - s.barAddr i))

/-- A word of the Type 0 configuration header (R311): no I/O BAR, no expansion ROM (R32), no INTx (Table 15-1). -/
def State.cfgWord (s : State) (off : Nat) : Word :=
  if off = 0 then 0x51201D7C
  else if off = 4 then (if s.host.memEnable then 2 else 0) ||| (if s.host.cfg.busMaster then 4 else 0) ||| 0x100000
  else if off = 8 then BitVec.ofNat 32 (0x11800000 + Config.silicon)
  else if 0x10 ≤ off && off < 0x28 then s.barWord ((off - 0x10) / 4)
  else if off = 0x2C then s.host.subsys
  else 0

/-- Bytes of the largest write that the device sends and of the largest read that it asks for (Table 15-1). -/
def State.maxWrite (s : State) : Nat := min 512 (128 * 2 ^ s.host.limits.1)
def State.maxRead (s : State) : Nat := min 512 (128 * 2 ^ s.host.limits.2)

/-- Reads that the device has outstanding at most (Table 15-1). A burst reads its source at once, in fewer requests. -/
def State.maxOutstanding (s : State) : Nat := if s.host.cfg.tag10 then 512 else 256
/-- The serial number of the Device Serial Number capability (Table 15-1): HUB_UID. -/
def deviceSerial : Nat := Config.uid.toNat

/-- Kinds of TLP with receive credits of their own. -/
inductive TlpKind where
  | posted | nonPosted | completion
deriving DecidableEq, Repr

/-- Receive credits that the device advertises (Table 15-2), header and data, by virtual channel; none: infinite. A command takes effect
whole, so between commands every queue is empty and every credit is returned (R316). -/
def rxCredits (vc : Nat) (k : TlpKind) : Option (Nat × Nat) :=
  match k with
  | .posted => some (if vc = 0 then (64, 512) else (8, 32))
  | .nonPosted => some (if vc = 0 then (32, 32) else (8, 8))
  | .completion => none

/-- CONFIGURATION_REQUEST (R310, R312, R314, R318, R32): the settings it writes; its completion; pending messages whose condition is still
true go out when the mask lifts. -/
def execConfigurationRequest (mem msix mask : Bool) (cfg : CfgIn) (s : State) : Out :=
  let s1 := { s with host := { s.host with
    memEnable := mem, msixEnable := msix, funcMask := mask, dstate := if cfg.d3hot then .d3hot else .d0
    limits := (cfg.limits.1, cfg.limits.2)
    cfg := cfg.regs
    aerUnc := s.host.aerUnc &&& ~~~cfg.clear.1
    aerCor := s.host.aerCor &&& ~~~cfg.clear.2
    bars := match cfg.bar with
      | some (i, w) => s.host.bars.set i (w &&& barMask i)
      | none => s.host.bars } }
  let s2 := s1.complete cfg.rq 0 false 4
  .next (if s.host.shut && !s1.host.shut then
      s2.over ((List.range 40).filter (fun v => s1.host.pba.testBit v && s1.vecCond v)) State.sendVec
    else s2)

end Sys2Proof.Machine
end

