-- ==== Sys2Proof/Machine/Cal.lean ====
section
/-!
DEFINITION. The meanings of the rows of chapter 14: reference sessions, the Welt rotation and its calibrations, window threshold
trims, permanent service commands, ramps of corrections.
-/

namespace Sys2Proof.Machine

/-! ### Reference sessions (R286 to R289) -/

/-- A session runs. -/
def State.inSession (s : State) : Bool := s.fld CAL_SESS_STAT fCAL_SESS_STAT_STATE != 0

/-- CAL_SESSION_START (R286): a write of CAL_SESS_GO with START = 1 and a nonzero TILES mask. -/
def execCalSessionStart (tiles : Fin 16) (force : Bool) (s : State) : Out :=
  if tiles = 0 then .next s
  else if s.inSession || s.rd CAL_REFV = 0 || s.rd CAL_REFR = 0 || s.wtrim.isSome then
    .next (s.sessEvent fCAL_SESS_STAT_REFUSED)
  else .next ({ s with sess := { s.sess with tiles := tiles, force := force, quad := none, bad := false, any := false } }.setFld CAL_SESS_STAT fCAL_SESS_STAT_STATE 1)

/-- The session ends: with an accepted cell, GEN counts, AGE returns to 0 (R288) and the standards are held for a store. -/
def State.endSession (s : State) (f : Fld) : State :=
  let s1 := if s.sess.any then (s.incWrap CAL_SESS_INFO fCAL_SESS_INFO_GEN).setFld CAL_SESS_INFO fCAL_SESS_INFO_AGE 0 else s
  let x : SessSt := if s.sess.any then { cert := s.rd CAL_CERT, refv := s.rd CAL_REFV, refr := s.rd CAL_REFR }
    else { cert := s.sess.cert, refv := s.sess.refv, refr := s.sess.refr }
  ({ s1 with sess := x }.setFld CAL_SESS_STAT fCAL_SESS_STAT_STATE 0).sessEvent f

/-- CAL_SESSION_ABORT (R289): the session ends at once; values accepted in earlier steps stay. -/
def execCalSessionAbort (s : State) : Out :=
  if s.inSession then .next (s.endSession fCAL_SESS_STAT_ABORTED) else .next s

/-- The quad whose lane a session borrows on tile t (R286). -/
def State.sessionQuad (s : State) (t : Nat) : Option Nat :=
  ((List.range 32).map (32 * t + ·)).find? (fun q => s.weltEn q && s.biased (4 * q) && s.perm q 1 == 4 && s.perm q 2 == 4)

/-- At a step boundary a session takes the next of its tiles that has a quad to borrow, or ends (R286, R289). -/
def State.nextTile (s : State) : Nat → State
  | 0 => s.endSession fCAL_SESS_STAT_DONE
  | fuel + 1 =>
    match (List.range 4).find? (fun t => s.sess.tiles.testBit t) with
    | none => s.endSession fCAL_SESS_STAT_DONE
    | some t =>
      match s.sessionQuad t with
      | some q => { s with sess := { s.sess with quad := some q, bad := false } }.setFld CAL_SESS_STAT fCAL_SESS_STAT_TILE t
      | none =>
        ({ s with sess := { s.sess with tiles := s.sess.tiles - 2 ^ t } }.sessEvent fCAL_SESS_STAT_NO_SLICE).nextTile fuel

/-! ### The balls of the standards (R285) -/

/-- The six balls of the standards. -/
inductive StdBall where
  | refvP | refvN | refrF | refrRf | refrS | refrRs
deriving DecidableEq, Repr

/-- The reading of a session under way at the present tick, of 24 of 65,536 samples from the start of the CAL phase (R287), while a
measurement is in progress. -/
def State.sessionReading (s : State) : Option Nat :=
  let r := (s.tick % 4000000 - 256) / 65536
  if s.sess.quad.isSome && !s.sess.bad && s.fld CAL_SESS_STAT fCAL_SESS_STAT_STATE = 2 && 256 ≤ s.tick % 4000000 && r < 24 then some r else none

/-- The current readings: the tile that drives cell 2 and whether it drives forward, from REFR_F to REFR_RF (R287). -/
def State.refrDrive (s : State) : Option (Nat × Bool) :=
  match s.sessionReading with
  | some r => if 8 ≤ r % 12 then some (s.fld CAL_SESS_STAT fCAL_SESS_STAT_TILE, r % 12 == 8 || r % 12 == 11) else none
  | none => none

/-- What the device puts on a ball of the standards: the current of a tile's cell 2 out of it (true) or into it; none: high
impedance (R285). -/
def State.stdBall (s : State) : StdBall → Option (Nat × Bool)
  | .refrF => s.refrDrive
  | .refrRf => s.refrDrive.map (fun x => (x.1, !x.2))
  | .refvP | .refvN | .refrS | .refrRs => none

/-- A reading of a session in its half (R287): REFV, cell 0, cell 1, cell 3, cell 3, cell 1, cell 0, REFV, then cell 2 forward,
reverse, reverse and forward. -/
def reading (h : List Int) (i : Nat) : Rat := ((h.getD i 0 : Int) : Rat)

/-- The value of cell k that one half forms, in register units (nV; pA for cell 2); none: its REFV readings sum to 0. -/
def halfCell (refv refr : Nat) (h : List Int) (k : Nat) : Option Rat :=
  let ref := reading h 0 + reading h 7
  if ref = 0 then none
  else if k = 2 then
    let d := (reading h 8 - reading h 9 - reading h 10 + reading h 11) / 4
    some (d / (ref / 2) * (refv : Rat) * 10000000 / (refr : Rat))
  else
    let i := if k = 3 then 3 else k + 1
    some ((reading h i + reading h (7 - i)) / ref * (refv : Rat))

/-- Absolute value of a rational. -/
def absQ (x : Rat) : Rat := if x < 0 then -x else x
/-- |a - b| is at most p parts per million of c. -/
def within (a b c p : Rat) : Bool := decide (absQ (a - b) * 1000000 ≤ p * absQ c)

/-- A rational rounded to an integer, ties to even. -/
def roundQ (x : Rat) : Int := rhe x.num x.den

/-- Does a REFV reading (units of 2^-30 of 4.096 V) lie in 2.500 V to 4.000 V? -/
def refvOk (r : Int) : Bool := decide (2500 * 2 ^ 30 ≤ 4096 * r) && decide (4096 * r ≤ 4000 * 2 ^ 30)

/-- Is a cell's value accepted (Table 14-3)? The halves' agreement is judged against their mean (DESIGN CHOICE, assumption 54). -/
def cellOk (force : Bool) (k : Nat) (a b : Rat) (old prod : Word) : Bool :=
  let m := (a + b) / 2
  let o : Rat := (old.toNat : Rat)
  within a b m (if k = 2 then 5 else 2) && within m o o (if force then 5000 else if k = 2 then 100 else 50) &&
    within m (prod.toNat : Rat) (prod.toNat : Rat) 5000

/-- Gains of the serving slices of a quad with WELT_EN = 0 follow a new cell 0 under a ramp (R289). -/
def State.rescaleGains (s : State) (q : Nat) (old new : Word) : State :=
  s.over ((List.range 4).flatMap (fun l => kinds.flatMap (fun k => s.serving q k l))).eraseDups (fun t sl =>
    let a := QUAD_SL_GAIN q sl
    let g : Rat := ((2 ^ 30 + (t.rd a).toInt : Int) : Rat) * (new.toNat : Rat) / (old.toNat : Rat)
    t.rampTo a false (ofQ (t.rd a).toInt) (ofQ (roundQ g - 2 ^ 30)) (t.tick + 1))

/-- One cell's outcome at the end of its tile's step (R287, R288). -/
def State.cellDone (s : State) (t : Nat) (refOk : Bool) (a b : List Int) (k : Nat) : State :=
  let refv := (s.rd CAL_REFV).toNat
  let refr := (s.rd CAL_REFR).toNat
  let reject (u : State) : State :=
    ((u.setBitAt (TILE_CAL_STAT t) (4 + k)).sessEvent fCAL_SESS_STAT_REJECT).logEvAt s.nextStamp 4 (4 + k) 2 (TILE_CAL_STAT t) t 0
  match halfCell refv refr a k, halfCell refv refr b k with
  | some x, some y =>
    let m := wordOf (roundQ ((x + y) / 2))
    let s1 := s.wr (TILE_CELL_MEAS t k) m
    let old := s.rd (TILE_CELL t k)
    if refOk && cellOk s.sess.force k x y old (Config.prodCell (4 * t + k)) then
      let s2 := ((s1.wr (TILE_CELL t k) m).setBitAt (TILE_CAL_STAT t) k).setBit (TILE_CAL_STAT t) fTILE_CAL_STAT_PROD false
      let s3 := { s2 with sess := { s2.sess with any := true }, ramps := s2.ramps.filter (fun r => r.addr != TILE_CELL t k) }
      if k = 0 then s3.over (((List.range 32).map (32 * t + ·)).filter (fun q => !s.weltEn q)) (fun u q => u.rescaleGains q old m)
      else s3
    else reject s1
  | _, _ =>
    let (v, s1) := s.free
    reject (s1.wr (TILE_CELL_MEAS t k) v)

/-- SESSION_TILE_DONE (R288): the tile's step ends at the coming tick, a step boundary; `a` and `b` are the readings of the two
halves. -/
def execSessionTileDone (a b : List Int) (s : State) : Out :=
  if s.stepPos != 0 || s.sess.quad.isNone then .next s
  else
    let t := s.fld CAL_SESS_STAT fCAL_SESS_STAT_TILE
    let s1 := if s.sess.bad then s
      else
        let ok := (a.getD 0 0 :: a.getD 7 0 :: b.getD 0 0 :: [b.getD 7 0]).all refvOk
        (List.range 4).foldl (fun u k => u.cellDone t ok a b k) (s.setFld (TILE_CAL_STAT t) fTILE_CAL_STAT_ACCEPTED 0)
    let s2 := { s1 with sess := { s1.sess with tiles := s1.sess.tiles &&& (15 - 2 ^ t), quad := none, bad := false } }
    .next (if s2.sess.tiles = 0 then s2.endSession fCAL_SESS_STAT_DONE else s2)

/-! ### Rotation (R290 to R296) -/

/-- PHASE and LANE of every quad's status. -/
def State.showPhase (s : State) (ph : Nat) : State :=
  s.over (List.range 128) (fun t q => (t.setFld (QUAD_WELT_STAT q) fQUAD_WELT_STAT_PHASE ph).setFld (QUAD_WELT_STAT q)
    fQUAD_WELT_STAT_LANE s.stepLane)

/-- May the Welt slice of kind k take part in a rotation (R291)? -/
def State.kindRotates (s : State) (q k : Nat) : Bool := s.perm q k == 4 && !s.sliceFailed q (12 + k)

/-- A quad's step begins (R286, R291): TAKEOVER of lane L where it rotates or is borrowed. A rotation counts as completed at the boundary
that returns to lane 0 (DESIGN CHOICE, assumption 54). -/
def State.beginStep (s : State) (l q : Nat) : State :=
  let borrowed := s.sess.quad = some q
  let rot := s.bit CAL_CTL fCAL_CTL_ROT_EN && s.weltEn q && s.biased (4 * q) && !borrowed
  let a := QUAD_WELT_STAT q
  let was := (s.quadSt q).rotating
  let s1 := if was && l = 0 then s.incWrap a fQUAD_WELT_STAT_ROTATIONS else s
  let s3 := ((s1.updQuad q (fun x => { x with rotating := rot, borrowed, stopping := false, passed := 0, restored := 0 })).setBit a
    fQUAD_WELT_STAT_ACTIVE (rot || borrowed)).setBit a fQUAD_WELT_STAT_SESSION borrowed
  let s4 := if rot || borrowed then s3.over (kinds.filter (s.kindRotates q)) (fun t k => t.fadeStart q k l (s.tick + 1) true) else s3
  if rot || borrowed then s4.qualRefresh q else s4

/-- WELT_STEP_BOUNDARY (R286, R290 to R292): PHB_TICK becomes a multiple of 4,000,000. -/
def execWeltStepBoundary (s : State) : Out :=
  if s.stepPos != 0 then .next s
  else
    let s1 := s.fadesEnd (s.tick + 1)
    let s2 := if s1.inSession && s1.sess.quad.isNone then s1.nextTile 4 else s1
    .next ((List.range 128).foldl (fun t q => t.beginStep s.stepLane q) (s2.showPhase 0))

/-- WELT_CAL_START (R290, Table 14-5): the takeover crossfades have ended. -/
def execWeltCalStart (s : State) : Out :=
  if s.stepPos != 256 then .next s
  else
    let s1 := (s.fadesEnd (s.tick + 1)).showPhase 1
    let s2 := if s1.sess.quad.isSome then s1.setFld CAL_SESS_STAT fCAL_SESS_STAT_STATE 2 else s1
    .next (s2.over (((s2.quad.filter (fun e => e.2.stopping)).map (·.1))) (fun t q => t.handback q s.stepLane (s.tick + 1)))

/-! ### Decisions (R297 to R299) -/

/-- Number of tap i of slice sl of quad q. -/
def sliceTap (q sl i : Nat) : Nat := (15 * q + sl) * 128 + i
/-- Number of tap i (0 offset, 1 gain) of a window comparator (Table 14-8). -/
def winTap (n w : Nat) (hi : Bool) (i : Nat) : Nat := 2 ^ 20 + ((2 * n + w) * 2 + hi.toNat) * 2 + i
/-- A tap's value. -/
def State.tap (s : State) (a : Nat) : Int := (SMap.get none s.taps a).getD (Config.prodTap a)
def State.setTap (s : State) (a : Nat) (v : Int) : State := { s with taps := SMap.set none s.taps a (some v) }

/-- Limits of Table 14-8 for tap i of a kind of slice: from previous, from production, least and greatest value. -/
def tapLimits (k i : Nat) : Int × Int × Int × Int :=
  if k = 0 then (if i < 67 then (2, 24, -32, 31) else (2, 8, 0, 31))
  else if i = 0 then (3, 20, -32, 31) else if i < 11 then (2, 24, -32, 31) else (2, 8, 0, 31)
/-- Taps of a kind of slice: 63 + 4 + 1 of a DAC, 1 + 10 + 1 of an ADC. -/
def tapCount (k : Nat) : Nat := if k = 0 then 68 else 12

/-- Is a new tap value plausible (R297)? -/
def State.tapOk (s : State) (lim : Int × Int × Int × Int) (a : Nat) (v : Int) : Bool :=
  (v - s.tap a).natAbs ≤ lim.1 && (v - Config.prodTap a).natAbs ≤ lim.2.1 && lim.2.2.1 ≤ v && v ≤ lim.2.2.2

/-- |a - b| is at most p parts per million of c register units. -/
def ppm (a b : Int) (p c : Nat) : Bool := (a - b).natAbs * 1000000 ≤ p * c

/-- Does a measurement pass R297 and R298? -/
def State.measOk (s : State) (m : SliceMeas) (g o : Int) : Bool :=
  let k := m.slice % 3
  let ix := 15 * m.quad + m.slice
  let span := if k = 0 then 2 ^ 31 else 2 ^ 30
  (m.taps.length == tapCount k) && (m.taps.zipIdx.all (fun x => s.tapOk (tapLimits k x.2) (sliceTap m.quad m.slice x.2) x.1)) &&
    ppm m.gainA m.gainB 2 (2 ^ 30) && ppm m.ofsA m.ofsB 1 span &&
    ppm g (s.rd (QUAD_SL_GAIN m.quad m.slice)).toInt 200 (2 ^ 30) && ppm g (Config.prodGain ix).toInt 5000 (2 ^ 30) &&
    ppm o (s.rd (QUAD_SL_OFS m.quad m.slice)).toInt 12 span && ppm o (Config.prodOfs ix).toInt 500 span

/-- One slice's decision (R299, R302, R304): a measurement that does not pass counts a failure, and the third in a row, an end code or a
bad weight declares the slice failed. -/
def State.decideSlice (s : State) (m : SliceMeas) : State :=
  let q := m.quad
  let sl := m.slice
  let a := QUAD_SL_QUAL q sl
  let g := rhe (m.gainA + m.gainB) 2
  let o := rhe (m.ofsA + m.ofsB) 2
  let ends := m.endCode || m.badWeight
  if !ends && s.measOk m g o then
    let s1 := m.taps.zipIdx.foldl (fun t x => t.setTap (sliceTap q sl x.2) x.1) s
    let s2 := (s1.wr (QUAD_SL_GAIN q sl) (wordOf g)).wr (QUAD_SL_OFS q sl) (wordOf o)
    let s3 := { s2 with ramps := s2.ramps.filter (fun r => r.addr != QUAD_SL_GAIN q sl && r.addr != QUAD_SL_OFS q sl) }
    let s4 := ((s3.setFld a fQUAD_SL_QUAL_RES (min 255 m.res)).setFld a fQUAD_SL_QUAL_AGE 0).setFld a fQUAD_SL_QUAL_FAILS 0
    let s5 := (s4.setBit a fQUAD_SL_QUAL_SUSPECT false).setBit a fQUAD_SL_QUAL_PROD false
    (if sl < 12 && s.perm q (sl % 3) == sl / 3 && !s.sliceFailed q sl then
      s5.updQuad q (fun x => { x with passed := x.passed ||| 2 ^ (sl % 3) }) else s5).qualRefresh q
  else
    let s1 := ((s.incSat a fQUAD_SL_QUAL_FAILS).failSum fCAL_FAIL_SUM_CAL_FAIL (q / 32)).logSlice q sl (8 + q / 32) 1 CAL_FAIL_SUM
    if ends || s1.fld a fQUAD_SL_QUAL_FAILS = 3 then s1.failSlice q sl else s1

/-- What a calibration measures of a slice that no result names: what the slice has (assumption 13). -/
def State.sameMeas (s : State) (q sl : Nat) : SliceMeas :=
  let g := (s.rd (QUAD_SL_GAIN q sl)).toInt
  let o := (s.rd (QUAD_SL_OFS q sl)).toInt
  ⟨q, sl, (List.range (tapCount (sl % 3))).map (fun i => s.tap (sliceTap q sl i)), g, g, o, o,
    s.fld (QUAD_SL_QUAL q sl) fQUAD_SL_QUAL_RES, false, false⟩

/-- Decide each of the named slices of a quad, with the results given. -/
def State.decideAll (s : State) (results : List SliceMeas) (q : Nat) (sls : List Nat) : State :=
  sls.foldl (fun t sl => t.decideSlice ((results.find? (fun m => m.quad == q && m.slice == sl)).getD (t.sameMeas q sl))) s

/-- Quads that rotate in the present step, not borrowed by a session. -/
def State.rotatingQuads (s : State) : List Nat := (s.quad.filter (fun e => e.2.rotating)).map (·.1)
/-- Quads whose Welt set is calibrated in the present step: in a borrowed one only the lane's slices are not (R286, R296). -/
def State.weltQuads (s : State) : List Nat := (s.quad.filter (fun e => e.2.rotating || e.2.borrowed)).map (·.1)

/-- A rotation more has passed for slices of every quad, up to a decision that may accept a calibration of them (R305). -/
def State.ageSlices (s : State) (sls : List Nat) : State :=
  s.over (List.range 128) (fun t q => (t.over sls (fun u sl => u.incSat (QUAD_SL_QUAL q sl) fQUAD_SL_QUAL_AGE)).qualRefresh q)

/-- Is a slice under calibration in the present period (R295, R296)? -/
def State.calibrating (s : State) (q sl : Nat) : Bool :=
  let x := s.quadSt q
  let p := s.tick % 4000000
  let k := sl % 3
  !s.sliceFailed q sl &&
    (if sl < 12 then x.rotating && sl / 3 == s.tick / 4000000 % 4 && (x.kind k).serve == sl / 3 && 256 ≤ p && p < 3200000
      else (x.rotating || x.borrowed) && s.kindRotates q k && 3200512 ≤ p)

/-- Slices that a reading or a weight of the period that ends fails, while they are calibrated (R302, R396). -/
def State.sliceFails (s : State) (bad : List (Nat × Nat)) : State :=
  s.over (bad.filter (fun x => s.calibrating x.1 x.2)) (fun t x => t.failSlice x.1 x.2)

/-- WELT_CAL_DECISION (R295, R299): period 3,199,744 of the CAL phase. A slice restored in this step waits for a later one (R304). -/
def execWeltCalDecision (results : List SliceMeas) (s : State) : Out :=
  if s.stepPos != 256 + 3199744 then .next s
  else
    let l := s.stepLane
    .next ((s.ageSlices (kinds.map (3 * l + ·))).over s.rotatingQuads (fun t q => t.decideAll results q
      ((kinds.filter (fun k => ((t.quadSt q).kind k).serve == l && !t.sliceFailed q (3 * l + k) &&
        !(t.quadSt q).restored.testBit k)).map (3 * l + ·))))

/-- WELT_HANDBACK_START (R290, R292): s = 3,200,256. -/
def execWeltHandbackStart (s : State) : Out :=
  if s.stepPos != 3200256 then .next s
  else
    let s1 := s.showPhase 2
    let qs := (s1.quad.filter (fun e => e.2.rotating || e.2.borrowed)).map (·.1)
    .next (s1.over qs (fun t q => t.handback q s.stepLane (s.tick + 1)))

/-- WELT_PHASE_START (R290, R296): s = 3,200,512, the handback crossfades have ended. -/
def execWeltPhaseStart (s : State) : Out :=
  if s.stepPos != 3200512 then .next s else .next ((s.fadesEnd (s.tick + 1)).showPhase 3)

/-- WELT_PHASE_DECISION (R296): in steps that serve lanes 0 and 2 the Welt ADC slices' decision, 500,000 periods after the start of
the WELT phase; in the others the Welt DAC slice's, 299,936 periods after it. -/
def execWeltPhaseDecision (results : List SliceMeas) (s : State) : Out :=
  let even := s.stepLane % 2 = 0
  if s.stepPos != 3200512 + (if even then 500000 else 299936) then .next s
  else
    let ks := if even then [1, 2] else [0]
    let s1 := if s.stepLane < 2 then s.ageSlices (ks.map (12 + ·)) else s
    .next (s1.over s.weltQuads (fun t q => t.decideAll results q ((ks.filter (t.kindRotates q)).map (12 + ·))))

/-! ### Permanent service (R302 to R304) -/

/-- SLICE_TAKE (R304): kind 3 is ignored. -/
def execSliceTake (q : Quad) (kind : Fin 4) (lane : Fin 4) (s : State) : Out := s.toTile (q / 32) (QUAD_WELT_CMD q) fun s =>
  if kind = 3 then .next s else .next (s.failSlice q (3 * lane + kind))

/-- SLICE_RESTORE (R304): the FAILED mark and the FAILS count of a lane slice clear; the Welt slice serves on, and the slice is calibrated
in the next step that frees it. -/
def execSliceRestore (q : Quad) (kind : Fin 4) (lane : Fin 4) (s : State) : Out := s.toTile (q / 32) (QUAD_WELT_CMD q) fun s =>
  if kind = 3 then .next s
  else
    let sl := 3 * (lane : Nat) + kind
    let a := QUAD_SL_QUAL q sl
    let s1 := ((s.clrBitAt (QUAD_SLICE_FAIL q) sl).setBit a fQUAD_SL_QUAL_FAILED false).setFld a fQUAD_SL_QUAL_FAILS 0
    .next (if s.tick / 4000000 % 4 = lane then s1.updQuad q (fun x => { x with restored := x.restored ||| 2 ^ (kind : Nat) }) else s1)

/-! ### Window thresholds (R300) -/

/-- A window enters trim at tick `t`: in test and masked, its latches restart INSIDE. -/
def State.trimWin (s : State) (n : Nat) (w : Win) (t : Nat) : State :=
  let s1 := s.updWin n w (fun x => { x with trim := true, episode := false, faulted := false })
  ((s1.restartLatches n w).raise (WIN_TEST_STAT n (winIx w)) fWIN_TEST_STAT_BUSY).refreshWin n (40 * t)

/-- A window's trim ends at tick `t`. -/
def State.trimWinEnd (s : State) (n : Nat) (w : Win) (t : Nat) : State :=
  (s.setBit (WIN_TEST_STAT n (winIx w)) fWIN_TEST_STAT_BUSY false).winNormal n w t

/-- WINDOW_TRIM (R300): a write of CAL_WTRIM_GO with GO = 1. -/
def execWindowTrim (n : Ch) (v : Bool) (i : Bool) (s : State) : Out :=
  if s.pwr (n / 32) = 0 || s.inTest n .v || s.inTest n .i || s.inSession || s.wtrim.isSome then
    .next (s.withVec 7 (fun u => u.raise CAL_WTRIM_STAT fCAL_WTRIM_STAT_REFUSED))
  else if !v && !i then .next s
  else
    let w := if v then 0 else 1
    let s1 := { s with wtrim := some ⟨n, w, s.tick + 2, v && i⟩ }.setBit CAL_WTRIM_STAT fCAL_WTRIM_STAT_BUSY true
    .next (s1.after (s.tick + 2) (.trim n w))

/-- Take or keep the two taps of a comparator (R297, R300); CAL_QUAL_WIN gets its residual, 0xFF from 12.7 mV (254 units) on. -/
def State.trimTaps (s : State) (n w : Nat) (hi : Bool) (v : Int × Int) (res : Nat) : State :=
  let lim : Int × Int × Int × Int := (4, 24, -32, 31)
  let a (i : Nat) : Nat := winTap n w hi i
  if s.tapOk lim (a 0) v.1 && s.tapOk lim (a 1) v.2 then
    ((s.setTap (a 0) v.1).setTap (a 1) v.2).setFld (CAL_QUAL_WIN n) ⟨16 * w + (if hi then 0 else 8), 8⟩ (if 254 ≤ res then 255 else res)
  else s.withVec 7 (fun u => u.raise CAL_WTRIM_STAT fCAL_WTRIM_STAT_REJECT)

/-- WINDOW_TRIM_END (R300): a window's 256 periods end at the coming tick. -/
def execWindowTrimEnd (m : TrimMeas) (s : State) : Out :=
  match s.wtrim with
  | none => .next s
  | some x =>
    if s.tick + 1 != x.start + 256 then .next s
    else
      let t := s.tick + 1
      let s1 := ((s.trimTaps x.ch x.win true m.hi m.resHi).trimTaps x.ch x.win false m.lo m.resLo).trimWinEnd x.ch (winOf x.win) t
      if x.more then .next ({ s1 with wtrim := some { x with win := 1, start := t, more := false } }.trimWin x.ch .i t)
      else
        .next (({ s1 with wtrim := none }.setBit CAL_WTRIM_STAT fCAL_WTRIM_STAT_BUSY false).withVec 7
          (fun u => u.raise CAL_WTRIM_STAT fCAL_WTRIM_STAT_DONE))

/-! ### Ramps (R301) -/

/-- A step of one ramp due at tick `t`: slice corrections move in their registers, board corrections as `boardWord` reads them. -/
def State.rampStep (s : State) (t : Nat) (r : Ramp) : State × List Ramp :=
  if t < r.next then (s, [r])
  else
    let r' := { r with k := r.k + 1, next := r.next + s.rampPeriod }
    let s1 := if CAL_BOARD_GAIN 0 0 ≤ r.addr && r.addr < CAL_BOARD_GAIN 512 0 then s else s.wr r.addr r'.word
    (s1, if r'.k < 256 then [r'] else [])

/-- CORRECTION_RAMP_STEP (R301): every ramp whose step falls at the coming tick. -/
def execCorrectionRampStep (s : State) : Out :=
  let (t, rs) := s.ramps.foldl (fun acc r =>
    let (u, l) := acc.1.rampStep (s.tick + 1) r
    (u, acc.2 ++ l)) (s, [])
  .next { t with ramps := rs }

end Sys2Proof.Machine
end

