-- ==== Sys2Proof/Machine/Crypto.lean ====
section
/-!
DEFINITION. SHA-384 and ECDSA over P-384, which the spec names for signature blocks, signed tails and keys (R46, R359, R361). Their
constants are those of the public standards (assumption 14).
-/

namespace Sys2Proof.Machine

/-! ### SHA-384 -/

/-- The integer k-th root of x, from its bits below 2^n. -/
def rootBits (k x : Nat) : Nat → Nat → Nat
  | 0, acc => acc
  | n + 1, acc => rootBits k x n (if (acc + 2 ^ n) ^ k ≤ x then acc + 2 ^ n else acc)

/-- The first prime numbers below 410 (80 of them). -/
def shaPrimes : List Nat :=
  (List.range 410).filter (fun p => 2 ≤ p && (List.range 21).all (fun d => d < 2 || p ≤ d || p % d != 0))

/-- Round constants: 64 bits of the fraction of the cube roots of the first 80 primes. -/
def shaK : List Nat := shaPrimes.map (fun p => rootBits 3 (p * 2 ^ 192) 68 0 % 2 ^ 64)

/-- Initial value: 64 bits of the fraction of the square roots of the 9th to the 16th prime. -/
def shaInit : List Nat := ((shaPrimes.drop 8).take 8).map (fun p => rootBits 2 (p * 2 ^ 128) 68 0 % 2 ^ 64)

def rotr64 (x n : Nat) : Nat := (x / 2 ^ n) ||| (x * 2 ^ (64 - n) % 2 ^ 64)

/-- The message schedule, newest word first, from the 16 words of a block. -/
def shaExtend : Nat → List Nat → List Nat
  | 0, w => w
  | n + 1, w =>
    let x1 := w.getD 1 0
    let x14 := w.getD 14 0
    let s1 := rotr64 x1 19 ^^^ rotr64 x1 61 ^^^ (x1 / 2 ^ 6)
    let s0 := rotr64 x14 1 ^^^ rotr64 x14 8 ^^^ (x14 / 2 ^ 7)
    shaExtend n (((s1 + w.getD 6 0 + s0 + w.getD 15 0) % 2 ^ 64) :: w)

/-- One round. -/
def shaRound (st : List Nat) (kw : Nat) : List Nat :=
  match st with
  | [a, b, c, d, e, f, g, h] =>
    let ch := (e &&& f) ^^^ ((2 ^ 64 - 1 - e) &&& g)
    let t1 := h + (rotr64 e 14 ^^^ rotr64 e 18 ^^^ rotr64 e 41) + ch + kw
    let maj := (a &&& b) ^^^ (a &&& c) ^^^ (b &&& c)
    let t2 := (rotr64 a 28 ^^^ rotr64 a 34 ^^^ rotr64 a 39) + maj
    [(t1 + t2) % 2 ^ 64, a, b, c, (d + t1) % 2 ^ 64, e, f, g]
  | _ => st

/-- Bytes as one big-endian number. -/
def beNat (bs : List Byte) : Nat := bs.foldl (fun a b => 256 * a + b.toNat) 0

/-- One block of 128 bytes. -/
def shaBlock (st : List Nat) (block : List Byte) : List Nat :=
  let w := (List.range 16).map (fun i => beNat ((block.drop (8 * i)).take 8))
  let ws := (shaExtend 64 w.reverse).reverse
  let out := (ws.zip shaK).foldl (fun s x => shaRound s (x.1 + x.2)) st
  (st.zip out).map (fun x => (x.1 + x.2) % 2 ^ 64)

/-- Blocks of a padded message. -/
def shaBlocks : Nat → List Nat → List Byte → List Nat
  | 0, st, _ => st
  | n + 1, st, bs => shaBlocks n (shaBlock st (bs.take 128)) (bs.drop 128)

/-- The SHA-384 digest of a message, as a number of 384 bits. -/
def sha384 (m : List Byte) : Nat :=
  let zeros := (240 - (m.length + 1 + 16) % 128 + 16) % 128
  let len := (List.range 16).map (fun i => BitVec.ofNat 8 (8 * m.length / 256 ^ (15 - i)))
  let padded := m ++ [0x80] ++ List.replicate zeros 0 ++ len
  ((shaBlocks (padded.length / 128) shaInit padded).take 6).foldl (fun a x => 2 ^ 64 * a + x) 0

/-! ### ECDSA over P-384 -/

def p384 : Nat := 2 ^ 384 - 2 ^ 128 - 2 ^ 96 + 2 ^ 32 - 1
def p384B : Nat :=
  0xB3312FA7E23EE7E4988E056BE3F82D19181D9C6EFE8141120314088F5013875AC656398D8A2ED19D2A85C8EDD3EC2AEF
def p384N : Nat :=
  0xFFFFFFFFFFFFFFFFFFFFFFFFFFFFFFFFFFFFFFFFFFFFFFFFC7634D81F4372DDF581A0DB248B0A77AECEC196ACCC52973
def p384Gx : Nat :=
  0xAA87CA22BE8B05378EB1C71EF320AD746E1D3B628BA79B9859F741E082542A385502F25DBF55296C3A545E3872760AB7
def p384Gy : Nat :=
  0x3617DE4A96262C6F5D9E98BF9292DC29F8F41DBD289A147CE9DA3113B5F0B8C00A60B1CE1D7E819D7A431D7C90EA0E5F

/-- b^e mod m, over the lowest n bits of e. -/
def powMod (m b e : Nat) : Nat → Nat
  | 0 => 1 % m
  | n + 1 =>
    let h := powMod m (b * b % m) (e / 2) n
    if e % 2 = 1 then b * h % m else h

/-- The inverse modulo a prime of at most 384 bits. -/
def invMod (m x : Nat) : Nat := powMod m (x % m) (m - 2) 384

/-- Is a point with these coordinates on the curve (R359)? -/
def onCurve (x y : Nat) : Bool :=
  x < p384 && y < p384 && y * y % p384 == (x * x * x + (p384 - 3) * x + p384B) % p384

/-- Sum of two points; none is the point at infinity. -/
def ecAdd : Option (Nat × Nat) → Option (Nat × Nat) → Option (Nat × Nat)
  | none, q => q
  | p, none => p
  | some (x1, y1), some (x2, y2) =>
    if x1 = x2 && (y1 + y2) % p384 = 0 then none
    else
      let l := if x1 = x2 then (3 * x1 * x1 + (p384 - 3)) * invMod p384 (2 * y1) % p384
        else (y2 + p384 - y1) * invMod p384 (x2 + p384 - x1) % p384
      let x := (l * l + 2 * p384 - x1 - x2) % p384
      some (x, (l * (x1 + p384 - x) + p384 - y1) % p384)

/-- k times a point, over the lowest n bits of k. -/
def ecMul (k : Nat) (p : Option (Nat × Nat)) : Nat → Option (Nat × Nat)
  | 0 => none
  | n + 1 =>
    let h := ecMul (k / 2) (ecAdd p p) n
    if k % 2 = 1 then ecAdd p h else h

/-- Does the signature (r, s) of a digest verify under a public key? -/
def ecdsaOk (key : Nat × Nat) (digest r s : Nat) : Bool :=
  if r = 0 || p384N ≤ r || s = 0 || p384N ≤ s then false
  else
    let w := invMod p384N s
    match ecAdd (ecMul (digest * w % p384N) (some (p384Gx, p384Gy)) 384) (ecMul (r * w % p384N) (some key) 384) with
    | some (x, _) => x % p384N == r
    | none => false

end Sys2Proof.Machine
end

