-- ==== Sys2Proof/Machine/Nor.lean ====
section
/-!
DEFINITION. What Cobbler keeps in NOR flash and how files are checked: the copies of the safe-value, calibration and structure
tables, .dxs files, firmware images (R44 to R46, R210, R308, R309, R362 to R366).
-/

namespace Sys2Proof.Machine

/-! ### Two copies (R210, R308, R363) -/

/-- A generation is at or after another, modulo 2^32. -/
def genAfter (a b : Nat) : Bool := (a + 2 ^ 32 - b) % 2 ^ 32 < 2 ^ 31

/-- The copy in force: the one with the higher GEN. -/
def newest {α : Type} (gen : α → Nat) : Option α × Option α → Option α
  | (some a, some b) => if genAfter (gen a) (gen b) then some a else some b
  | (some a, none) => some a
  | (none, b) => b

/-- A store: it writes the copy with the lower GEN (a missing copy before a present one, A where both miss) and gives it one more
than the other's (0 of a missing one). -/
def storeCopy {α : Type} (gen : α → Nat) (c : Option α × Option α) (mk : Nat → α) : (Option α × Option α) × Nat :=
  match c with
  | (some a, some b) =>
    if genAfter (gen a) (gen b) then
      let n := (gen a + 1) % 2 ^ 32
      ((some a, some (mk n)), n)
    else
      let n := (gen b + 1) % 2 ^ 32
      ((some (mk n), some b), n)
  | (some a, none) =>
    let n := (gen a + 1) % 2 ^ 32
    ((some a, some (mk n)), n)
  | (none, some b) =>
    let n := (gen b + 1) % 2 ^ 32
    ((some (mk n), some b), n)
  | (none, none) => ((some (mk 1), none), 1)

/-- A store cut short leaves the copy it was writing invalid and the other in force (R210, R308, R349). -/
def tearCopy {α : Type} (gen : α → Nat) (c : Option α × Option α) : Option α × Option α :=
  match c with
  | (some a, some b) => if genAfter (gen a) (gen b) then (some a, none) else (none, some b)
  | (a, b) => (a, b)

/-- Does a tile keep its entries of the copy in force in a store (R366; a tile that is DOWN is taken the same way)? -/
def State.tileGone (s : State) (t : Nat) : Bool := s.isolated t || !s.tileOn t

/-! ### Safe values (R210) -/

/-- The entry of channel n: CODE and RANGE. -/
def State.safeEntry (s : State) (n : Nat) : Word :=
  BitVec.ofNat 32 (s.fld (CH_SAFE_CODE n) fCH_SAFE_CODE_SAFE + 2 ^ 20 * s.fld (CH_RANGE_SAFE n) fCH_RANGE_SAFE_WORD)

/-- TABLE_CRC over a table's entries, offsets 0x040 to 0x83F. -/
def safeCrc (xs : List Word) : Nat := crc32c (xs.flatMap (fun w => leBytes w.toNat 4))

/-- A copy is valid: its MAGIC, COUNT and CRC are right (Table 09-5). -/
def SafeTable.valid (x : SafeTable) : Bool := x.magic == 0x45464153 && x.count == 512 && x.crc == safeCrc x.entries

/-- The two copies, an invalid one left out. -/
def NorSt.safeCopies (x : NorSt) : Option SafeTable × Option SafeTable :=
  (x.safe.1.filter SafeTable.valid, x.safe.2.filter SafeTable.valid)

/-- The safe-value table in force: the valid copy with the higher GEN. -/
def NorSt.safeTable (x : NorSt) : Option SafeTable := newest SafeTable.gen x.safeCopies

/-- Store the safe-value table; the new GEN. -/
def State.storeSafe (s : State) : State × Nat :=
  let old := s.nor.safeTable.map SafeTable.entries
  let entry (n : Nat) : Word := if s.tileGone (n / 128) then (old.getD []).getD n 0x80000 else s.safeEntry n
  let entries := (List.range 512).map entry
  let (c, g) := storeCopy SafeTable.gen s.nor.safeCopies (fun g => ⟨0x45464153, g, 512, safeCrc entries, entries⟩)
  ({ s with nor := { s.nor with safe := c } }, g)

/-- Load the safe values of a tile's channels (R210). -/
def State.loadSafe (s : State) (x : SafeTable) (t : Nat) : State :=
  s.over ((List.range 128).map (128 * t + ·)) (fun u n =>
    let w := (x.entries.getD n 0x80000).toNat
    let c := w % 2 ^ 20
    let u1 := (u.setFld (CH_SAFE_CODE n) fCH_SAFE_CODE_SAFE c).setFld (CH_RANGE_SAFE n) fCH_RANGE_SAFE_WORD (w / 2 ^ 20)
    u1.updChan n (fun x => { x with dac := { x.dac with safe := c } }))

/-! ### Calibration table (R308, Table 14-10) -/

/-- Registers of the table whose values are loaded under a ramp: cells, GAIN and OFS. -/
def calRamped (a : Nat) : Bool :=
  if a < 0x1000000 || 0x5000000 ≤ a then false
  else
    let y := a % 0x400000
    let q := y % 0x100
    (0x3F0100 ≤ a % 0x1000000 && a % 0x1000000 < 0x3F0110) ||
      (0x30000 ≤ y && y < 0x30800 && 0x40 ≤ q && q < 0xF4 && (q - 0x40) % 12 != 8)
/-- The others: QUAL, QUAD_SLICE_MAP and QUAD_SLICE_FAIL. -/
def calPlain (a : Nat) : Bool :=
  if a < 0x1000000 || 0x5000000 ≤ a then false
  else
    let y := a % 0x400000
    let q := y % 0x100
    0x30000 ≤ y && y < 0x30800 && (q = 8 || q = 0xC || (0x40 ≤ q && q < 0xF4 && (q - 0x40) % 12 = 8))
def calReg (a : Nat) : Bool := calRamped a || calPlain a
/-- A word of the CAL_BOARD table. -/
def calBoard (a : Nat) : Bool := CAL_BOARD_GAIN 0 0 ≤ a && a < CAL_BOARD_GAIN 512 0
/-- The tile of a register of a tile's span. -/
def tileOf (a : Nat) : Nat := (a - 0x1000000) / 0x1000000
/-- The tile of a tap number (`sliceTap`, `winTap`). -/
def tapTile (k : Nat) : Nat := if k < 2 ^ 20 then k / 128 / 15 / 32 else (k - 2 ^ 20) / 8 / 128

/-- Entries of a table that a tile gives: the present ones, or those of the copy in force where the tile is gone. -/
def State.keepGone {α : Type} (s : State) (tile : Nat → Nat) (now old : List (Nat × α)) : List (Nat × α) :=
  let a := now.filter (fun e => !s.tileGone (tile e.1))
  (old.filter (fun e => s.tileGone (tile e.1))).foldl (fun m e => SMap.insert e.1 e.2 m) a

/-- The word of a table for a register. -/
def CalTable.word (x : CalTable) (a : Nat) : Word := SMap.get (regReset a) x.words a
/-- A table's tap value. -/
def CalTable.tap (x : CalTable) (k : Nat) : Int := (SMap.get none x.taps k).getD (Config.prodTap k)
/-- Its word of the CAL_BOARD table. -/
def CalTable.boardWord (x : CalTable) (a : Nat) : Word := SMap.get (regReset a) x.board a

/-- The sections of Table 14-10, in order: words little-endian, a byte for each tap (DESIGN CHOICE: the spec gives the sections, not
their layout; assumption 54). -/
def CalTable.sections (x : CalTable) : List Byte :=
  let words (as : List Nat) : List Byte := as.flatMap (fun a => leBytes (x.word a).toNat 4)
  let taps (ks : List Nat) : List Byte := ks.map (fun k => BitVec.ofInt 8 (x.tap k))
  let slices : List (Nat × Nat) := (List.range 128).flatMap (fun q => (List.range 15).map (fun sl => (q, sl)))
  words ((List.range 4).flatMap (fun t => (List.range 4).map (TILE_CELL t ·))) ++
    taps (slices.flatMap (fun y => (List.range (tapCount (y.2 % 3))).map (sliceTap y.1 y.2 ·))) ++
    words (slices.flatMap (fun y => [QUAD_SL_GAIN y.1 y.2, QUAD_SL_OFS y.1 y.2, QUAD_SL_QUAL y.1 y.2])) ++
    taps ((List.range 4096).map (2 ^ 20 + ·)) ++
    words ((List.range 128).flatMap (fun q => [QUAD_SLICE_MAP q, QUAD_SLICE_FAIL q])) ++
    (List.range 10240).flatMap (fun i => leBytes (x.boardWord (CAL_BOARD_GAIN 0 0 + 4 * i)).toNat 4)

/-- TABLE_CRC over a table, its own word taken as 0 (R43, Table 14-9). -/
def CalTable.crcOf (x : CalTable) : Nat :=
  crc32c (leBytes x.magic 4 ++ leBytes x.gen 4 ++ leBytes x.format 2 ++ [0, 0] ++ leBytes x.length 4 ++ [0, 0, 0, 0] ++
    leBytes x.sessGen 4 ++ leBytes x.cert.toNat 4 ++ leBytes x.refv.toNat 4 ++ leBytes x.refr.toNat 4 ++ leBytes x.hours 4 ++
    List.replicate 24 0 ++ x.sections)

/-- A copy is valid: its MAGIC, FORMAT and CRC are right (R309). -/
def CalTable.valid (x : CalTable) : Bool := x.magic == 0x544C4143 && x.format == 1 && x.crc == x.crcOf
/-- A copy with the MAGIC, FORMAT, LENGTH and CRC that a store gives it. -/
def CalTable.sealed (x : CalTable) : CalTable :=
  let y := { x with magic := 0x544C4143, format := 1, length := 128128 }
  { y with crc := y.crcOf }

/-- The two copies, an invalid one left out. -/
def NorSt.calCopies (x : NorSt) : Option CalTable × Option CalTable :=
  (x.cal.1.filter CalTable.valid, x.cal.2.filter CalTable.valid)
/-- The calibration table in force: the valid copy with the higher GEN. -/
def NorSt.calTable (x : NorSt) : Option CalTable := newest CalTable.gen x.calCopies

/-- Store the calibration table; the new GEN. -/
def State.storeCal (s : State) : State × Nat :=
  let old := s.nor.calTable
  let words := s.keepGone tileOf (s.regs.filter (fun e => calReg e.1)) ((old.map CalTable.words).getD [])
  let taps := s.keepGone tapTile s.taps ((old.map CalTable.taps).getD [])
  let (c, g) := storeCopy CalTable.gen s.nor.calCopies (fun g => CalTable.sealed
    { magic := 0, gen := g, format := 0, length := 0, crc := 0, sessGen := s.fld CAL_SESS_INFO fCAL_SESS_INFO_GEN
      cert := s.sess.cert, refv := s.sess.refv, refr := s.sess.refr, hours := s.hours, words
      board := s.live.filter (fun e => calBoard e.1), taps })
  ({ s with nor := { s.nor with cal := c, restored := none } }, g)

/-- Registers of a class that the table or the device holds off reset, of tiles that answer. -/
def State.calAddrs (s : State) (x : CalTable) (p : Nat → Bool) (t : Nat → Bool) : List Nat :=
  ((x.words.map (·.1) ++ s.regs.map (·.1)).filter (fun a => p a && t (tileOf a))).eraseDups

/-- CAL_RESTORE's load (R366, R301): cells, slice gains and offsets and board corrections ramp in; the copy's taps and slice map wait for
the next boot (DESIGN CHOICE, assumption 54: the choice is kept in NOR until the next store). -/
def State.restoreCal (s : State) (x : CalTable) : State :=
  let one (u : State) (a : Nat) : State :=
    let v := x.word a
    let cell := 0x3F0100 ≤ a % 0x1000000
    let now : Int := if cell then ((s.rd a).toNat : Int) else (s.rd a).toInt
    let goal : Int := if cell then (v.toNat : Int) else v.toInt
    if u.rd a = v then { u with ramps := u.ramps.filter (fun r => r.addr != a) } else u.rampTo a false (ofQ now) (ofQ goal) (s.tick + 1)
  let s1 := { s with nor := { s.nor with restored := some x } }.over (s.calAddrs x calRamped (fun t => !s.tileGone t)) one
  let board := ((x.board.map (·.1)) ++ ((s.live ++ s.regs).map (·.1)).filter calBoard).eraseDups
  s1.over board (fun u a =>
    let v := x.boardWord a
    let from_ := boardVal a (s.lv a)
    let u1 := if s.boardWord a = v then { u with ramps := u.ramps.filter (fun r => r.addr != a) }
      else u.rampTo a (a % 8 == 0) from_ (boardVal a v) (s.tick + 1)
    (u1.wl a v).wr a v)

/-- A register of the slice map (Table 14-10). -/
def calMap (a : Nat) : Bool := calReg a && (List.range 128).any (fun q => a == QUAD_SLICE_MAP q || a == QUAD_SLICE_FAIL q)

/-- The boot step's load of a table for one tile (R309): every section at once; the taps and the slice map are those of the copy that
CAL_RESTORE has chosen since the last store, if any (R366). The cells no longer hold production values. -/
def State.loadCal (s : State) (x : CalTable) (t : Nat) : State :=
  let y := s.nor.restored.getD x
  let s1 := s.over (s.calAddrs x calReg (fun k => k = t)) (fun u a => u.wr a (x.word a))
  let s2 := (s1.over (s1.calAddrs y calMap (fun k => k = t)) (fun u a => u.wr a (y.word a))).setBit (TILE_CAL_STAT t) fTILE_CAL_STAT_PROD false
  let rest := s2.taps.filter (fun e => tapTile e.1 ≠ t)
  { s2 with taps := (y.taps.filter (fun e => tapTile e.1 = t)).foldl (fun m e => SMap.insert e.1 e.2 m) rest }

/-- The board section and what the header says of the session at boot. -/
def State.loadBoard (s : State) (x : CalTable) : State :=
  ({ s with sess := { s.sess with cert := x.cert, refv := x.refv, refr := x.refr } }.over x.board (fun u e => (u.wl e.1 e.2).wr e.1 e.2)).setFld CAL_SESS_INFO fCAL_SESS_INFO_GEN x.sessGen

/-- Production values of a tile (R309). -/
def State.loadProd (s : State) (t : Nat) : State :=
  let s1 := (List.range 4).foldl (fun u k => u.wr (TILE_CELL t k) (Config.prodCell (4 * t + k))) s
  let s2 := s1.setBit (TILE_CAL_STAT t) fTILE_CAL_STAT_PROD true
  let s3 := s2.over ((List.range 32).map (32 * t + ·)) (fun u q => (List.range 15).foldl (fun v sl =>
    ((v.wr (QUAD_SL_GAIN q sl) (Config.prodGain (15 * q + sl))).wr (QUAD_SL_OFS q sl) (Config.prodOfs (15 * q + sl))).setBit
      (QUAD_SL_QUAL q sl) fQUAD_SL_QUAL_PROD true) u)
  { s3 with taps := s3.taps.filter (fun e => tapTile e.1 ≠ t) }

/-! ### Files -/

/-- The little-endian number of `n` bytes at an offset of a file. -/
def leAt (bs : List Byte) (off n : Nat) : Nat := ((bs.drop off).take n).foldr (fun b a => b.toNat + 256 * a) 0
/-- The big-endian number of `n` bytes. -/
def beAt (bs : List Byte) (off n : Nat) : Nat := beNat ((bs.drop off).take n)
/-- The first `len` bytes of a file with the CRC word at `off` zeroed (R43). -/
def zeroedAt (bs : List Byte) (off len : Nat) : List Byte :=
  let b := bs.take len
  b.take off ++ [0, 0, 0, 0] ++ b.drop (off + 4)

/-- A key as it is stored: 96 bytes, X then Y, big-endian (R359). -/
def keyPoint (k : List Byte) : Nat × Nat := (beAt k 0 48, beAt k 48 48)

/-- Does a signature block at `off` verify over a message (Table 02-3, R46)? -/
def blockOk (bs : List Byte) (off magic : Nat) (msg : List Byte) (key : Nat → Option (Nat × Nat)) : Bool :=
  decide (off + 128 ≤ bs.length) && leAt bs off 4 == magic && leAt bs (off + 5) 1 == 1 && decide (leAt bs (off + 4) 1 < 4) &&
    match key (leAt bs (off + 4) 1) with
    | some k => ecdsaOk k (sha384 msg) (beAt bs (off + 0x10) 48) (beAt bs (off + 0x40) 48)
    | none => false

/-- The public key in a user slot. -/
def State.userKey (s : State) (i : Nat) : Option (Nat × Nat) := (SMap.get none s.cob.keys i).map keyPoint

/-- The checks of R362 on a .dxs file under a policy: 0 accepted, 6 FORMAT, 7 SIGNATURE (Table 17-7). -/
def State.fileCheck (s : State) (signed : Bool) (bs : List Byte) : Nat :=
  let len := leAt bs 0x20 4
  if leAt bs 0 4 != 0x46535844 || leAt bs 5 1 != 1 || leAt bs 8 4 != 0x5120 || bs.length < len || len < 0x40 ||
      crc32c (zeroedAt bs 0x3C len) != leAt bs 0x3C 4 then 6
  else if leAt bs 0x1A 2 % 2 = 0 then (if signed then 7 else 0)
  else if blockOk bs len 0x47535844 (bs.take len) s.userKey then 0 else 7

/-- The sections of a file: target mask and bytes (R45). -/
def fileSections (bs : List Byte) : List (Nat × List Byte) :=
  let body := bs.take (leAt bs 0x20 4)
  (List.range (leAt bs 0x18 2)).map (fun i =>
    let e := 0x40 + 16 * i
    (leAt body (e + 8) 2, (body.drop (leAt body e 4)).take (min 0x100000 (leAt body (e + 4) 4))))

/-- Load a section into bank `b` of cluster g and check it there (R56, R362). -/
def State.loadSection (s : State) (g b : Nat) (bytes : List Byte) : State × Verdict :=
  let s1 := { s with banks := s.banks.writeBytes (bankBase g b) bytes }
  (s1, s1.checkBank g b)

/-- A firmware image: VERSION, ROLLBACK, and the outcome of its checks (R364, R365): 0, 6 FORMAT, 7 SIGNATURE, 10 ROLLBACK. LENGTH
counts the header and the body, which follows the signature block. -/
def fwCheck (floor : Nat) (bs : List Byte) : FwImage × Nat :=
  let len := leAt bs 0x10 4
  let file := bs.take (len + 128)
  let covered := file.take 128 ++ file.drop 256
  let img : FwImage := ⟨leAt bs 8 4 % 2 ^ 24, leAt bs 0xC 2, file⟩
  (img,
    if leAt bs 0 4 != 0x57464243 || leAt bs 4 4 != 0x5120 || len < 128 || 2 ^ 21 - 128 < len || bs.length < len + 128 ||
        crc32c (zeroedAt covered 0x7C len) != leAt bs 0x7C 4 then 6
    else if !blockOk bs 128 0x53464243 covered (fun i => some (Config.fuseKey i)) then 7
    else if img.rollback < floor then 10 else 0)

/-- The rollback floor (R364). -/
def State.rollbackFloor (s : State) : Nat := max Config.fusedFloor s.nor.rollback

/-- Bytes of sequence memory as Cobbler reads them; zeros outside ACTIVE (R375). -/
def State.areaBytes (s : State) (a n : Nat) : List Byte :=
  if s.dramActive then s.seqMem.readBytes a n else List.replicate n 0

end Sys2Proof.Machine
end

