-- ==== Sys2Proof/Machine/Cobbler.lean ====
section
/-!
DEFINITION. The meanings of the rows of chapter 17: mailbox commands, takeovers, sensors, the mirror of the event log. Every mailbox
row is a write of MBX_GO with GO = 1 while the request area holds that command; it runs to its end at once.
-/

namespace Sys2Proof.Machine

/-! ### The mailbox (R356 to R358) -/

/-- Word k of the request area. -/
def State.reqWord (s : State) (k : Nat) : Nat := s.cob.req.readLE (4 * k) 4
/-- Argument k. -/
def State.arg (s : State) (k : Nat) : Nat := s.reqWord (k + 2)
/-- ARG_BYTES. -/
def State.argBytes (s : State) : Nat := s.reqWord 1 % 2 ^ 16
/-- Bytes of the arguments. -/
def State.args (s : State) : List Byte := s.cob.req.readBytes 8 (min 4088 s.argBytes)

/-- What a command answers: the state it leaves, STATUS, response data. -/
abbrev Reply := State × Nat × List Byte

/-- A refusal with a status: nothing changes (R358). -/
def State.deny (s : State) (status : Nat) : Reply := (s, status, [])
def State.okay (s : State) : Reply := (s, 0, [])
/-- Write the response (R356, R357): header words and data; every command clears the nonce (R361). DONE raises vector 4. -/
def State.respond (s : State) (status : Nat) (data : List Byte) : State :=
  let w0 := s.reqWord 0
  let hdr := leBytes w0 4 ++ leBytes (status + 2 ^ 16 * data.length) 4
  let s1 := { s with cob := { s.cob with resp := Mem.writeBytes [] 0 (hdr ++ data) } }
  s1.withVec 4 (fun t => t.raise MBX_STAT fMBX_STAT_DONE)

/-- Firmware runs. -/
def State.busy (s : State) : Bool := s.bit MBX_STAT fMBX_STAT_BUSY

/-- A command that changed NOR, or an update's outcome, in the event log (Table 17-4). -/
def State.logCob (s : State) (cmd status : Nat) : State := s.logEv 0xA 0 (if status = 0 then 0 else 2) 0 cmd status

/-- Run one mailbox command: ignored while BUSY, with OVERRUN (R349, R357); no event where the request is for another command.
`nor` marks the commands that change NOR. -/
def State.command (s : State) (cmd : Nat) (nor : Bool) (run : State → Reply) : Out :=
  if s.busy then .next (s.raise MBX_STAT fMBX_STAT_OVERRUN)
  else if s.reqWord 0 % 2 ^ 16 != cmd then .next s
  else
    let (t, st, data) := run s
    let t1 := if cmd = 0x28 then t else { t with cob := { t.cob with nonce := none } }
    let t2 := if nor && (st = 0 || cmd = 0x30) then t1.logCob cmd st else t1
    .next (t2.respond st data)

/-- Check the length of the arguments and a condition on them (Table 17-7: BAD_LEN, BAD_ARG). -/
def State.checkArgs (s : State) (len : Nat) (ok : Bool) (run : Reply) : Reply :=
  if s.argBytes != len then s.deny 2 else if !ok then s.deny 3 else run

/-- Check an area of sequence memory (Table 17-7: ADDR, ECC). An uncorrectable error is reported as every one of its memory is (R387), at an
address of the area that the row does not give: that one is open (DEDUCED: R358 keeps the registers from the command; the error is the
memory's event; assumption 35). -/
def State.checkArea (s : State) (f : MbxFault) (run : List Byte → Reply) : Reply :=
  let a := s.arg 0
  let n := s.arg 1
  if a % 64 != 0 || 2 ^ 32 < a + n then s.deny 4
  else if f = .ecc then
    let (w, s1) := s.free
    (s1.eccUe 5 0 (a + w.toNat % n), 5, [])
  else run (s.areaBytes a n)

/-- End a command that writes NOR: FLASH where the write fails verification. -/
def State.flash (s : State) (f : MbxFault) (run : Reply) : Reply := if f = .flash then s.deny 0xB else run

/-- A reserved code, or a code of no other row: BAD_CMD (R357); the rest of a write of MBX_GO. -/
def State.badCommand (s : State) : State :=
  if s.busy then s.raise MBX_STAT fMBX_STAT_OVERRUN
  else
    let known := [0x1, 0x2, 0x3, 0x4, 0x10, 0x20, 0x21, 0x28, 0x29, 0x2A, 0x2B, 0x30, 0x31, 0x40, 0x41, 0x42, 0x50]
    if known.contains (s.reqWord 0 % 2 ^ 16) then s
    else { s with cob := { s.cob with nonce := none } }.respond 1 []

/-- A write of a register with no row of its own (R15, R36, R38, R61). A write of MBX_GO whose request names no command of the table is one
too (R357). -/
def State.writeReg (s : State) (addr : Nat) (data : Word) (be : Nat) (rq : WriteReq) : Out :=
  if addr / 4 * 4 = MBX_GO && be.testBit 0 && data.getLsbD 0 then .next s.badCommand else registerWrite addr data be rq.req rq.same s

/-- REGISTER_WRITE: the host writes a register (R313). -/
def execRegisterWrite (addr : Nat) (data : Word) (be : Nat) (rq : WriteReq) (s : State) : Out :=
  s.memWrite rq.req addr (fun s => s.writeReg addr data be rq)

/-- MAILBOX_REQUEST_WRITE (R357): a write of a word of the request area, at BAR4 offset `addr`. -/
def execMailboxRequestWrite (addr : Nat) (data : Word) (be : Nat) (s : State) : Out := s.memWriteOpen addr fun s =>
  let a := addr / 4 * 4
  if a < 0x100 || 0x1100 ≤ a then .next s
  else if s.busy then .next (s.raise MBX_STAT fMBX_STAT_OVERRUN)
  else
    let o := a - 0x100
    let bytes := (List.range 4).map (fun i => if be.testBit i then BitVec.ofNat 8 (data.toNat / 256 ^ i) else s.cob.req.read (o + i))
    .next { s with cob := { s.cob with req := s.cob.req.writeBytes o bytes } }

/-! ### Information and sensors (R350 to R352) -/

/-- HUB_FW of an image. -/
def fwWord (slot : Nat) (f : Option FwImage) : Nat := match f with | some i => i.version + 2 ^ 24 * slot | none => 0
/-- The image in a slot. -/
def State.fwSlot (s : State) (i : Nat) : Option FwImage := if i = 0 then s.nor.fw.1 else s.nor.fw.2

/-- GET_INFO (Table 17-6). -/
def execGetInfo (s : State) : Out := s.command 1 false fun s => s.checkArgs 0 true
  (s, 0, leBytes (fwWord 0 (s.fwSlot 0)) 4 ++ leBytes (fwWord 1 (s.fwSlot 1)) 4 ++ leBytes s.rollbackFloor 4 ++
    leBytes (s.rd MBX_CORE).toNat 4 ++ leBytes s.hours 4)

/-- Nominal of a rail sensor in units of 0.25 mV; 0 for a temperature (Table 17-2). -/
def railNominal (i : Nat) : Int :=
  if i < 20 then 0 else if i < 25 then 3000 else if i < 30 then 7200 else if i < 34 then 20000 else if i < 39 then 7200
  else if i < 41 then 4200 else if i < 43 then 2000 else 7200

/-- ACT at reset (Table 17-2). -/
def sensorAct (i : Nat) : Bool := i < 24 || (25 ≤ i && i < 29) || (30 ≤ i && i < 34)

/-- A sensor at reset (R351). Its reading is the nominal until a conversion. -/
def sensorReset (i : Nat) : SensorSt :=
  let n := railNominal i
  if i < 20 then ⟨-320, 840, -400, 960, true, 0, {}, {}, {}, {}⟩
  else ⟨n - n / 20, n + n / 20, n - n / 10, n + n / 10, sensorAct i, n, {}, {}, {}, {}⟩

/-- The sensor is in warning, high or low. -/
def SensorSt.warn (x : SensorSt) : Bool := x.wHi.on || x.wLo.on
/-- The sensor is in alarm, high or low. -/
def SensorSt.alarm (x : SensorSt) : Bool := x.aHi.on || x.aLo.on

/-- Scope of a sensor as a mask of clusters (Table 17-2). -/
def sensorScope (i : Nat) : Nat :=
  let tile (t : Nat) : Nat := 15 * 16 ^ t
  if i < 16 then tile (i / 4)
  else if 20 ≤ i && i < 24 then tile (i - 20)
  else if 25 ≤ i && i < 29 then tile (i - 25)
  else if 30 ≤ i && i < 34 then tile (i - 30)
  else if 34 ≤ i && i < 38 then tile (i - 34)
  else 0xFFFF

def State.sensor (s : State) (i : Nat) : SensorSt := SMap.get (sensorReset i) s.cob.sensors i
def State.setSensor (s : State) (i : Nat) (x : SensorSt) : State :=
  { s with cob := { s.cob with sensors := SMap.set (sensorReset i) s.cob.sensors i x } }

/-- MBX_ENV.ALARMED: the scopes of the sensors in alarm with ACT = 1. -/
def State.refreshAlarmed (s : State) : State :=
  s.setFld MBX_ENV fMBX_ENV_ALARMED (((List.range 44).filter (fun i => (s.sensor i).alarm && (s.sensor i).act)).foldl
    (fun m i => m ||| sensorScope i) 0)

/-- GET_SENSORS (Table 17-6). -/
def execGetSensors (s : State) : Out := s.command 2 false fun s => s.checkArgs 0 true
  (s, 0, (List.range 44).flatMap (fun i => leBytes ((s.sensor i).reading % 2 ^ 16).toNat 2) ++
    (List.range 44).map (fun i => BitVec.ofNat 8 ((s.sensor i).warn.toNat + 2 * (s.sensor i).alarm.toNat)))

/-- SET_THRESH (R351). -/
def execSetThresh (s : State) : Out := s.command 3 false fun s =>
  let a := s.arg 0
  let i := a % 256
  s.checkArgs 12 (decide (i < 44) && decide (a < 2 ^ 9)) <|
    let rdg (x : Nat) : Int := if i < 20 then signed 16 x else ((x % 2 ^ 16 : Nat) : Int)
    ((s.setSensor i { s.sensor i with
        act := a.testBit 8
        warnLo := rdg (s.arg 1)
        warnHi := rdg (s.arg 1 / 2 ^ 16)
        alarmLo := rdg (s.arg 2)
        alarmHi := rdg (s.arg 2 / 2 ^ 16) }).refreshAlarmed).okay

/-- Release ENV on the channels of a set of clusters at the next tick (R352). -/
def State.envRelease (s : State) (m : Nat) : State :=
  let s1 := s.over ((allClu.filter (m.testBit ·)).flatMap chansOf) (fun t n => t.after (t.tick + 1) (.hold n srcEnv false))
  s1.setFld MBX_ENV fMBX_ENV_HELD (s.fld MBX_ENV fMBX_ENV_HELD &&& (0xFFFF - m))

/-- ENV_RELEASE (R352): refused for clusters with an alarm in scope (PARTIAL); the others are released (DEDUCED: R352 refuses cluster by
cluster, where R358 keeps every register on a status other than OK; assumption 35). -/
def execEnvRelease (s : State) : Out := s.command 4 false fun s =>
  let m := s.arg 0
  s.checkArgs 4 (decide (m < 2 ^ 16)) <|
    let al := s.fld MBX_ENV fMBX_ENV_ALARMED
    let go := m &&& s.fld MBX_ENV fMBX_ENV_HELD &&& (0xFFFF - al)
    (s.envRelease go, if m &&& al = 0 then 0 else 0xF, leBytes go 4)

/-- A reading of one level (R351): entered after four beyond the threshold, left after four back inside it by the margin. -/
def LevelSt.read (l : LevelSt) (beyond inside : Bool) : LevelSt :=
  let o := if beyond then min 4 (l.out + 1) else 0
  let b := if inside then min 4 (l.back + 1) else 0
  ⟨o, b, if l.on then b != 4 else o == 4⟩

/-- A new reading of a sensor (R351): each threshold has its level. -/
def SensorSt.read (x : SensorSt) (i : Nat) (r : Int) : SensorSt :=
  let margin := if i < 20 then 16 else railNominal i / 100
  let hi (l : LevelSt) (th : Int) : LevelSt := l.read (decide (th < r)) (decide (r ≤ th - margin))
  let lo (l : LevelSt) (th : Int) : LevelSt := l.read (decide (r < th)) (decide (th + margin ≤ r))
  { x with reading := r, wHi := hi x.wHi x.warnHi, wLo := lo x.wLo x.warnLo, aHi := hi x.aHi x.alarmHi, aLo := lo x.aLo x.alarmLo }

/-- Hold every cluster of a scope by ENV from the next tick (R351). -/
def State.envHold (s : State) (m : Nat) : State :=
  let s1 := s.over ((allClu.filter (m.testBit ·)).flatMap chansOf) (fun t n => t.after (t.tick + 1) (.hold n srcEnv true))
  s1.setFld MBX_ENV fMBX_ENV_HELD (s.fld MBX_ENV fMBX_ENV_HELD ||| m)

/-- A warning level of sensor i after a reading `d`: entering it sets WARN and makes an entry; leaving it makes another (R351). -/
def State.warnStep (s : State) (i d : Nat) (was now : LevelSt) : State :=
  if now.on && !was.on then (s.logEv 9 0 1 0 i d).withVec 5 (fun t => t.raise MBX_EVT_STAT fMBX_EVT_STAT_WARN)
  else if was.on && !now.on then s.logEv 9 0 1 0 i d
  else s

/-- An alarm level: entering it sets ALARM, makes an entry and, with ACT, holds the scope by ENV; leaving it makes an entry. -/
def State.alarmStep (s : State) (i d : Nat) (act : Bool) (was now : LevelSt) : State :=
  if now.on && !was.on then
    let s1 := (s.logEv 9 0 2 0 i d).withVec 5 (fun t => t.raise MBX_EVT_STAT fMBX_EVT_STAT_ALARM)
    if act then s1.envHold (sensorScope i) else s1
  else if was.on && !now.on then s.logEv 9 0 1 0 i d
  else s

/-- One sensor's conversion: levels, log entries, flags, the ENV selection. With no core running, sensor reporting stops (R31): the
reading shown and the warnings stay as they were, and only the alarms and ENV, which are hardware, go on (R351). -/
def State.convert (s : State) (i : Nat) (r : Int) : State :=
  let x := s.sensor i
  let z := x.read i r
  let y := if s.cob.up then z else { z with reading := x.reading, wHi := x.wHi, wLo := x.wLo }
  let d := (r % 2 ^ 32).toNat
  ((((s.setSensor i y).warnStep i d x.wHi y.wHi).warnStep i d x.wLo y.wLo).alarmStep i d y.act x.aHi y.aHi).alarmStep i d y.act
    x.aLo y.aLo

/-- SENSOR_CONVERSION (R350, R351): once a millisecond; a sensor that the readings do not name reads as before. -/
def execSensorConversion (readings : List (Nat × Int)) (s : State) : Out :=
  if (s.tick + 1) % 2000 != 0 then .next s
  else .next ((List.range 44).foldl (fun t i =>
    t.convert i (((readings.find? (fun x => x.1 == i)).map (·.2)).getD (t.sensor i).reading)) s).refreshAlarmed

/-! ### The event log (R353, R354) -/

/-- The 32 bytes of an entry (Table 17-3). -/
def LogEntry.bytes (e : LogEntry) : List Byte :=
  let b := leBytes (e.bit + 2 ^ 8 * e.src + 2 ^ 16 * e.sev) 4 ++ leBytes e.seq 4 ++ leBytes e.stamp 8 ++ leBytes e.addr 4 ++
    leBytes e.d0 4 ++ leBytes e.d1 4
  b ++ leBytes (crc32c b) 4

/-- Store a new SEQ ceiling if an entry about to leave the RAM ring is not below the stored one (R353). -/
def State.raiseCeiling (s : State) (seq : Nat) : State :=
  if s.log.ceiling ≤ seq then { s with log := { s.log with ceiling := s.log.seq + 65536 } } else s

/-- LOG_READ (Table 17-6). -/
def execLogRead (s : State) : Out := s.command 0x10 false fun s =>
  let n := s.arg 2
  s.checkArgs 12 (decide (s.arg 0 < 2) && decide (1 ≤ n) && decide (n < 256)) <|
    let from_ := if s.arg 0 = 0 then s.log.ring else s.log.nor
    let es := (from_.reverse.filter (fun e => decide (s.arg 1 ≤ e.seq))).take n
    (es.foldl (fun t e => t.raiseCeiling e.seq) s, 0, es.flatMap LogEntry.bytes)

/-- Write an entry into the NOR ring; a full ring first loses the 2,048 entries of its oldest sector. -/
def State.mirrorOne (s : State) (e : LogEntry) : State :=
  let t := s.raiseCeiling e.seq
  let old := if 131072 ≤ t.log.nor.length then t.log.nor.take (131072 - 2048) else t.log.nor
  { t with log := { t.log with nor := e :: old } }

/-- LOG_MIRROR (R354): entries not yet mirrored go to NOR, oldest first, as the rate allows (16 a second, bursts of 512); the others
count as skipped, and an entry that says so precedes the next one mirrored, which waits until the rate allows both. -/
def execLogMirror (s : State) : Out :=
  if !s.cob.up || s.log.unmirrored = 0 then .next s
  else
    let credit := min 64000000 (s.cob.credit + (s.tick - s.cob.creditAt))
    let here := min s.log.unmirrored s.log.ring.length
    let skipped := s.log.skipped + (s.log.unmirrored - here)
    let gap := skipped != 0 && 250000 ≤ credit
    let room := if skipped != 0 && !gap then 0 else credit / 125000 - gap.toNat
    let es := ((s.log.ring.take here).reverse).take room
    let s1 := if gap then
        let t := s.logEv 0xA 1 1 0 skipped 0
        match t.log.ring.head? with
        | some e => t.mirrorOne e
        | none => t
      else s
    let s2 := es.foldl (fun t e => t.mirrorOne e) s1
    let left := here - es.length
    .next { s2 with
      log := { s2.log with unmirrored := 0, skipped := if es.isEmpty then skipped + left else left }
      cob := { s2.cob with credit := credit - 125000 * (es.length + gap.toNat), creditAt := s.tick } }

/-! ### Structure images (R362, R363) -/

/-- A named cluster's part of SEALED_LOAD: the state and its response byte. -/
def State.sealOne (s : State) (secs : List (Nat × List Byte)) (g : Nat) : State × Nat :=
  let mine := secs.filter (fun x => x.1.testBit g)
  if mine.isEmpty then (s, 0xFF)
  else if s.tileGone (g / 4) then (s, 0xFD)
  else if s.bankPending g then (s, 0xFE)
  else mine.foldl (fun (acc : State × Nat) x =>
    let (t, v) := (acc.1.stbyCode g 0).loadSection g (acc.1.stbyBank g) x.2
    ((t.checked g v).cluEvent g fCLU_INT_STAT_VALIDATED, v.code)) (s, 0xFF)

/-- SEALED_LOAD (R362). -/
def execSealedLoad (f : MbxFault) (s : State) : Out := s.command 0x20 false fun s =>
  let m := s.arg 2
  s.checkArgs 12 (decide (m < 2 ^ 16)) <| s.checkArea f fun bs =>
    let st := s.fileCheck s.polSigned bs
    if st = 7 then
      ((allClu.filter (fun g => m.testBit g && !s.tileGone (g / 4))).foldl
        (fun t g => t.updStat g fCLU_BANK_STAT_CODE 0x1D) s, 7, [])
    else if st != 0 then s.deny st
    else
      let secs := fileSections bs
      let (t, codes) := allClu.foldl (fun (acc : State × List Byte) g =>
        if m.testBit g then
          let (u, c) := acc.1.sealOne secs g
          (u, acc.2 ++ [BitVec.ofNat 8 c])
        else (acc.1, acc.2 ++ [0xFF])) (s, [])
      (t, 0, codes)

/-- STRUCT_STORE (R363): each of the two copies takes half of the 16 MiB region. -/
def execStructStore (f : MbxFault) (s : State) : Out := s.command 0x21 true fun s =>
  s.checkArgs 8 true <| s.checkArea f fun bs =>
    let st := s.fileCheck s.polSigned bs
    if st != 0 then s.deny st
    else if 2 ^ 23 < bs.length then s.deny 6
    else s.flash f <|
      let (c, _) := storeCopy StructFile.gen s.nor.struct_ (fun g => ⟨g, bs⟩)
      { s with nor := { s.nor with struct_ := c } }.okay

/-! ### Keys and policy (R359 to R361) -/

/-- GET_NONCE (R361): 16 open bytes, valid for 60 s. -/
def execGetNonce (s : State) : Out := s.command 0x28 false fun s =>
  if s.argBytes != 0 then ({ s with cob := { s.cob with nonce := none } }, 2, [])
  else
    let (h, s1) := s.freeTlp
    let n := leBytes h.h0.toNat 4 ++ leBytes h.h1.toNat 4 ++ leBytes h.h2.toNat 4 ++ leBytes h.h3.toNat 4
    ({ s1 with cob := { s1.cob with nonce := some (n, s.tick + 120000000) } }, 0, n)

/-- NONCE_EXPIRY (R361). -/
def execNonceExpiry (s : State) : Out :=
  match s.cob.nonce with
  | some (_, e) => if e ≤ s.tick + 1 then .next { s with cob := { s.cob with nonce := none } } else .next s
  | none => .next s

/-- Check the signed tail, the last 100 bytes of the arguments (R361): 0, or KEY_SLOT, NONCE, SIGNATURE. -/
def State.tailCheck (s : State) : Nat :=
  let a := s.args
  let n := a.length - 100
  match s.userKey (leAt a n 4 % 4), s.cob.nonce with
  | none, _ => 8
  | some _, none => 9
  | some k, some (nonce, e) =>
    if e ≤ s.tick then 9
    else
      let msg := nonce ++ leBytes Config.uid.toNat 8 ++ leBytes (s.reqWord 0 % 2 ^ 16) 2 ++ a.take n
      if ecdsaOk k (sha384 msg) (beAt a (n + 4) 48) (beAt a (n + 52) 48) then 0 else 7

/-- The signing slot of the tail. -/
def State.tailSlot (s : State) : Nat := leAt s.args (s.args.length - 100) 4

/-- Slots that hold a key. -/
def State.keySlots (s : State) : List Nat := (List.range 4).filter (fun i => (s.userKey i).isSome)

/-- Put a key into a slot, or empty it, in NOR and in force. -/
def State.setKey (s : State) (i : Nat) (k : Option (List Byte)) : State :=
  { s with
    nor := { s.nor with keys := SMap.set none s.nor.keys i k }
    cob := { s.cob with keys := SMap.set none s.cob.keys i k } }

/-- KEY_ENROL (R359, R360). -/
def execKeyEnrol (f : MbxFault) (s : State) : Out := s.command 0x29 true fun s =>
  let a := s.args
  let key := (a.drop 4).take 96
  let body : Reply :=
    if (s.userKey (s.arg 0)).isSome then s.deny 8 else s.flash f ((s.setKey (s.arg 0) (some key)).okay)
  if s.argBytes != 100 && !(s.polSigned && s.argBytes = 200) then s.deny 2
  else if 4 ≤ s.arg 0 || !onCurve (keyPoint key).1 (keyPoint key).2 || (s.argBytes = 200 && 4 ≤ s.tailSlot) then s.deny 3
  else if s.polSigned && s.argBytes = 100 then s.deny 7
  else if s.polSigned && s.tailCheck != 0 then s.deny s.tailCheck
  else body

/-- KEY_REVOKE (R360, R361). -/
def execKeyRevoke (f : MbxFault) (s : State) : Out := s.command 0x2A true fun s =>
  let i := s.arg 0
  if s.argBytes = 4 then s.deny 7
  else s.checkArgs 104 (decide (i < 4) && decide (s.tailSlot < 4)) <|
    if !s.keySlots.contains i then s.deny 8
    else if s.tailSlot = i && 1 < s.keySlots.length then s.deny 3
    else if s.polSigned && s.keySlots.length = 1 then s.deny 0xD
    else if s.tailCheck != 0 then s.deny s.tailCheck
    else s.flash f ((s.setKey i none).okay)

/-- SET_POLICY (R360). -/
def execSetPolicy (f : MbxFault) (s : State) : Out := s.command 0x2B true fun s =>
  let v := s.arg 0
  let clear := s.polSigned && v = 0
  let set (b : Bool) : Reply := s.flash f ({ s with polSigned := b, nor := { s.nor with polSigned := b } }.okay)
  if clear && s.argBytes = 4 then s.deny 7
  else s.checkArgs (if clear then 104 else 4) (decide (v < 2) && (!clear || decide (s.tailSlot < 4))) <|
    if v = 1 && s.keySlots.isEmpty then s.deny 0xD
    else if clear && s.tailCheck != 0 then s.deny s.tailCheck
    else set (v = 1)

/-! ### Cores and firmware (R347 to R349, R364, R365) -/

/-- Slot of the running image. -/
def State.runImage (s : State) : Nat := s.fld HUB_FW fHUB_FW_IMAGE
/-- Standby state (MBX_CORE): 0 LOADING, 1 READY, 2 FAILED. -/
def State.stby (s : State) : Nat := s.fld MBX_CORE fMBX_CORE_STBY_STATE
/-- HUB_FW shows an image. -/
def State.showFw (s : State) (slot : Nat) : State := s.wr HUB_FW (BitVec.ofNat 32 (fwWord slot (s.fwSlot slot) % 2 ^ 24 + 2 ^ 24 * slot))

/-- The standby takes over on its image, with which the former active core is loaded (R348): TAKEOVERS, log entry, MBX_EVT_STAT.TAKEOVER; unplanned it also raises FAULT_N
(Table 19-3). -/
def State.takeover (s : State) (planned : Bool) : State :=
  let core := 1 - s.fld MBX_CORE fMBX_CORE_ACTIVE
  let s1 := (s.setFld MBX_CORE fMBX_CORE_ACTIVE core).incSat MBX_CORE fMBX_CORE_TAKEOVERS
  let s2 := ({ s1 with cob := { s1.cob with probation := none } }.setBit MBX_CORE fMBX_CORE_PROBATION false).showFw s.cob.stbyImage
  let s3 := (s2.logEv 0xA 3 (if planned then 0 else 3) MBX_EVT_STAT core 0).withVec 5
    (fun t => t.raise MBX_EVT_STAT fMBX_EVT_STAT_TAKEOVER)
  let s4 := s3.setFld MBX_CORE fMBX_CORE_STBY_STATE 0
  let s5 := if s.cob.probation.isSome then s4.logCob 0x30 0xE else s4
  if planned then s5 else s5.raiseFault 15

/-- CORE_SWITCH (R348). -/
def execCoreSwitch (s : State) : Out := s.command 0x31 false fun s =>
  s.checkArgs 0 true (if s.stby != 1 then s.deny 0xC else (s.takeover true).okay)

/-- FW_UPDATE (R365). -/
def execFwUpdate (f : MbxFault) (s : State) : Out := s.command 0x30 true fun s =>
  let o := s.arg 2
  s.checkArgs 12 (decide (o < 4)) <| s.checkArea f fun bs =>
    let (img, st) := fwCheck s.rollbackFloor bs
    if st != 0 then s.deny st
    else s.flash f <|
      let slot := 1 - s.runImage
      let fw := if slot = 0 then (some img, s.nor.fw.2) else (s.nor.fw.1, some img)
      let s1 := { s with nor := { s.nor with fw } }
      let s2 := if o.testBit 1 then { s1 with nor := { s1.nor with fwDefault := slot, rollback := img.rollback } } else s1
      if !o.testBit 0 then s2.okay
      else if s.stby != 1 then (s2, 0xC, [])
      else
        let old := s.runImage
        let s3 := ({ s2 with cob := { s2.cob with stbyImage := slot } }.takeover true).setFld MBX_CORE fMBX_CORE_STBY_STATE 1
        ({ s3 with cob := { s3.cob with stbyImage := old, probation := some (s.tick + 120000000) } }.setBit MBX_CORE
          fMBX_CORE_PROBATION true).okay

/-- PROBATION_END (R365): 60 s have passed; the old core is reloaded with the new image. -/
def execProbationEnd (s : State) : Out :=
  match s.cob.probation with
  | some e =>
    if s.tick + 1 < e then .next s
    else
      let s1 := { s with cob := { s.cob with probation := none, stbyImage := s.runImage } }
      .next ((s1.setBit MBX_CORE fMBX_CORE_PROBATION false).setFld MBX_CORE fMBX_CORE_STBY_STATE 1)
  | none => .next s

/-- The NOR write that the command in the request area had begun is cut short (R349): the copy it was writing, or the image in the slot,
is not valid. -/
def State.tearStore (s : State) : State :=
  let n := s.nor
  let cmd := s.reqWord 0 % 2 ^ 16
  { s with nor :=
      if cmd = 0x40 then { n with safe := tearCopy SafeTable.gen n.safeCopies }
      else if cmd = 0x41 then { n with cal := tearCopy CalTable.gen n.calCopies }
      else if cmd = 0x21 then { n with struct_ := tearCopy StructFile.gen n.struct_ }
      else if cmd = 0x30 then { n with fw := if s.runImage = 0 then (n.fw.1, none) else (none, n.fw.2) }
      else n }

/-- An unplanned trigger (R348, R349): the READY standby takes over, and a running command ends ABANDONED; with none, Cobbler is
left without a running core. A write of NOR that it had begun is cut short. An ABANDONED command that had begun to change NOR, or an
update, leaves its event log entry (Table 17-9). -/
def State.coreLost (s0 : State) (work : CoreWork) : Out :=
  let s := if s0.cob.up && work == .store then s0.tearStore else s0
  if !s.cob.up then .next s
  else if s.stby != 1 then
    .next ({ s with cob := { s.cob with up := false } }.setBit MBX_STAT fMBX_STAT_BUSY true)
  else
    let s0 := s.takeover false
    let cmd := s.reqWord 0 % 2 ^ 16
    let s1 := if work == .store || (work == .command && cmd = 0x30) then s0.logCob cmd 0xE else s0
    .next (if work != .idle then { s1 with cob := { s1.cob with nonce := none } }.respond 0xE [] else s1)

/-- HEARTBEAT_MISS (R348). -/
def execHeartbeatMiss (work : CoreWork) (s : State) : Out := s.coreLost work

/-- CORE_EXCEPTION (R348). -/
def execCoreException (work : CoreWork) (s : State) : Out := s.coreLost work

/-- STANDBY_READY (R347, R348): the loading standby has passed its self-test, or failed it. -/
def execStandbyReady (ok : Bool) (s : State) : Out :=
  if s.cob.up && s.stby = 0 then .next (s.setFld MBX_CORE fMBX_CORE_STBY_STATE (if ok then 1 else 2)) else .next s

/-! ### Stores (R366) -/

/-- SAFE_STORE (R366, R210). -/
def execSafeStore (f : MbxFault) (s : State) : Out := s.command 0x40 true fun s =>
  s.checkArgs 0 true <| s.flash f <|
    let (t, g) := s.storeSafe
    (t, 0, leBytes g 4)

/-- CAL_STORE (R366, R308). -/
def execCalStore (f : MbxFault) (s : State) : Out := s.command 0x41 true fun s =>
  s.checkArgs 0 true <| s.flash f <|
    let (t, g) := s.storeCal
    (t, 0, leBytes g 4)

/-- CAL_RESTORE (R366). -/
def execCalRestore (s : State) : Out := s.command 0x42 false fun s =>
  let w := s.arg 0
  s.checkArgs 4 (decide (w < 3)) <|
    match (if w = 0 then s.nor.calTable else if w = 1 then s.nor.calCopies.1 else s.nor.calCopies.2) with
    | none => s.deny 6
    | some x => (s.restoreCal x, 0, leBytes x.gen 4)

/-- SET_SUBSYS (R366). -/
def execSetSubsys (f : MbxFault) (s : State) : Out := s.command 0x50 true fun s =>
  s.checkArgs 4 true <| s.flash f { s with nor := { s.nor with subsys := BitVec.ofNat 32 (s.arg 0) } }.okay

/-- CAL_AUTOSTORE (R308): once every 24 h of power-on time. -/
def execCalAutostore (s : State) : Out :=
  if s.cob.up && s.bit CAL_CTL fCAL_CTL_AUTOSTORE && s.hours % 24 = 0 && s.hours != s.cob.storeHours then
    .next { s.storeCal.1 with cob := { s.cob with storeHours := s.hours } }
  else .next s

end Sys2Proof.Machine
end

