-- ==== Sys2Proof/Machine/Skid.lean ====
section
/-!
DEFINITION. The meanings of the rows of chapter 16: positions, ports, frames, halt and fault sets, violations.
-/

namespace Sys2Proof.Machine

/-! ### Frames and ordered sets on the wire (R335, Tables 16-2, 16-3) -/

/-- One bit of CRC-16: polynomial 0x1021, not reflected. -/
def crc16Bit (c : Nat) : Nat := if 0x8000 ≤ c then (2 * c ^^^ 0x1021) % 0x10000 else 2 * c
/-- One byte. -/
def crc16Byte (c : Nat) (b : Byte) : Nat :=
  crc16Bit (crc16Bit (crc16Bit (crc16Bit (crc16Bit (crc16Bit (crc16Bit (crc16Bit (c ^^^ (b.toNat * 256)))))))))
/-- CRC-16 of a byte string: initial value 0xFFFF, no final XOR. -/
def crc16 (bs : List Byte) : Nat := bs.foldl crc16Byte 0xFFFF

/-- TYPE of a frame; 0 for an ordered set. -/
def SklMsg.type : SklMsg → Nat
  | .time _ _ _ => 1
  | .share _ => 2
  | .sum _ => 3
  | .nack _ _ => 4
  | .enum _ => 5
  | .release _ => 6
  | .haltSet _ | .faultSet _ => 0

/-- The payload's fields, as bytes 2 and on; the rest is 0. -/
def SklMsg.payload : SklMsg → List Byte
  | .time p offset mstate => leBytes p 12 ++ leBytes (offset % 2 ^ 9 + 2 ^ 9 * (mstate % 8)) 2
  | .share es => (es.take 2).flatMap (fun e => leBytes ((e.sample % 2 ^ 32).toNat + 2 ^ 32 * (e.gang % 256) +
      2 ^ 40 * (e.leader % 512) + 2 ^ 49 * (e.range % 8) + 2 ^ 52) 8)
  | .sum es => (es.take 2).flatMap (fun e => leBytes ((e.sum % 2 ^ 40).toNat + 2 ^ 40 * (e.gang % 256) +
      2 ^ 48 * (e.count % 128) + 2 ^ 55) 8)
  | .nack kind seq => leBytes kind 1 ++ leBytes seq 1
  | .enum e => leBytes (e.pos % 8 + 8 * e.last.toNat + 16 * e.strap.toNat) 1 ++ leBytes e.len 1 ++ leBytes e.uid 8 ++
      leBytes e.silicon 1
  | .release stamp => leBytes stamp 8
  | .haltSet _ | .faultSet _ => []

/-- The 20 bytes of a frame; even bytes go on lane A, odd ones on lane B. -/
def SklSent.bytes (x : SklSent) : List Byte :=
  let body := leBytes (x.msg.type + 16 * (x.src % 8)) 1 ++ leBytes x.seq 1 ++ x.msg.payload
  let whole := body ++ List.replicate (18 - body.length) 0
  whole ++ leBytes (crc16 whole / 256) 1 ++ leBytes (crc16 whole) 1

/-- The data byte of an ordered set: the originating position, and KIND 1 for HALT, 2 for FAULT (R340, R342). -/
def SklMsg.setByte : SklMsg → Option Nat
  | .haltSet o => some (o % 8 + 8)
  | .faultSet o => some (o % 8 + 16)
  | _ => none

/-! ### Violations (R345) -/

/-- A violation of kind `kd` in a frame from a port: counted, answered once a period, logged once in 65,536 periods. -/
def State.violation (s : State) (dn : Bool) (kd seq : Nat) : State :=
  let s1 := (s.incSat (if dn then SKL_ERR_DN else SKL_ERR_UP) ⟨4 * (kd - 1), 4⟩).sklEvent fSKL_INT_STAT_ERR
  let sent := if dn then s1.skl.nackDn else s1.skl.nackUp
  let s2 := if sent || !s1.bit SKL_CTL fSKL_CTL_EN then s1
    else (s1.sendOwn dn (.nack kd seq)).updSkl (fun k => if dn then { k with nackDn := true } else { k with nackUp := true })
  let key := 2 * kd + dn.toNat
  let last := SMap.get 0 s2.skl.logAt key
  if last = 0 || last + 65536 ≤ s.tick + 1 then
    (s2.updSkl (fun k => { k with logAt := SMap.set 0 k.logAt key (s.tick + 1) })).logEv 8 2 1 SKL_INT_STAT dn.toNat kd
  else s2

/-- Forward a frame out of the other port (R336). -/
def State.forward (s : State) (h : SklHdr) (stomped : Bool) (m : SklMsg) : State :=
  if s.part then s.sendFrame (!h.dn) h.src stomped m else s

/-- The kind of violation in a frame (Table 16-5), 0 where there is none: what the receiver finds on the wire, SEQ, and `extra`, which the
frame's type adds. -/
def State.frameKind (s : State) (h : SklHdr) (extra : Nat) : Nat :=
  let seqBad := match if h.dn then s.skl.rxDn else s.skl.rxUp with
    | some q => decide (h.seq % 256 ≠ (q + 1) % 256)
    | none => false
  if 1 ≤ h.viol && h.viol ≤ 4 then h.viol else if seqBad then 5 else extra

/-- Receive a frame. A stomped frame is dropped without an answer; a good one is forwarded and given to `f`. -/
def State.receive (s : State) (h : SklHdr) (m : SklMsg) (extra : Nat) (fwd : Bool) (f : State → State) : Out :=
  if !s.portUp h.dn then .next s
  else
    let s1 := s.updSkl (fun k => if h.dn then { k with rxDn := some (h.seq % 256) } else { k with rxUp := some (h.seq % 256) })
    let want := match if h.dn then s.skl.rxDn else s.skl.rxUp with | some q => (q + 1) % 256 | none => h.seq % 256
    if h.stomped then .next (if fwd then s1.forward h true m else s1)
    else
      let kd := s.frameKind h extra
      if kd != 0 then
        let s2 := s1.violation h.dn kd (if kd = 5 then want else h.seq % 256)
        .next (if fwd then s2.forward h true m else s2)
      else .next (f (if fwd then s1.forward h false m else s1))

/-! ### Positions and ports (R335, R337, R346) -/

/-- The device's own ENUM payload; the UID is HUB_UID. LEN is 0 until a LAST frame has given it, and known to the last device itself
(Table 16-3, R337). -/
def State.enumOf (s : State) : SklEnum :=
  let last := !s.bit SKL_STAT fSKL_STAT_DN_OK
  ⟨s.pos, last, s.bit SKL_STAT fSKL_STAT_STRAP, if last then s.pos + 1 else if s.skl.lenKnown then s.fld SKL_STAT fSKL_STAT_LEN + 1 else 0,
    Config.uid.toNat, Config.silicon⟩

/-- Take a position (R337). -/
def State.takePos (s : State) (p : Nat) (strap : Bool) : State :=
  let a := SKL_STAT
  let s1 := ((s.setFld a fSKL_STAT_POS p).setBit a fSKL_STAT_POS_VALID true).setBit a fSKL_STAT_STRAP strap
  let s2 := s1.setBit a fSKL_STAT_MASTER (p == 0)
  if s.bit a fSKL_STAT_DN_OK then s2 else s2.setFld a fSKL_STAT_LEN p

/-- A conflict: the device keeps its position, and takes no part until EN is cleared (R337). -/
def State.posConflict (s : State) (f : Fld) : State :=
  ((s.updSkl (fun k => { k with barred := true })).raise SKL_STAT f).sklEvent fSKL_INT_STAT_POS

/-- SKL_ENABLE (R337, R339): a write that sets SKL_CTL.EN, or (`en` false) clears it. -/
def execSklEnable (en : Bool) (s : State) : Out :=
  if s.bit SKL_CTL fSKL_CTL_EN = en then .next s
  else
    let s1 := (s.setBit SKL_CTL fSKL_CTL_EN en).updSkl (fun k => { k with upSeen := false, barred := false, lenKnown := false })
    if en then
      if s.bit SKL_CTL fSKL_CTL_POS_SRC then
        let p := s.fld SKL_STAT fSKL_STAT_STRAPS
        let s2 := s1.takePos p true
        .next (if p = 0 && s.portUp false then s2.posConflict fSKL_STAT_POS_CONFLICT else s2)
      else .next (if s.portUp false then s1 else s1.takePos 0 false)
    else
      let a := SKL_STAT
      let s2 := ((s1.setFld a fSKL_STAT_POS 0).setBit a fSKL_STAT_POS_VALID false).setBit a fSKL_STAT_MASTER false
      let s3 := ((s2.setBit a fSKL_STAT_STRAP false).setBit a fSKL_STAT_ALIGNED false).setFld a fSKL_STAT_LEN 0
      let was := s.chained
      let s4 := s3.updSkl (fun k => { k with lost := false, timeRun := 0, missRun := 0, master := none })
      .next (if was then s4.enterMode else s4)

/-- SKL_PORT_UP (R335, R337): ENUM goes out on both ports. -/
def execSklPortUp (dn : Bool) (s : State) : Out :=
  if s.portUp dn || s.hubTest then .next s
  else
    let s1 := (s.setBit SKL_STAT (if dn then fSKL_STAT_DN_OK else fSKL_STAT_UP_OK) true).updSkl (fun k =>
      if dn then { k with rxDn := none, lenKnown := false } else { k with rxUp := none, upSeen := false })
    .next (if !dn && s.placed && s.pos = 0 then s1.posConflict fSKL_STAT_POS_CONFLICT else s1.sendBoth (.enum s1.enumOf))

/-- SKL_PORT_DOWN (R335, R340, R346). -/
def execSklPortDown (dn : Bool) (s : State) : Out :=
  if !s.portUp dn then .next s
  else
    let s1 := ((s.setBit SKL_STAT (if dn then fSKL_STAT_DN_OK else fSKL_STAT_UP_OK) false).raise SKL_STAT
      (if dn then fSKL_STAT_DN_LOST else fSKL_STAT_UP_LOST)).sklEvent fSKL_INT_STAT_LINK
    if dn then .next (if s1.placed then s1.setFld SKL_STAT fSKL_STAT_LEN s1.pos else s1)
    else if s.bit SKL_CTL fSKL_CTL_EN && s.bit SKL_CTL fSKL_CTL_BREAK_HALT then .next ((s1.haltLatch .chain).sendHalt)
    else .next s1

/-- An ENUM contradicts the position that the device keeps (R337, Table 16-5 kind 7): one from UP does where it comes from no lower
position, or, the first since the port came up or EN was set, which is the partner's own, not from the one just above; one from DN where
it comes from no higher position. -/
def State.enumClash (s : State) (h : SklHdr) (e : SklEnum) : Bool :=
  s.placed && (if h.dn then decide (e.pos ≤ s.pos) else decide (s.pos ≤ e.pos) || (!s.skl.upSeen && decide (e.pos + 1 ≠ s.pos)))

/-- ENUM_FRAME (R337, R345). One from UP that contradicts the device's position is a violation of kind 7 and a conflict, and goes no
further; one from DN is a violation. -/
def execEnumFrame (h : SklHdr) (e : SklEnum) (s : State) : Out :=
  let clash := s.enumClash h e
  let x := s.receive h (.enum e) (if clash then 7 else 0) (!(clash && !h.dn)) (fun s =>
    let s1 := s.updSkl (fun k => { k with upSeen := k.upSeen || !h.dn, enumAt := SMap.set 0 k.enumAt (e.pos % 8) (s.tick + 1) })
    let s2 := s1.setBitAt SKL_CHAIN (e.pos % 8)
    let s3 := if e.last then (s2.setFld SKL_STAT fSKL_STAT_LEN e.pos).updSkl (fun k => { k with lenKnown := true }) else s2
    if !h.dn && !s.skl.upSeen && s.bit SKL_CTL fSKL_CTL_EN && !s.bit SKL_CTL fSKL_CTL_POS_SRC && !s.placed && !s.skl.barred then
      if 7 ≤ e.pos then s3.posConflict fSKL_STAT_OVERLONG else s3.takePos (e.pos + 1) false
    else s3)
  match x with
  | .next t => .next (if !h.dn && s.portUp false && !h.stomped && s.frameKind h (if clash then 7 else 0) = 7 then
      t.posConflict fSKL_STAT_POS_CONFLICT else t)
  | y => y

/-- ENUM_SEND (R335): every 4,096 periods, at ticks that are multiples of 4,096. -/
def execEnumSend (s : State) : Out :=
  if (s.tick + 1) % 4096 = 0 then .next (s.sendBoth (.enum s.enumOf)) else .next s

/-- SKL_PRESENT_EXPIRY: positions with no ENUM within 8,192 periods leave SKL_CHAIN. -/
def execSklPresentExpiry (s : State) : Out :=
  .next ((List.range 8).foldl (fun t p =>
    let at_ := SMap.get 0 t.skl.enumAt p
    if at_ != 0 && at_ + 8192 ≤ s.tick + 1 then
      (t.clrBitAt SKL_CHAIN p).updSkl (fun k => { k with enumAt := SMap.set 0 k.enumAt p 0 })
    else t) s)

/-! ### Time (R338, R339) -/

/-- TIME_FRAME (R338, R339): the master's P(k+2), OFFSET, and the core clock cycle of arrival. ALIGNED is set where P and the tick agree
with the master's, and no longer stands where P does not (R75). -/
def execTimeFrame (h : SklHdr) (p offset mstate cyc : Nat) (s : State) : Out :=
  let bad := h.dn || offset < 32 || (s.part && s.pos == 0)
  s.receive h (.time p (offset - 32) mstate) (if bad then 6 else 0) true (fun s =>
    if !s.part then s
    else
      let run := s.skl.timeRun + 1
      let enter := s.phState != phChain && (!s.skl.lost || 16 ≤ run)
      let s1 := s.updSkl (fun k => { k with timeRun := run, missRun := 0, lost := if enter then false else k.lost, master := some (p % 2 ^ 96) })
      let s2 := if enter then (s1.unlock.setPhState phChain).updPhase (fun x => { x with index := [] }) else s1
      let same := s2.phState == phChain && decide (s.skl.master = some s.nextP)
      let s3 := s2.updPhase (fun x => { x with chainNext := some (p % 2 ^ 96) })
      if !same then s3.setBit SKL_STAT fSKL_STAT_ALIGNED false
      else if 399 ≤ cyc + offset && cyc + offset ≤ 401 then s3.setBit SKL_STAT fSKL_STAT_ALIGNED true
      else s3)

/-- TIME_FRAME_MISS (R339): no valid TIME frame in the present period. In CHAIN the frame is replaced and counted; four in a row end
CHAIN. A device that has missed one no longer knows that it carries the master's stamp, so ALIGNED reads 0 until it is shown again (R75;
DEDUCED, assumption 34). -/
def execTimeFrameMiss (s : State) : Out :=
  if (s.part && s.pos = 0) || !s.chained || s.phase.chainNext.isSome then .next s
  else
    let m := s.skl.missRun + 1
    let s1 := (s.updSkl (fun k => { k with missRun := m, timeRun := 0, master := none })).setBit SKL_STAT fSKL_STAT_ALIGNED false
    if s.phState != phChain then .next s1
    else
      let s2 := s1.incSat SKL_TIME_MISS fWord
      if 4 ≤ m then
        let ds := s.phase.deltas
        let mean := if ds.isEmpty then s.phase.delta else ds.foldl (· + ·) 0 / ds.length
        let s3 := (s2.enterHoldover mean).updSkl (fun k => { k with lost := true })
        .next ((s3.raise SKL_STAT fSKL_STAT_CHAIN_LOST).sklEvent fSKL_INT_STAT_LINK)
      else .next s2

/-! ### Gangs (R343) -/

/-- A frame complete too late. -/
def State.lateFrame (s : State) : State := (s.incSat SKL_LATE_CNT fWord).sklEvent fSKL_INT_STAT_LATE

/-- SHARE_FRAME (R343, R141): its shares are used in the coming period. -/
def execShareFrame (h : SklHdr) (entries : List SklShare) (late : Bool) (s : State) : Out :=
  s.receive h (.share entries) 0 true (fun s =>
    if late then s.lateFrame
    else if !s.part then s
    else { s with shares := s.shares ++ entries.map (fun e => ⟨e.gang, h.src, e.leader, e.range, e.sample⟩) })

/-- SUM_FRAME (R343, R144): partial sums of the samples of the present tick. A frame that arrives after the next tick and is complete by
cycle 160 comes with that tick instead (TickIn.sums); one later than that is late. -/
def execSumFrame (h : SklHdr) (entries : List SklSum) (late : Bool) (s : State) : Out :=
  s.receive h (.sum entries) 0 true (fun s =>
    if late then s.lateFrame
    else if !s.part then s
    else { s with sums := s.sums ++ entries.map (fun e => (e.gang, e.sum, e.count)) })

/-- NACK_FRAME (R345): counted, never forwarded. -/
def execNackFrame (h : SklHdr) (s : State) : Out :=
  s.receive h (.nack 0 0) 0 false (fun s => s.incSat SKL_NACK_CNT fWord)

/-! ### Halt, fault, release (R340 to R342) -/

/-- RELEASE_FRAME (R341): the chain halt is released at the due tick of the stamp, or at tick m+2 where it is late. -/
def execReleaseFrame (h : SklHdr) (stamp : Nat) (s : State) : Out :=
  s.receive h (.release stamp) 0 true (fun s =>
    if !s.part then s
    else
      let x := stamp % 2 ^ 64
      (s.updSkl (fun k => { k with release := k.release ++ [s.sched (some x)] })).raiseIf (s.isLate x) SKL_STAT fSKL_STAT_LATE)

/-- SKL_HALT_SET (R340): a valid copy latches a chain halt and is forwarded. -/
def execSklHaltSet (dn : Bool) (origin : Fin 8) (_cyc : Nat) (s : State) : Out :=
  if !s.part || !s.portUp dn then .next s else .next ((s.haltLatch .chain).sendSet (!dn) (.haltSet origin))

/-- SKL_FAULT_SET (R342). -/
def execSklFaultSet (dn : Bool) (origin : Fin 8) (s : State) : Out :=
  if !s.part || !s.portUp dn then .next s
  else
    let s1 := ((s.setBitAt SKL_FAULT_SEEN origin).sklEvent fSKL_INT_STAT_FAULT).sendSet (!dn) (.faultSet origin)
    .next (if s.bit SKL_CTL fSKL_CTL_FAULT_PIN then s1.raiseFault 12 else s1)

/-- SKL_HALT_RELEASE (R341): this device's chain halt at tick k+2; with ALL a RELEASE frame carries that tick's stamp. A release asked for
before stands beside it. -/
def execSklHaltRelease (all : Bool) (s : State) : Out :=
  let s1 := s.updSkl (fun k => { k with release := k.release ++ [s.sched none] })
  .next (if all then s1.sendBoth (.release s.stampAfterNext) else s1)

end Sys2Proof.Machine
end

