-- ==== Sys2Proof/Machine/Power.lean ====
section
/-!
DEFINITION. Power of clusters, tiles and the DRAM (R367 to R375), supplies (R432), and the meanings of those rows of chapter 18.
-/

namespace Sys2Proof.Machine

def State.pwrSt (s : State) (g : Nat) : PwrSt := (s.cluster g).pwr
def State.updPwr (s : State) (g : Nat) (f : PwrSt → PwrSt) : State := s.updCluster g (fun c => { c with pwr := f c.pwr })
def State.setPower (s : State) (g v : Nat) : State := s.setFld (PWR_CLU_STAT g) fPWR_CLU_STAT_STATE v
def State.setTransit (s : State) (g : Nat) (b : Bool) : State := s.setBit (PWR_CLU_STAT g) fPWR_CLU_STAT_TRANSIT b
def State.transit (s : State) (g : Nat) : Bool := s.bit (PWR_CLU_STAT g) fPWR_CLU_STAT_TRANSIT

/-! ### Changes of state at tick t (Table 18-2) -/

/-- IRANGE of a range word: the lowest SHUNT bit set, 0 where none is (R160, R210). -/
def rangeOf (w : Nat) : Nat := ((List.range 6).find? (fun i => w.testBit i)).getD 0

/-- A channel as its cluster enters PARK from OFF (R160, R163, R203, R209, R215). -/
def State.parkChan (s : State) (n t : Nat) : State :=
  let w := s.fld (CH_RANGE_SAFE n) fCH_RANGE_SAFE_WORD
  let s1 := s.updRng n (fun r => { seq := r.seq, shunts := w % 64 })
  let s2 := ((s1.setFld (CH_RANGE_NOW n) fCH_RANGE_NOW_WORD w).setFld (CH_RANGE_NOW n) fCH_RANGE_NOW_IRANGE (rangeOf w)).setFld
    (CH_RANGE_NOW n) fCH_RANGE_NOW_VRANGE (w / 64 % 4)
  let switching := match (s.dac n).modeStart with | some m => decide (m ≤ t) && decide (t < m + 8) | none => false
  let s3 := (s2.setBit (CH_DAC_STAT n) fCH_DAC_STAT_HIZ switching).holdSrc n srcState
  if (s.desc n).en then s3.releaseSrc n srcDisabled else s3.holdSrc n srcDisabled

/-- OFF to PARK. -/
def State.enterPark (s : State) (g t : Nat) : State :=
  let s1 := (chansOf g).foldl (fun u n => u.parkChan n t) ((s.setPower g 1).setTransit g true)
  s1.updCluster g (fun c => { c with settling := true })

/-- PARK to IDLE. -/
def State.enterIdle (s : State) (g : Nat) : State := (s.setPower g 2).setTransit g false

/-- IDLE to RUN (R103, R133, R148). Only enabled channels start: the GUARD timer of a channel with EN = 0 is not loaded (R103, R115 leave it
open: DESIGN CHOICE, assumption 51). -/
def State.enterRun (s : State) (g : Nat) : State :=
  let s1 := (s.setPower g 3).incWrap (PWR_CLU_STAT g) fPWR_CLU_STAT_RUN_ENTRIES
  (chansOf g).foldl (fun u n =>
    let d := u.desc n
    let u1 := u.releaseSrc n srcState
    if d.en then (u1.engineEntry n).updModel n (fun m => { m with init := d.modelEn }) else u1) s1

/-- RUN to IDLE: source STATE holds, the loops stop, injection ends (R154). -/
def State.leaveRun (s : State) (g : Nat) : State :=
  (chansOf g).foldl (fun u n =>
    let i := u.inj n
    let u1 := ((u.holdSrc n srcState).updEng n (fun e => { coefPend := e.coefPend, coefLate := e.coefLate, aux := e.aux, ran := e.ran })).setCtrl n 7
    let u2 := (List.range 4).foldl (fun t k => (t.wr (LOOP_OUT n k) 0).wr (LOOP_INT n k) 0) ((u1.modelOff n).wr (CH_SLEW_NOW n) 0)
    if i.active || i.pend.isSome then (u2.injEnd n).raise (CH_INJ_STAT n) fCH_INJ_STAT_ENDED else u2) (s.setPower g 2)

/-- IDLE to PARK: what runs only in IDLE and RUN ends (R158, R186, R199, R240, R258, Table 14-6). -/
def State.leaveIdle (s : State) (g : Nat) : State :=
  let s1 := (chansOf g).foldl (fun u n =>
    let u1 := (u.aptTruncate n).rawEnd n true
    if u1.trState n = trStopped then u1 else (u1.trackEnd n).raise (SEQ_STAT n) fSEQ_STAT_ENDED) (s.setPower g 1)
  let s2 := ((s1.grpLeave (2 * g)).grpLeave (2 * g + 1)).capLeave g
  (List.range 8).foldl (fun u q => u.weltLeave (8 * g + q)) s2

/-- A channel as its cluster enters OFF (R118, R163, R212, R225). -/
def State.offChan (s : State) (n : Nat) : State :=
  let s1 := s.updChan n (fun c => { c with pg := {}, rng := { seq := c.rng.seq }, winV := {}, winI := {} })
  let s2 := (((s1.setBit (PG_STAT n) fPG_STAT_TRIPPED false).setBit (PG_STAT n) fPG_STAT_ARMED false).setBit (PG_STAT n)
    fPG_STAT_ACTIVE false).setFld (PG_STAT n) fPG_STAT_AUTO_COUNT 0
  let s3 := ((s2.setBit (CH_RANGE_STAT n) fCH_RANGE_STAT_PENDING false).setBit (CH_RANGE_STAT n) fCH_RANGE_STAT_IN_PROGRESS
    false).setFld (CH_RANGE_NOW n) fCH_RANGE_NOW_PHASE 0
  let s4 := [Win.v, Win.i].foldl (fun u w => (u.setLatch n w true false).setLatch n w false false) s3
  let s5 := ([Win.v, Win.i].foldl (fun u w => ((u.setBit (WIN_TEST_STAT n (winIx w)) fWIN_TEST_STAT_BUSY false).setFld (WIN_TEST n (winIx w))
    fWIN_TEST_MODE 0).setBit (WIN_STAT n (winIx w)) fWIN_STAT_MASKED (u.winMasked n w (40 * s.tick))) s4).setFld (PG_TRIP_SRC n)
    fPG_TRIP_SRC_NOW 0
  let s6 := { s5 with later := s5.later.filter (fun x => match x.2 with
    | .hold m b on => !(m == n && on && (b == srcTrip || b == srcLaneFail))
    | _ => true) }
  (((s6.releaseSrc n srcTrip).releaseSrc n srcLaneFail).setBit (CH_DAC_STAT n) fCH_DAC_STAT_HIZ true).parkBit n

/-- PARK to OFF. -/
def State.leavePark (s : State) (g : Nat) : State :=
  let s1 := (chansOf g).foldl (fun u n => (u.offChan n).supvClear n) ((s.setPower g 0).setTransit g false)
  (s1.setFld (CLU_ENG_STAT g) fCLU_ENG_STAT_LANE_FAIL 0).updCluster g (fun c =>
    { c with laneFails := [0, 0, 0, 0, 0, 0, 0, 0], settling := false })

/-! ### Passages (R369 to R373) -/

/-- One step of a passage at tick t towards `goal`. -/
def State.pwrStep (s : State) (g goal t : Nat) : State :=
  let st := s.pwr g
  let go (u : State) (next : Nat) (more : Bool) : State :=
    u.updPwr g (fun p => { p with goal := if more then some goal else none, entered := t, next })
  if st < goal then
    if st = 0 then go (s.enterPark g t) (t + 40) (1 < goal)
    else if st = 1 then go (s.setTransit g true) (t + 200) true
    else if t < (s.pwrSt g).entered + 2 then
      s.updPwr g (fun p => { p with goal := some goal, next := p.entered + 2 })
    else go (s.enterRun g) t false
  else if goal < st then
    go (if st = 3 then s.leaveRun g else if st = 2 then s.leaveIdle g else s.leavePark g) (t + 1) (goal + 1 < st)
  else s

/-- A step of a passage that falls at tick t by itself: RUN entry after IDLE, or the next step down. -/
def State.pwrContinue (s : State) (g t : Nat) : State :=
  let p := s.pwrSt g
  match p.goal with
  | some x => if p.next ≤ t && (s.pwr g = 2 || x < s.pwr g) then s.pwrStep g x t else s
  | none => s

/-- A command for cluster g is refused, with the flags given. -/
def State.pwrRefuse (s : State) (g : Nat) (f : Option Fld) : State :=
  let a := PWR_CLU_STAT g
  let s1 := s.raise a fPWR_CLU_STAT_REFUSED
  match f with | some x => s1.raise a x | none => s1

/-- Accept a target for a cluster: pending from now to its start tick. -/
def State.pwrAccept (s : State) (g target : Nat) (stamp : Option Nat) : State :=
  let a := PWR_CLU_STAT g
  let s1 := s.setFld a fPWR_CLU_STAT_TARGET target
  if s.pwr g = target && (s.pwrSt g).goal.isNone then s1
  else (s1.raiseIf (s.lateOpt stamp) a fPWR_CLU_STAT_LATE).updPwr g (fun p => { p with pend := some ⟨target, s.sched stamp⟩ })

/-- A power command for one cluster (R369 to R372, R404). One with a target below that of the passage, but not below the state reached, ends
the passage there. -/
def State.pwrCommand (s : State) (g target : Nat) (stamp : Option Nat) : State :=
  let a := PWR_CLU_STAT g
  let p := s.pwrSt g
  let gone := s.tileGone (g / 4)
  if s.jtag.test.testBit g && target != 0 then
    (s.pwrRefuse g (if gone then some fPWR_CLU_STAT_TILE_DOWN else none)).raise TST_STAT fTST_STAT_PWR_REFUSED
  else if gone then s.pwrRefuse g (some fPWR_CLU_STAT_TILE_DOWN)
  else if target = 3 && !s.activeValid g then s.pwrRefuse g (some fPWR_CLU_STAT_NO_STRUCT)
  else
    match p.pend with
    | some q =>
      if target < q.target then
        ((s.updPwr g (fun p => { p with pend := none })).raise a fPWR_CLU_STAT_CANCELLED).pwrAccept g target stamp
      else s.pwrRefuse g none
    | none =>
      let up := match p.goal with | some x => decide (s.pwr g < x) | none => false
      if s.transit g || up then
        let cur := p.goal.getD (s.pwr g)
        if cur < target then s.pwrRefuse g none
        else if target = cur then s
        else
          let settling := s.transit g && p.next = p.entered + 40
          let s1 := (s.updPwr g (fun p => { p with goal := none })).raise a fPWR_CLU_STAT_CANCELLED
          let s2 := if settling then s1 else s1.setTransit g false
          if target < s.pwr g then s2.pwrAccept g target stamp else s2.setFld a fPWR_CLU_STAT_TARGET target
      else s.pwrAccept g target stamp

/-- CLUSTER_POWER_CMD (R369 to R372). -/
def execClusterPowerCmd (clusters : Fin 65536) (target : Fin 4) (at_ : Bool) (s : State) : Out :=
  let stamp := if at_ then some (s.rd64 PWR_CLU_AT_LO) else none
  .next ((allClu.filter (fun g => clusters.val.testBit g)).foldl (fun u g => u.pwrCommand g target stamp) s)

/-- POWER_TRANSITION_START (R369, R373): the pending transition of a cluster is due at the coming tick, or a passage's next step. -/
def execPowerTransitionStart (g : Clu) (s : State) : Out :=
  let t := s.tick + 1
  match (s.pwrSt g).pend with
  | some p =>
    if s.due p.due then .next ((s.updPwr g (fun x => { x with pend := none })).pwrStep g p.target t) else .next (s.pwrContinue g t)
  | none => .next (s.pwrContinue g t)

/-- PARK_SETTLED (Table 18-2): 40 periods after PARK entry; a passage further up starts to bias the converters. -/
def execParkSettled (g : Clu) (s : State) : Out :=
  let p := s.pwrSt g
  if s.pwr g != 1 || !s.transit g || p.next != p.entered + 40 || s.tick + 1 < p.next then .next s
  else match p.goal with
    | some x => .next (s.pwrStep g x (s.tick + 1))
    | none => .next (s.setTransit g false)

/-- IDLE_REACHED (Table 18-2): the converters have settled; IDLE at the coming tick. -/
def execIdleReached (g : Clu) (s : State) : Out :=
  let p := s.pwrSt g
  let t := s.tick + 1
  if s.pwr g != 1 || !s.transit g || p.next != p.entered + 200 || t < p.next then .next s
  else
    match p.goal with
    | some x => .next ((s.enterIdle g).updPwr g (fun q => { q with goal := if x = 3 then some 3 else none, entered := t, next := t + 2 }))
    | none => .next s

/-! ### Tiles (R374) -/

/-- A BAR0 offset lies in the span of tile t. -/
def inTile (t a : Nat) : Bool := tileBase t ≤ a && a < tileBase t + 0x1000000

/-- Does an item of the agenda belong to tile t? -/
def Later.ofTile (t : Nat) : Later → Bool
  | .hold n _ _ | .safeDac n _ | .blank n | .ringWr n _ | .winTest n _ _ | .trim n _ | .routeAct n _ => n / 128 == t
  | .tileDown u => u == t
  | .evlStop x => x / 8 == t
  | .heldCommit g | .freezeEnd g => g != 16 && g / 4 == t
  | .faultClear | .haltRelease | .fault _ => false

/-- Sources that outlast a tile's loss hold its channels again: halt, ENV, SUPPLY_SENSE. -/
def State.reHold (s : State) (t : Nat) : State :=
  s.over (tileChans t) (fun u n =>
    let u1 := if s.halted then u.holdSrc n srcHalt else u
    let u2 := if (s.fld MBX_ENV fMBX_ENV_HELD).testBit (n / 32) then u1.holdSrc n srcEnv else u1
    if s.hub.supplyLow.testBit t then u2.holdSrc n srcSupply else u2)

/-- A tile loses its configuration domain (R374): registers at reset, clusters in OFF, nothing running. -/
def State.tileReset (s : State) (t : Nat) : State :=
  let chan (n : Nat) : Bool := n / 128 == t
  let clu (g : Nat) : Bool := g / 4 == t
  let trimmed := match s.wtrim with | some w => chan w.ch | none => false
  let s1 := { s with
    regs := s.regs.filter (fun e => !inTile t e.1), live := s.live.filter (fun e => !inTile t e.1)
    latches := s.latches.filter (fun e => !inTile t (e.1 / 2))
    ch := s.ch.filter (fun e => !chan e.1), clu := s.clu.filter (fun e => !clu e.1)
    quad := s.quad.filter (fun e => e.1 / 32 != t), lanes := s.lanes.filter (fun e => e.1 / 32 != t), aux := s.aux.filter (fun e => e.1 / 16 != t)
    grps := s.grps.filter (fun e => e.1 / 8 != t), ramps := s.ramps.filter (fun r => !inTile t r.addr)
    taps := s.taps.filter (fun e => tapTile e.1 != t)
    banks := s.banks.filter (fun e => !inTile t e.1), capMem := s.capMem.filter (fun e => !inTile t e.1)
    coefBad := s.coefBad.filter (fun e => !inTile t e.1), coefOld := s.coefOld.filter (fun e => !inTile t e.1)
    later := s.later.filter (fun x => !x.2.ofTile t), wtrim := if trimmed then none else s.wtrim
    sess := match s.sess.quad with | some q => { s.sess with bad := s.sess.bad || q / 32 == t } | none => s.sess }
  let s2 := if trimmed then s1.setBit CAL_WTRIM_STAT fCAL_WTRIM_STAT_BUSY false else s1
  let s3 := (List.range 4).foldl (fun u c => (u.setPower (4 * t + c) 0).setTransit (4 * t + c) false) s2
  s3.reHold t

/-- Set or clear UP, BUSY (at 4) or ISOLATED (at 8) of a tile. -/
def State.tileBit (s : State) (k t : Nat) (b : Bool) : State :=
  if b then s.setBitAt PWR_TILE_STAT (k + t) else s.clrBitAt PWR_TILE_STAT (k + t)

/-- TILE_UP (R374, R393): each named tile that is DOWN is powered; its boot steps run. -/
def execTileUp (tiles : Fin 16) (s : State) : Out :=
  .next (((List.range 4).filter (fun t => tiles.val.testBit t && !s.tileOn t)).foldl (fun u t => u.tileBit 4 t true) s)

/-- A tile may go DOWN: its clusters are in OFF, and none of its segments is in test mode (R374, R404). -/
def State.mayDown (s : State) (t : Nat) : Bool :=
  (List.range 4).all (fun c => s.pwr (4 * t + c) == 0 && !s.jtag.test.testBit (4 * t + c))

/-- The tile goes DOWN at the present tick, or the command is refused after all. -/
def State.tileFall (s : State) (t : Nat) : State :=
  let s1 := s.tileBit 4 t false
  if !s.tileOn t then s1
  else if s.mayDown t then (s1.tileReset t).tileBit 0 t false
  else s1.raise PWR_TILE_STAT fPWR_TILE_STAT_REFUSED

/-- TILE_DOWN (R374, R404): a tile state changes only at a sample tick (R367): the coming one (DESIGN CHOICE, assumption 38). -/
def execTileDown (tiles : Fin 16) (s : State) : Out :=
  .next (((List.range 4).filter (fun t => tiles.val.testBit t && s.tileOn t)).foldl (fun u t =>
    if u.mayDown t then (u.tileBit 4 t true).after (u.tick + 1) (.tileDown t) else u.raise PWR_TILE_STAT fPWR_TILE_STAT_REFUSED) s)

/-! ### DRAM (R375) -/

/-- Does anything run that needs sequence memory (R375)? -/
def State.dramInUse (s : State) : Bool :=
  (List.range 512).any (fun n =>
    (s.trState n != trStopped && s.trState n != trFault) || (s.raw n).cfg.isSome ||
      (match (s.apt n).cfg with | some c => c.ringLen != 0 | none => false)) ||
  (List.range 32).any (fun x => s.grpState x != grStopped && s.grpState x != grDone) ||
  (List.range 32).any (fun d => s.dmaActive d)

/-- DRAM_CMD (R375): target 3 is reserved and does nothing; a command during a transition is refused; a move from OFF to SELF_REFRESH,
which Table 18-3 does not list, is made (DESIGN CHOICE, assumption 38). -/
def execDramCmd (target : Fin 4) (s : State) : Out :=
  let st := s.fld PWR_DRAM_STAT fPWR_DRAM_STAT_STATE
  if target = 3 then .next s
  else if s.hub.dramGoal.isSome || (st = 2 && target != 2 && s.dramInUse) then
    .next (s.raise PWR_DRAM_STAT fPWR_DRAM_STAT_REFUSED)
  else if st = target.val then .next s
  else .next ({ s with hub := { s.hub with dramGoal := some target.val } }.setBit PWR_DRAM_STAT fPWR_DRAM_STAT_BUSY true)

/-- The stacks enter a state: OFF loses the contents; outside ACTIVE the next access is logged (R375). -/
def State.dramEnter (s : State) (v : Nat) : State :=
  let s1 := { s with seqMem := if v = 0 then [] else s.seqMem, dramLogged := false, hub := { s.hub with dramGoal := none } }
  (s1.setFld PWR_DRAM_STAT fPWR_DRAM_STAT_STATE v).setBit PWR_DRAM_STAT fPWR_DRAM_STAT_BUSY false

/-- DRAM_TRANSITION_DONE (R375); `ok` false: the training of a move from OFF failed, and the stacks stay OFF. -/
def execDramTransitionDone (ok : Bool) (s : State) : Out :=
  match s.hub.dramGoal with
  | some v => .next (s.dramEnter (if s.fld PWR_DRAM_STAT fPWR_DRAM_STAT_STATE = 0 && !ok then 0 else v))
  | none => .next s

/-! ### Supply monitor (R432) -/

/-- SUPPLY_SENSE_FALL (R432, R208): asynchronously. -/
def execSupplySenseFall (t : Tile) (_cyc : Nat) (s : State) : Out :=
  let again (x : Later) : Bool := match x with
    | .hold n b on => n / 128 == t && b == srcSupply && !on
    | _ => false
  .next ({ s with
    hub := { s.hub with supplyLow := s.hub.supplyLow ||| 2 ^ t.val }, later := s.later.filter (fun x => !again x.2) }.over (tileChans t)
    (fun s n => s.holdSrc n srcSupply))

/-- SUPPLY_SENSE_RECOVER (R432): released at the next tick. -/
def execSupplySenseRecover (t : Tile) (s : State) : Out :=
  .next ({ s with hub := { s.hub with supplyLow := s.hub.supplyLow &&& (15 - 2 ^ t.val) } }.over (tileChans t)
    (fun s n => s.after (s.tick + 1) (.hold n srcSupply false)))

end Sys2Proof.Machine
end

