-- ==== Sys2Proof/Machine/Boot.lean ====
section
/-!
DEFINITION. Resets (R377), boot and the Tally journal (R378 to R384), and the meanings of those rows of chapter 18.
-/

namespace Sys2Proof.Machine

/-! ### The Tally (R380 to R383) -/

/-- KIND codes of Table 18-7. -/
def TallyKind.code : TallyKind → Nat
  | .started => 1
  | .ok => 2
  | .failed => 3
  | .skipped => 4
  | .clear => 5
  | .boot => 6

/-- The 16 bytes of a record in NOR (Table 18-7). -/
def TallyRec.bytes (r : TallyRec) : List Byte :=
  let b := leBytes (r.step % 16 + 2 ^ 4 * r.kind.code + 2 ^ 7 * r.alt.toNat + 2 ^ 8 * (r.detail % 256) + 2 ^ 16 * r.ms) 4 ++
    leBytes r.boot 4 ++ leBytes r.data 4
  b ++ leBytes (crc32c b) 4

/-- Append a record: a full sector is followed by the other, erased. -/
def NorSt.tallyAdd (x : NorSt) (r : TallyRec) : NorSt :=
  if x.tally.length < 4096 then { x with tally := r :: x.tally } else { x with tallyOld := x.tally, tally := [r] }

/-- Every valid record, newest first: one whose CRC fails is ignored (R383). -/
def NorSt.tallyAll (x : NorSt) : List TallyRec := (x.tally ++ x.tallyOld).filter (fun r => !r.bad)

/-- The records at some places, newest first, no longer pass their CRC. -/
def NorSt.tallySpoil (x : NorSt) (at_ : List Nat) : NorSt :=
  let spoil (k : Nat) (rs : List TallyRec) : List TallyRec := rs.zipIdx.map (fun r => { r.1 with bad := r.1.bad || at_.contains (k + r.2) })
  { x with tally := spoil 0 x.tally, tallyOld := spoil x.tally.length x.tallyOld }

/-- The suspect quads of the last record that step 9 left FAILED (Table 18-6). -/
def NorSt.suspects (x : NorSt) : List Nat :=
  ((x.tallyAll.find? (fun r => r.step == 9 && r.kind == .failed)).map TallyRec.quads).getD []

/-- Outcomes of a step, newest first, each with its method (true: alternate), from its records newest first. A STARTED record that
no outcome follows counts as FAILED by its method; SKIPPED is not the outcome of one. -/
def outcomesOf : Bool → List TallyRec → List (TallyKind × Bool)
  | _, [] => []
  | ended, r :: rs =>
    if r.kind = .skipped then (r.kind, r.alt) :: outcomesOf ended rs
    else if r.kind = .started then (if ended then outcomesOf false rs else (.failed, r.alt) :: outcomesOf false rs)
    else (r.kind, r.alt) :: outcomesOf true rs

/-- Records of a step since the last CLEAR record. -/
def stepRecords (all : List TallyRec) (n : Nat) : List TallyRec :=
  (all.takeWhile (fun r => r.kind != .clear)).filter (fun r => r.step == n && r.kind != .boot)

/-- Steps that have an alternate, and optional steps (Table 18-6). -/
def stepAlt (n : Nat) : Bool := [0, 1, 2, 4, 5, 7, 9, 12].contains n
def stepOptional (n : Nat) : Bool := [5, 9, 14].contains n

/-- The method of a step: 0 primary, 1 alternate, 2 skipped (R382). -/
def stepMethod (all : List TallyRec) (n : Nat) : Nat :=
  let os := outcomesOf false (stepRecords all n)
  let primaryFailed := os.contains (.failed, false)
  let altFailed := os.contains (.failed, true)
  let altFailedSince := (os.takeWhile (fun o => o != (.failed, false))).contains (.failed, true)
  match os with
  | [] => 0
  | o :: _ =>
    if o = (.ok, false) then 0
    else if primaryFailed && stepAlt n && !altFailedSince then 1
    else if primaryFailed && (altFailed || !stepAlt n) && stepOptional n then 2
    else 0

/-! ### Loads of one tile (steps 9 to 12; R374) -/

/-- The copies of the boot structure file that pass the checks of R362 under the policy in NOR, the newer first. -/
def State.bootFiles (s : State) : List (List Byte) :=
  let s1 := { s with cob := { s.cob with keys := s.nor.keys } }
  let ok (c : Option StructFile) : List StructFile := match c with
    | some f => if s1.fileCheck s.nor.polSigned f.bytes = 0 then [f] else []
    | none => []
  let a := ok s.nor.struct_.1
  let b := ok s.nor.struct_.2
  match a, b with
  | x :: _, y :: _ => if genAfter x.gen y.gen then [x.bytes, y.bytes] else [y.bytes, x.bytes]
  | _, _ => (a ++ b).map StructFile.bytes

/-- DETAIL of a boot structure file that a method does not load: 5 absent, 2 its format or CRC, 3 its signature (Table 18-7). -/
def State.fileDetail (s : State) (alt : Bool) : Nat :=
  let s1 := { s with cob := { s.cob with keys := s.nor.keys } }
  let copy : Option StructFile := match s.nor.struct_ with
    | (some a, some b) => if genAfter a.gen b.gen != alt then some a else some b
    | (a, b) => if alt then none else a.or b
  match copy with
  | none => 5
  | some f => if s1.fileCheck s.nor.polSigned f.bytes = 7 then 3 else 2

/-- The file that step 12 loads by a method: the newer valid copy, or the older copy. -/
def State.bootFile (s : State) (alt : Bool) : Option (List Byte) :=
  if alt then
    match s.nor.struct_.1, s.nor.struct_.2, s.bootFiles with
    | some _, some _, [_, y] => some y
    | some a, some b, [x] => if x = (if genAfter a.gen b.gen then b else a).bytes then some x else none
    | _, _, _ => none
  else s.bootFiles.head?

/-- Load the structure of a cluster into bank A as the active bank (R57). -/
def State.bootStruct (s : State) (secs : List (Nat × List Byte)) (g : Nat) : State :=
  let (t, code) : State × Nat := (secs.filter (fun x => x.1.testBit g)).foldl (fun (acc : State × Nat) x =>
    let (u, v) := acc.1.loadSection g 0 x.2
    (u, v.code)) (s, 0)
  let t1 := if code = 1 then
      (t.updStat g fCLU_BANK_STAT_ACTIVE_VALID 1).wr (CLU_ACTIVE_ID g) (BitVec.ofNat 32 (t.bankWord g 0 0x10))
    else t
  ((chansOf g).foldl (fun u n => (u.showDesc n).setBit (CH_DAC_STAT n) fCH_DAC_STAT_MODE (u.desc n).dacMode) t1).over (cluLanes g)
    State.laneShow

/-- Steps 9 to 12 for one tile: it is UP, its safe values, calibration and structures are loaded, the slices of suspect quads are
declared failed. -/
def State.tileLoad (s : State) (t : Nat) (safe : Option SafeTable) (cal : Option CalTable) (file : Option (List Byte))
    (suspect : List Nat) : State :=
  let quads := (List.range 32).map (32 * t + ·)
  let s1 := (s.tileBit 0 t true).tileBit 8 t false
  let s2 := match safe with | some x => s1.loadSafe x t | none => s1
  let s3 := match cal with | some x => s2.loadCal x t | none => s2.loadProd t
  let s4 := s3.over quads (fun u q => kinds.foldl (fun v k => v.updKind q k (fun _ => { serve := v.perm q k })) u)
  let s5 := s4.over (quads.filter (suspect.contains ·)) (fun u q => (List.range 12).foldl (fun v sl => v.failSlice q sl) u)
  let s6 := match file with
    | some bs => (List.range 4).foldl (fun (u : State) c => u.bootStruct (fileSections bs) (4 * t + c)) s5
    | none => s5
  (s6.over quads State.qualRefresh).reHold t

/-- TILE_UP_DONE (R374, R393): boot steps 9 to 12 for the tile under the methods in force in this boot; a tile that fails stays DOWN. Step 9
by its alternate hands the suspect quads of the last record to their Welt slices; skipped, it tests nothing. -/
def execTileUpDone (t : Tile) (ok : Bool) (suspect : List (Fin 32)) (s : State) : Out :=
  if !(s.rd PWR_TILE_STAT).getLsbD (4 + t) || s.tileOn t then .next s
  else
    let s1 := s.tileBit 4 t false
    let skip := s.fld (PWR_STEP 9) fPWR_STEP_OUTCOME = 3
    let known := if s.bit (PWR_STEP 9) fPWR_STEP_ALT then s.nor.suspects else []
    if !ok && !skip then .next s1
    else .next (s1.tileLoad t (s.nor.safeTable) (s.nor.calTable) (s.bootFile (s.bit (PWR_STEP 12) fPWR_STEP_ALT))
      (if skip then [] else known ++ suspect.map (fun q => 32 * t.val + q.val)))

/-! ### Boot (R378 to R382) -/

/-- Limit of a step in milliseconds (Table 18-6); that of step 6 counts from the release of PERST_N. -/
def stepLimit (n : Nat) : Nat := [5, 2, 10, 20, 80, 50, 100, 400, 200, 300, 20, 100, 250, 20, 50, 10].getD n 0

/-- A boot in progress: the state, records not yet in the Tally (oldest first), whether the Tally is open and this boot's number,
whether firmware runs steps 5 to 15, whether hub-only or no clock keeps the tiles DOWN, whether a step failed, was skipped or
used its alternate, whether the boot hangs; the millisecond it began and the present one; the quads that step 9 gives up and the tiles that
fail it. -/
structure BootRun where
  s : State
  held : List TallyRec := []
  open_ : Bool := false
  number : Nat := 0
  fuses : Bool := true
  clock : Bool := true
  nor : Bool := true
  firmware : Bool := false
  fresh : Bool := false
  dram : Bool := true
  hung : Bool := false
  start : Nat := 0
  ms : Nat := 0
  sus : List Nat := []
  bad : Nat := 0
deriving DecidableEq, Repr

/-- Append or hold back a record. -/
def BootRun.note (b : BootRun) (n : Nat) (k : TallyKind) (alt : Bool) (detail ms data : Nat) (quads : List Nat) : BootRun :=
  let r : TallyRec := ⟨n, k, alt, detail, min ms 0xFFFF, b.number, data, quads, false⟩
  if b.open_ then { b with s := { b.s with nor := b.s.nor.tallyAdd r } } else { b with held := b.held ++ [r] }

/-- What the boot's operand says of a step. -/
def bootRes (x : BootIn) (n : Nat) : StepRes := (x.steps.find? (fun r => r.step == n)).getD ⟨n, none, none, 0, 0, 0⟩

/-- DETAIL of a firmware image that step 4 refuses: absent, or its header or signature fails (R364). An image as the device was made with,
of which the model holds no bytes, passes (assumption 39). -/
def imageDetail : Option FwImage → Option Nat
  | none => some 5
  | some f =>
    if f.bytes.isEmpty then none
    else match (fwCheck 0 f.bytes).2 with
      | 0 => none
      | 7 => some 3
      | _ => some 2

/-- Milliseconds that a method takes. -/
def bootTime (x : BootIn) (n : Nat) (alt : Bool) : Nat := if alt then (bootRes x n).altMs else (bootRes x n).ms

/-- How a method of a step ends: none OK, or its DETAIL (Table 18-7). -/
def BootRun.tries (b : BootRun) (inp : BootIn) (n : Nat) (alt : Bool) : Option Nat :=
  let given := if alt then (bootRes inp n).alt else (bootRes inp n).primary
  let fails (c : Bool) (d : Nat) : Option Nat := if c then some d else none
  let slot := if alt then 1 - b.s.nor.fwDefault else b.s.nor.fwDefault
  (fails (decide (stepLimit n < bootTime inp n alt)) 1).or <| given.or <|
    if n = 1 then fails (!(if alt then inp.refB else inp.refA)) 4
    else if n = 4 then imageDetail (b.s.fwSlot slot)
    else if n = 8 then fails (!b.dram) 4
    else if n = 9 then fails (inp.badTiles != 0 || inp.suspect.any (fun q => !alt || !b.s.nor.suspects.contains q)) 4
    else if n = 10 then fails b.s.nor.safeTable.isNone 5
    else if n = 11 then fails (b.s.nor.calTable).isNone 5
    else if n = 12 then fails (b.s.bootFile alt).isNone (b.s.fileDetail alt)
    else none

/-- Tiles that come UP in this boot. -/
def BootRun.tiles (b : BootRun) : List Nat := (List.range 4).filter (fun t => b.fuses && b.clock && !b.bad.testBit t)

/-- What a step leaves, by its end: OK or not, and the method (Table 18-6). -/
def BootRun.effect (b : BootRun) (inp : BootIn) (n : Nat) (ok alt : Bool) : BootRun :=
  let s := b.s
  match n with
  | 0 => { b with fuses := ok }
  | 1 =>
    let s1 := ((s.setBit HUB_CLK_STAT fHUB_CLK_STAT_A_OK inp.refA).setBit HUB_CLK_STAT fHUB_CLK_STAT_B_OK inp.refB).setBit
      HUB_CLK_STAT fHUB_CLK_STAT_ACTIVE (ok && alt)
    { b with clock := ok, s := s1 }
  | 2 => { b with nor := ok }
  | 4 =>
    let slot := if alt then 1 - s.nor.fwDefault else s.nor.fwDefault
    if ok && b.fuses then { b with firmware := true, s := ({ s with cob := { s.cob with stbyImage := slot } }).showFw slot } else b
  | 5 =>
    let s1 := (s.setBit MBX_CORE fMBX_CORE_ACTIVE (ok && alt)).setFld MBX_CORE fMBX_CORE_STBY_STATE (if ok then 1 else 2)
    { b with s := ({ s1 with cob := { s1.cob with up := true } }).setBit MBX_STAT fMBX_STAT_BUSY false }
  | 7 => { b with dram := ok, s := s.setBit PWR_DRAM_STAT fPWR_DRAM_STAT_CONSERVATIVE (ok && alt) }
  | 8 => { b with s := { s with seqMem := [] }.dramEnter (if ok then 2 else 0) }
  | 9 => { b with sus := if alt then s.nor.suspects ++ inp.suspect else inp.suspect, bad := inp.badTiles }
  | 12 =>
    let safe := if s.fld (PWR_STEP 10) fPWR_STEP_OUTCOME = 1 then s.nor.safeTable else none
    let cal := if s.fld (PWR_STEP 11) fPWR_STEP_OUTCOME = 1 then s.nor.calTable else none
    let s1 := match cal with | some x => s.loadBoard x | none => s
    { b with s := b.tiles.foldl (fun u t => u.tileLoad t safe cal (if ok then s.bootFile alt else none) b.sus) s1 }
  | 13 =>
    if ok then { b with s := { s with
      polSigned := s.nor.polSigned, cob := { s.cob with keys := s.nor.keys }, host := { s.host with subsys := s.nor.subsys } } }
    else { b with s := { s with polSigned := false, cob := { s.cob with keys := [] } } }
  | 14 => if ok then b else { b with s := { s with log := { s.log with seq := 0x80000000, nor := [] } } }
  | 15 => { b with s := (s.setBit PWR_BOOT fPWR_BOOT_DONE true) }
  | _ => b

/-- PWR_STEP, the event log entry of SOURCE 0x0B, FAULT_N and DEGRADED for an outcome: 1 OK, 2 FAILED, 3 SKIPPED. `more`: an
alternate follows. -/
def BootRun.report (b : BootRun) (n outcome : Nat) (alt : Bool) (detail ms : Nat) (more : Bool) : BootRun :=
  let a := PWR_STEP n
  let sev := if outcome = 2 then (if more then 2 else 3) else if outcome = 1 && !alt then 0 else 1
  let s1 := (((b.s.setFld a fPWR_STEP_OUTCOME outcome).setBit a fPWR_STEP_ALT alt).setFld a fPWR_STEP_DETAIL detail).setFld a
    fPWR_STEP_TIME_MS (min ms 0xFFFF)
  let s2 := s1.logEv 0xB 0 sev 0 n outcome
  let s3 := if outcome = 2 && !more then s2.raiseFault 17 else s2
  { b with s := if sev = 0 then s3 else s3.setBit PWR_BOOT fPWR_BOOT_DEGRADED true }

/-- Step 3 has read the Tally, in which some records fail their CRC: the BOOT record and the records held back come first (R380, R383). -/
def BootRun.openTally (b : BootRun) (fresh : Bool) (badRecs : List Nat) : BootRun :=
  let nor := if fresh then { b.s.nor with tally := [], tallyOld := [] } else b.s.nor.tallySpoil badRecs
  let number := (nor.tallyAll.map TallyRec.boot).foldl max 0 + 1
  let nor1 := nor.tallyAdd ⟨3, .boot, false, 0, min b.ms 0xFFFF, number, 0, [], false⟩
  let nor2 := b.held.foldl (fun x r => x.tallyAdd { r with boot := number }) nor1
  { b with s := { b.s with nor := nor2 }.wr PWR_BOOT_COUNT (BitVec.ofNat 32 number), held := [], open_ := true, number, fresh }

/-- The boot hangs in a method of a step, which leaves STARTED, until the watchdog at twice its limit (R381). A boot that hangs already does
not hang again. -/
def BootRun.hang (b : BootRun) (n : Nat) (alt : Bool) (start : Nat) : BootRun :=
  let b1 := if b.open_ then b.note n .started alt 0 start 0 [] else b
  let b2 := { b1 with s := b1.s.setFld (PWR_STEP n) fPWR_STEP_OUTCOME 4 }
  if b.hung then b2
  else { b2 with hung := true, ms := start + 2 * stepLimit n, s := { b2.s with hub := { b2.s.hub with boot := .hung n } } }

/-- Run one method of a step to its end, from the millisecond the boot has reached; step 6 from that in which the boot began. -/
def BootRun.method (b : BootRun) (inp : BootIn) (n : Nat) (alt : Bool) : BootRun × Bool :=
  let r := bootRes inp n
  let start := if n = 6 then b.start else b.ms
  let stop := start + bootTime inp n alt
  if 2 * stepLimit n < bootTime inp n alt then (b.hang n alt start, false)
  else
    let out := b.tries inp n alt
    let b0 := if n = 3 && !b.open_ then b.openTally out.isSome inp.badRecs else b
    let b1 := { b0.note n .started alt 0 start 0 [] with ms := if n = 6 then b.ms else stop }
    match out with
    | none => ((((b1.effect inp n true alt).note n .ok alt 0 stop r.data []).report n 1 alt 0 stop false), true)
    | some d =>
      let more := !alt && stepAlt n
      let b2 := (b1.note n .failed alt d stop r.data (if n = 9 then inp.suspect else [])).report n 2 alt d stop more
      (if more then b2 else b2.effect inp n false alt, false)

/-- One step (R378, R380 to R382). `all` are the Tally's records before this boot; `wdt`: a restart by the watchdog, which does not
repeat step 6. Step 6 runs in hardware, though the boot hangs. -/
def BootRun.step (b : BootRun) (inp : BootIn) (all : List TallyRec) (wdt : Bool) (n : Nat) : BootRun :=
  if (b.hung && n != 6) || (n = 6 && wdt) then b
  else if !b.nor && [3, 4, 10, 11, 12, 13, 14].contains n then
    let b1 := b.report n 2 false 5 b.ms false
    if n = 13 || n = 14 then b1.effect inp n false false else b1
  else if !b.firmware && (n = 5 || 7 ≤ n) then b
  else
    let b := if b.hung then b else { b with s := b.s.setFld PWR_BOOT fPWR_BOOT_STEP n }
    let m := if b.fresh && 4 ≤ n then 0 else stepMethod all n
    if m = 2 then
      let b1 := b.note n .skipped false 0 b.ms 0 []
      (if n = 9 then b1 else b1.effect inp n false false).report n 3 false 0 b.ms false
    else
      let (b1, ok) := b.method inp n (m == 1)
      if ok || m = 1 || !stepAlt n || b1.hung then b1 else (b1.method inp n true).1

/-- Milliseconds since the release of PERST_N (R383): those that boots took, and the sample periods. -/
def State.releaseMs (s : State) : Nat := s.hub.bootMs + (s.tick - s.hub.relTick) / 2000

/-- BOOT (R378): after a reset, the 16 steps in order. -/
def execBoot (inp : BootIn) (s : State) : Out :=
  if s.hub.boot != .pending || s.hub.perstLow || s.hub.resetAt.isSome then .next s
  else
    let all := (s.nor.tallySpoil inp.badRecs).tallyAll
    let wdt := s.bit PWR_RST_CAUSE fPWR_RST_CAUSE_BOOT_WDT
    let t0 := s.releaseMs
    let b : BootRun := (List.range 16).foldl (fun (b : BootRun) n => b.step inp all wdt n)
      { s := s.wr PWR_BOOT_COUNT 0, start := t0, ms := t0 }
    let s1 := (List.range 16).foldl (fun u n => u.setFld (PWR_STEP n) fPWR_STEP_NEXT (stepMethod u.nor.tallyAll n)) b.s
    let s2 := { s1 with hub := { s1.hub with bootMs := s1.hub.bootMs + (b.ms - t0) } }
    .next (if b.hung then s2 else { s2 with hub := { s2.hub with boot := .done } })

/-- BOOT_WATCHDOG (R381): the boot restarts at step 0; the link and the endpoint are kept. PWR_BOOT_COUNT reads 0 until step 3 (R383). -/
def execBootWatchdog (s : State) : Out :=
  match s.hub.boot with
  | .hung _ =>
    .next ((({ s with hub := { s.hub with boot := .pending }, cob := { s.cob with up := false } }.wr PWR_RST_CAUSE 8).wr PWR_BOOT_COUNT
      0).setBit MBX_STAT fMBX_STAT_BUSY true)
  | _ => .next s

/-- TALLY_CLEAR (R384): a write of PWR_TALLY_CLR with CLEAR = 1. -/
def execTallyClear (s : State) : Out := .next (s.setBit PWR_BOOT fPWR_BOOT_CLEAR_PENDING true)

/-- TALLY_CLEAR_RECORD (R384): Cobbler appends the CLEAR record. -/
def execTallyClearRecord (s : State) : Out :=
  if s.bit PWR_BOOT fPWR_BOOT_CLEAR_PENDING && s.cob.up then
    let s1 := { s with nor := s.nor.tallyAdd ⟨0, .clear, false, 0, min s.releaseMs 0xFFFF, (s.rd PWR_BOOT_COUNT).toNat, 0, [],
      false⟩ }
    .next ((s1.setBit PWR_BOOT fPWR_BOOT_CLEAR_PENDING false).setBit PWR_BOOT fPWR_BOOT_CLEARED true)
  else .next s

/-! ### Resets (R377) -/

/-- Apply an event's outcome that is a next state. -/
def State.andThen (s : State) (f : State → Out) : State := match f s with | .next t => t | _ => s

/-- The segments in test mode become those of a mask (R403, R405, R406): the hub's entry takes the host link and the Skidline ports
down. -/
def State.setTest (s : State) (m : Nat) : State :=
  let old := s.jtag.test
  let entered := (List.range 17).any (fun g => m.testBit g && !old.testBit g)
  let s1 := ({ s with jtag := { s.jtag with test := m } }.setBit TST_STAT fTST_STAT_TEST_MODE (m != 0)).raiseIf entered TST_STAT
    fTST_STAT_ENTERED
  if m.testBit 16 && !old.testBit 16 then
    ((s1.andThen execDlDown).andThen (execSklPortDown false)).andThen (execSklPortDown true)
  else s1

/-- Value of the IDCODE register (R400). -/
def idcodeWord : Nat := 2 ^ 28 * (Config.silicon % 16) + 2 ^ 12 * 0x5120 + 2 * 0x6B5 + 1

/-- Entry into Test-Logic-Reset (R398, R406). -/
def State.tapReset (s : State) : State :=
  let s1 := ((s.setFld TST_STAT fTST_STAT_IR 1).wr TST_SEG_SEL 0x1FFFF).setTest 0
  { s1 with jtag := { s1.jtag with ir := 1, dr := idcodeWord, len := 32 } }

/-- A reset that reaches the clusters (R8, R377): every register at its reset value but those kept; the NOR flash, the hours and
what lies outside the device stay. The ID straps are read (R410). `cause` is its bit in PWR_RST_CAUSE. -/
def State.deviceReset (s : State) (cause : Nat) : State :=
  let r : State := {
    hub := { perstLow := s.hub.perstLow, straps := s.hub.straps, supplyLow := s.hub.supplyLow,
             bootMs := if cause = 4 then s.releaseMs else 0 }
    jtag := { dr := idcodeWord, trst := s.jtag.trst }
    nor := s.nor, hours := s.hours, freeCount := s.freeCount, pending := s.pending, laneIn := s.laneIn
    log := { nor := s.log.nor, ceiling := s.log.ceiling, seq := s.log.ceiling }
    host := { mem := s.host.mem, sent := s.host.sent } }
  let r1 := if cause = 1 then r else r.wr PWR_RST_CTL (s.rd PWR_RST_CTL)
  let r2 := (r1.wr PWR_RST_CAUSE (BitVec.ofNat 32 cause)).setBit HUB_HALT_STAT fHUB_HALT_STAT_BALL_LOW
    (s.bit HUB_HALT_STAT fHUB_HALT_STAT_BALL_LOW)
  (r2.setFld SKL_STAT fSKL_STAT_STRAPS s.hub.straps).over (List.range 4) State.reHold

/-- The PCIe endpoint and its configuration space are reset, and the link is down; with `elog`, the link and error log too, and no other
register (Table 18-5, R413). The engine's host transfers end (R276, R280). -/
def State.endpointReset (s : State) (elog : Bool) : State :=
  let gone (a : Nat) : Bool := elog && PCI_ELOG_STAT ≤ a && a < 0x40000
  let s1 := { s with
    regs := s.regs.filter (fun e => !gone e.1)
    elogCount := if elog then 0 else s.elogCount
    host := { mem := s.host.mem, sent := s.host.sent, subsys := s.host.subsys } }
  ((s1.setFld PCI_LINK_STAT fPCI_LINK_STAT_WIDTH 0).setFld PCI_LINK_STAT fPCI_LINK_STAT_SPEED 0).dmaLinkLost

/-- A reset begins: the test access port enters Test-Logic-Reset (R398), and the halt wires put every ball not in OFF at its park buffer; 20
microseconds later the device resets. -/
def State.beginReset (s : State) (cause : Nat) : State :=
  (s.tapReset.over (List.range 512) (fun t n => t.holdSrc n srcHalt)).over [()] (fun t _ =>
    { t with hub := { t.hub with resetAt := some (t.tick + 40, cause) } })

/-- POWER_ON (R376, R377): `straps` are the strap balls read at power-on. -/
def execPowerOn (straps : Fin 8) (s : State) : Out :=
  .next ({ s with hub := { s.hub with straps := straps, perstLow := false } }.deviceReset 1)

/-- PERST_N (R377): asserted (`low`) it resets the device, or the endpoint and the link log alone, as PERST_SCOPE says. -/
def execPerstN (low : Bool) (s : State) : Out :=
  let s1 := { s with hub := { s.hub with perstLow := low } }
  if !low then .next { s1 with hub := { s1.hub with bootMs := 0, relTick := s.tick } }
  else .next (if s.bit PWR_RST_CTL fPWR_RST_CTL_PERST_SCOPE then s1.beginReset 2 else s1.endpointReset true)

/-- HOT_RESET (R377): Hot Reset or Link Disable. -/
def execHotReset (s : State) : Out := .next (s.endpointReset false)

/-- PWR_RST_CMD (R377): 0x5A, then 0xA5 within 1 ms; any other value restarts the sequence. -/
def execPwrRstCmd (key : Fin 256) (s : State) : Out :=
  let s1 := { s with hub := { s.hub with rstKey := if key = 0x5A then some s.tick else none } }
  if key = 0xA5 then
    match s.hub.rstKey with
    | some t => .next (if s.tick ≤ t + 2000 then s1.beginReset 4 else s1)
    | none => .next s1
  else .next s1

end Sys2Proof.Machine
end

