-- ==== Sys2Proof/Machine/Fault.lean ====
section
/-!
DEFINITION. The meanings of the rows of chapter 19: FAULT_N, tile isolation, reference clocks, scrubbing (R385 to R396).
-/

namespace Sys2Proof.Machine

/-! ### FAULT_N (R390, R391) -/

/-- FAULT_CLEAR (R391): decided at tick k+2. -/
def execFaultClear (s : State) : Out := .next (s.after (s.tick + 2) .faultClear)

/-- A clear written in period k acts at tick k+2, the present tick: refused where a cause was raised in period k+1 or at this
tick. -/
def State.faultRelease (s : State) : State :=
  let refused := match s.faultTick with | some t => decide (s.tick ≤ t + 1) | none => false
  if refused then s.raise HUB_FAULT_STAT fHUB_FAULT_STAT_CLEAR_REFUSED
  else s.setBit HUB_FAULT_STAT fHUB_FAULT_STAT_ASSERTED false

/-! ### Tile isolation (R392) -/

/-- TILE_ISOLATE (R392): a write of HUB_ISO_CMD; the second of the two asserts the halt wires of the tiles. A tile on its way to isolation
keeps its time. -/
def execTileIsolate (key : Fin 256) (tiles : Fin 16) (s : State) : Out :=
  let s1 := { s with hub := { s.hub with isoKey := if key = 0xC3 then some (s.tick, tiles.val) else none } }
  let armed := match s.hub.isoKey with
    | some (t, m) => decide (s.tick ≤ t + 2000) && m == tiles.val
    | none => false
  if key = 0x3C && armed then
    let ts := (List.range 4).filter (fun t => tiles.val.testBit t && !s.isolated t && !s.hub.isoAt.any (·.1 == t))
    let s2 := s1.over (ts.flatMap tileChans) (fun u n => if u.tileOn (n / 128) then u.holdSrc n srcHalt else u)
    .next { s2 with hub := { s2.hub with
      isoAt := s2.hub.isoAt ++ ts.map (fun t => (t, s.tick + 40)) } }
  else .next s1

/-- ISOLATION_COMPLETE (R392): 20 microseconds after the second key. -/
def execIsolationComplete (s : State) : Out :=
  let due := s.hub.isoAt.filter (fun x => decide (x.2 ≤ s.tick + 1))
  let s1 := due.foldl (fun u x => (((u.tileReset x.1).tileBit 0 x.1 false).tileBit 4 x.1 false).tileBit 8 x.1 true) s
  let seen := due.foldl (fun m x => m &&& (15 - 2 ^ x.1)) s1.isoLogged
  .next { s1 with isoLogged := seen, hub := { s1.hub with isoAt := s1.hub.isoAt.filter (fun x => !decide (x.2 ≤ s.tick + 1)) } }

/-! ### Reference clocks (R388, R389) -/

/-- The input in use: false REFCLK_A, true REFCLK_B. -/
def State.clkActive (s : State) : Bool := s.bit HUB_CLK_STAT fHUB_CLK_STAT_ACTIVE
def fClkOk (b : Bool) : Fld := if b then fHUB_CLK_STAT_B_OK else fHUB_CLK_STAT_A_OK
def fClkLost (b : Bool) : Fld := if b then fHUB_CLK_STAT_B_LOST else fHUB_CLK_STAT_A_LOST
/-- An input reads good. -/
def State.clkOk (s : State) (b : Bool) : Bool := s.bit HUB_CLK_STAT (fClkOk b)

/-- Begin the slew onto an input; `lost`: the one in use was declared lost. -/
def State.clkSlew (s : State) (b lost : Bool) : State :=
  { s with hub := { s.hub with clkGoal := some b.toNat, clkLost := lost || s.hub.clkLost } }.setBit HUB_CLK_STAT fHUB_CLK_STAT_SWITCHING
    true

/-- A slew ends, or is given up. -/
def State.clkIdle (s : State) : State :=
  { s with hub := { s.hub with clkGoal := none, clkLost := false } }.setBit HUB_CLK_STAT fHUB_CLK_STAT_SWITCHING false

/-- An input's LOST bit and cause CLOCK. -/
def State.clkMiss (s : State) (b : Bool) : State := (s.raise HUB_CLK_STAT (fClkLost b)).raiseFault 14

/-- Running from the internal oscillator. -/
def State.clkInt (s : State) : Bool := s.bit HUB_CLK_STAT fHUB_CLK_STAT_INTERNAL

/-- Both inputs are lost (R389): the internal oscillator. -/
def State.clkInternal (s : State) : State :=
  ((s.clkIdle.setBit HUB_CLK_STAT fHUB_CLK_STAT_INTERNAL true).clkMiss false).clkMiss true

/-- REFCLK_LOST (R388, R389): input `b` (false A) is declared lost. Its LOST bit and cause CLOCK follow with the end of the switch
when it was in use, at once when it was not or while the hub runs from the internal oscillator, which no loss makes it leave. A slew onto it
is given up, and the LOST bit that was to come with its end is set (DESIGN CHOICE, assumption 40). -/
def execRefclkLost (b : Bool) (s : State) : Out :=
  if !s.clkOk b then .next s
  else
    let s1 := s.setBit HUB_CLK_STAT (fClkOk b) false
    let s2 := if s.hub.clkGoal = some b.toNat then
        let t := s1.clkIdle
        if s.hub.clkLost then t.clkMiss (!b) else t
      else s1
    if s.clkInt then .next (s2.clkMiss b)
    else if !s1.clkOk (!b) then .next s1.clkInternal
    else if s.clkActive = b then .next (s1.clkSlew (!b) true)
    else .next (s2.clkMiss b)

/-- REFCLK_GOOD (R388): an input has shown neither fault for 1 ms. The device does not switch back on its own (R389). -/
def execRefclkGood (b : Bool) (s : State) : Out := .next (s.setBit HUB_CLK_STAT (fClkOk b) true)

/-- CLOCK_SELECT (R389): a write of HUB_CLK_CTL.SEL naming an input that is not in use and reads good; else ignored. -/
def execClockSelect (b : Bool) (s : State) : Out :=
  if !(s.clkActive = b && !s.clkInt) && s.clkOk b then .next ((s.setBit HUB_CLK_CTL fHUB_CLK_CTL_SEL b).clkSlew b false) else .next s

/-- CLOCK_SWITCH_DONE (R388): the slew ends; ACTIVE changes; the LOST bit of an input that was declared lost in use, and cause CLOCK,
though it may read good again. -/
def execClockSwitchDone (s : State) : Out :=
  match s.hub.clkGoal with
  | none => .next s
  | some g =>
    let b := g == 1
    let s1 := s.clkIdle.setBit HUB_CLK_STAT fHUB_CLK_STAT_ACTIVE b
    let s2 := ((s1.setBit HUB_CLK_STAT fHUB_CLK_STAT_INTERNAL false).raise HUB_CLK_STAT fHUB_CLK_STAT_SWITCHED).incSat HUB_CLK_STAT
      fHUB_CLK_STAT_SWITCHES
    .next (if s.hub.clkLost then s2.clkMiss (!b) else s2)

/-! ### Scrubbing (R387, Table 19-2) -/

/-- SCRUB (R387): a scrubber meets an error in memory `mem` (1 coefficient RAM, 2 structure bank, 5 sequence memory, 6 Cobbler
SRAM), at an address as HUB_ECC_ADDR gives it; `ue`: uncorrectable. Staging SRAM and capture buffer are not scrubbed. -/
def execScrub (mem : Fin 7) (clu : Clu) (addr : Nat) (ue : Bool) (s : State) : Out :=
  if mem = 0 || mem = 3 || mem = 4 then .next s
  else if !ue then .next s.eccCe
  else
    let s1 := s.memUe mem clu.val addr
    if mem = 6 then
      let s2 := { s1 with cob := { s1.cob with keys := s1.nor.keys }, polSigned := s1.nor.polSigned }
      let s3 := (List.range 44).foldl (fun (u : State) i =>
        let d := sensorReset i
        u.setSensor i { u.sensor i with
          warnLo := d.warnLo, warnHi := d.warnHi, alarmLo := d.alarmLo, alarmHi := d.alarmHi, act := d.act }) s2
      s3.refreshAlarmed.coreLost .idle
    else .next s1

end Sys2Proof.Machine
end

