-- ==== Sys2Proof/Machine/Scan.lean ====
section
/-!
DEFINITION. The meanings of the rows of chapter 20: the test access port. An instruction's row is its Update-IR; `scan` is a scan of
the boundary register that follows it, or one under the instruction that is there.
-/

namespace Sys2Proof.Machine

/-- Cells of a segment (Table 20-2): 51 of a cluster, 41 of the hub. -/
def segCells (g : Nat) : Nat := if g = 16 then 41 else 51

/-- Segments included in the boundary register (TST_SEG_IN). -/
def State.segIn (s : State) : Nat := (s.rd TST_SEG_IN).toNat % 2 ^ 17

/-- Cells of the boundary register from the TDO end: clusters 15 to 0, then the hub, each from its cell 0 (R401). -/
def State.scanPath (s : State) : List Nat :=
  (((List.range 16).reverse ++ [16]).filter (fun g => s.segIn.testBit g)).flatMap (fun g => (List.range (segCells g)).map (64 * g + ·))

/-- Is a selected segment excluded (R402)? -/
def State.segOut (s : State) (g : Nat) : Bool :=
  if g = 16 then allClu.any (fun c => s.pwr c != 0) else s.pwr g != 0 || s.isolated (g / 4)

/-- Decide the inclusion of each segment (R402). -/
def State.decideSegs (s : State) : State :=
  let sel := (s.rd TST_SEG_SEL).toNat
  let out := (List.range 17).filter (fun g => sel.testBit g && s.segOut g)
  let in_ := ((List.range 17).filter (fun g => sel.testBit g && !s.segOut g)).foldl (fun m g => m + 2 ^ g) 0
  (s.wr TST_SEG_IN (BitVec.ofNat 32 in_)).raiseIf (!out.isEmpty) TST_STAT fTST_STAT_EXCLUDED

/-- Update-IR of an opcode (R399, R402, R403, R407): the instruction register had captured 0b0000_0001; `dr` is what its data register
captures, with its length. -/
def State.updateIR (s : State) (op : Nat) (testMode : Bool) (dr len : Nat) : State :=
  let s1 := (s.setFld TST_STAT fTST_STAT_IR op).decideSegs
  let test := testMode && !s.bit TST_CTL fTST_CTL_TEST_LOCK
  let s2 := s1.setTest (if test then s1.segIn else 0)
  { s2 with jtag := { s2.jtag with ir := 1, dr, len } }

/-! ### Levels of the digital balls (Tables 22-4 and 22-5): isolation decides first, then test mode, then the power state (R423) -/

/-- Ball MRK_gg. -/
def State.mrkPin (s : State) (g : Nat) : Option Bool :=
  if s.isolated (g / 4) then some false else if s.segTest g then s.scanBall g 49 50 else some (s.mrkLevel g)

/-- Ball k of quad q's range link (0 RLCK, 1 RLDO, 2 RLSY) in bit i of its frame; RLCK, whose edges are timing (assumption 42), is given
by its high half. Low in OFF, not driven in a tile that is DOWN or isolated (R423). -/
def State.rangePin (s : State) (q k i : Nat) : Option Bool :=
  if s.isolated (q / 32) then none
  else if s.segTest (q / 8) then s.scanBall (q / 8) (3 * (q % 8) + k) 24
  else if !s.tileOn (q / 32) then none
  else match s.linkFrame q with
    | none => some false
    | some (d, y) => some (if k = 0 then decide (i < 26) else (if k = 1 then d else y).getD i false)

/-- Ball TRG_b. -/
def State.trgPin (s : State) (b : Nat) : Option Bool :=
  if s.segTest 16 then s.scanBall 16 (Config.hubCell b) (Config.hubCell 8) else some (s.trgLevel b)

/-- Ball FAULT_N, open drain: low or not driven (R390, R405). -/
def State.faultPin (s : State) : Option Bool :=
  let low := if s.segTest 16 then s.scanBall 16 (Config.hubCell 9) (Config.hubCell 10) == some false
    else s.bit HUB_FAULT_STAT fHUB_FAULT_STAT_ASSERTED
  if low then some false else none

/-- Ball WAKE_N: high impedance but under a boundary scan (Table 22-5). -/
def State.wakePin (s : State) : Option Bool :=
  if s.segTest 16 then s.scanBall 16 (Config.hubCell 11) (Config.hubCell 12) else none

/-- Transmit pair of the PCIe link (0 to 3) or of a Skidline port (4 to 7) in test mode, at high impedance or a level (R397, R403, R405); with
the hub out of test mode it carries the link, which is none here. `tck`: TCK cycles since Run-Test/Idle was entered, 0 outside it: IEEE 1149.6
has EXTEST_PULSE invert the cell for as long, and EXTEST_TRAIN once a cycle (PRESUMED, assumption 41). -/
def State.txPin (s : State) (p tck : Nat) : Option Bool :=
  if !s.segTest 16 then none
  else
    let k := if p < 4 then 13 + p else 24 + p
    let op := s.fld TST_STAT fTST_STAT_IR
    let flip := (op = 6 && tck != 0) || (op = 7 && tck % 2 = 1)
    (s.scanBall 16 (Config.hubCell k) (Config.hubCell (if p < 4 then 17 else 32))).map (· != flip)

/-- Ball TDO: driven only in Shift-IR and Shift-DR (R424), where bit k of what the register captured follows k shifts. -/
def State.tdoPin (s : State) (shift : Option (Bool × Nat)) : Option Bool :=
  shift.map (fun x => if x.1 then s.jtag.ir.testBit x.2 else s.jtag.dr.testBit x.2)

/-! ### The boundary register (R401) -/

/-- Level that a cell captures where the device gives it: the balls that it drives, what it sees at its inputs. None: a control cell, or a
ball whose level only the outside knows. -/
def State.cellLevel (s : State) (x : Nat) : Option Bool :=
  let g := x / 64
  let k := x % 64
  if g < 16 then
    if k < 24 then s.rangePin (8 * g + k / 3) (k % 3) 0
    else if k = 24 || k = 50 then none
    else if k = 49 then s.mrkPin g
    else if k % 3 = 1 then some (s.evlLevel (8 * g + (k - 25) / 3))
    else if k % 3 = 2 then s.evlPin (8 * g + (k - 25) / 3)
    else none
  else
    match (List.range 41).find? (fun i => Config.hubCell i == k) with
    | some i =>
      if i < 8 then s.trgPin i
      else if i = 9 then some (!(s.faultPin == some false || s.bit HUB_FAULT_STAT fHUB_FAULT_STAT_PIN_LOW))
      else if i = 11 then s.wakePin
      else if 13 ≤ i && i < 17 then s.txPin (i - 13) 0
      else if i = 23 then some (!s.hub.perstLow)
      else if 28 ≤ i && i < 32 then s.txPin (i - 24) 0
      else if i = 37 then some (!s.bit HUB_HALT_STAT fHUB_HALT_STAT_BALL_LOW)
      else if 38 ≤ i then some (s.hub.straps.testBit (i - 38))
      else none
    | none => none

/-- A scan of the boundary register: its cells capture, bits are shifted in from TDI, and Update-DR loads the cells with what is then there:
with no shift, what they captured (R401, R406). -/
def State.scanCells (s : State) (b : BScan) : State :=
  let path := s.scanPath
  let n := path.length
  let dr := path.zipIdx.foldl (fun v x => v + ((s.cellLevel x.1).getD (b.sampled.testBit x.2)).toNat * 2 ^ x.2) 0
  let k := min n b.shifts
  let held := dr / 2 ^ k + b.shifted % 2 ^ k * 2 ^ (n - k)
  let cells := path.zipIdx.foldl (fun m x => SMap.set false m x.1 (held.testBit x.2)) s.jtag.cells
  { s with jtag := { s.jtag with cells, dr, len := n } }

/-- The port takes an instruction unless TRST_N holds it in Test-Logic-Reset (R398). -/
def State.tapDo (s : State) (f : State → State) : Out := if s.jtag.trst then .next s else .next (f s)

/-- An instruction that selects the boundary register, with its Update-IR or already in the instruction register; locked, a test-mode
instruction is BYPASS (R407). -/
def State.boundary (s : State) (op : Nat) (testMode : Bool) (x : TapScan) : State :=
  let s1 := if x.load then s.updateIR op testMode 0 1 else s
  if s1.fld TST_STAT fTST_STAT_IR != op || (testMode && s.bit TST_CTL fTST_CTL_TEST_LOCK) then s1
  else match x.scan with
    | some b => s1.scanCells b
    | none => s1

/-! ### The rows -/

/-- TAP_RESET (R398). -/
def execTapReset (s : State) : Out := .next s.tapReset

/-- TRST_N (R398, Table 18-5): it falls; the port only. It holds Test-Logic-Reset until a sample tick finds it high. -/
def execTrstN (s : State) : Out :=
  let s1 := s.tapReset
  .next { s1 with jtag := { s1.jtag with trst := true } }

/-- IDCODE (R400). -/
def execIdcode (s : State) : Out := s.tapDo (·.updateIR 1 false idcodeWord 32)

/-- SAMPLE/PRELOAD (Table 20-1). -/
def execSamplePreload (scan : TapScan) (s : State) : Out := s.tapDo (·.boundary 2 false scan)

/-- EXTEST (R403). -/
def execExtest (scan : TapScan) (s : State) : Out := s.tapDo (·.boundary 3 true scan)

/-- CLAMP (R403). -/
def execClamp (s : State) : Out := s.tapDo (·.updateIR 4 true 0 1)

/-- HIGHZ (R403). -/
def execHighz (s : State) : Out := s.tapDo (·.updateIR 5 true 0 1)

/-- EXTEST_PULSE (R397, R403). -/
def execExtestPulse (scan : TapScan) (s : State) : Out := s.tapDo (·.boundary 6 true scan)

/-- EXTEST_TRAIN (R397, R403). -/
def execExtestTrain (scan : TapScan) (s : State) : Out := s.tapDo (·.boundary 7 true scan)

/-- ECIDCODE (R400). -/
def execEcidcode (s : State) : Out := s.tapDo (·.updateIR 8 false Config.uid.toNat 64)

/-- SEGSEL (R402): Update-IR, then Update-DR of the segment select register with `sel`. -/
def execSegsel (sel : Fin 131072) (s : State) : Out :=
  s.tapDo fun s =>
    let s1 := s.updateIR 9 false (s.rd TST_SEG_SEL).toNat 17
    (s1.wr TST_SEG_SEL (BitVec.ofNat 32 sel)).decideSegs

/-- BYPASS, and every opcode not listed, which the instruction register then shows as BYPASS (R399; DESIGN CHOICE, assumption 41). -/
def execBypass (s : State) : Out := s.tapDo (·.updateIR 0xFF false 0 1)

/-- TEST_LOCK (R407): a write of TST_CTL. -/
def execTestLock (on : Bool) (s : State) : Out :=
  let s1 := s.setBit TST_CTL fTST_CTL_TEST_LOCK on
  .next (if on then s1.setTest 0 else s1)

end Sys2Proof.Machine
end

