-- ==== Sys2Proof/Machine/Bus.lean ====
section
/-!
DEFINITION. A write of one 32-bit word at a BAR0 offset that the DMA engine makes (R265): it has the effects that the rows give the
same write of the host. A write of the host reaches the model as its row.
-/

namespace Sys2Proof.Machine

/-- Apply in turn the commands whose bit is set. -/
def State.acts (s : State) (fs : List (Bool × (State → Out))) : State := fs.foldl (fun t f => if f.1 then t.andThen f.2 else t) s

/-- A request that carries no TLP: the engine's own. -/
def engineReq : Req := ⟨0, Tlp.zero⟩

/-- A word written to the hub's space. -/
def State.hubWrite (s : State) (a : Nat) (w : Word) : State :=
  let b (i : Nat) : Bool := w.getLsbD i
  let f (lsb n : Nat) : Nat := bits w.toNat lsb n
  let plain (s : State) : Out := s.writeReg a w 15 ⟨engineReq, 0⟩
  let d : Dma := Fin.ofNat 32 (a / 0x100)
  if a = HUB_FAULT_CLR then s.acts [(b 0, execFaultClear)]
  else if a = HUB_ISO_CMD then s.acts [(true, execTileIsolate (Fin.ofNat 256 (f 0 8)) (Fin.ofNat 16 (f 8 4)))]
  else if a = HUB_CLK_CTL then s.acts [(true, execClockSelect (b 0))]
  else if a = HUB_HALT then s.acts [(b 0, fun s => .next (let t := (s.haltLatch .doorbell).elog 0x24 0 Tlp.zero HUB_HALT
    if b 1 then t.sendHalt else t))]
  else if a = HUB_HALT_REL then s.acts [(b 0, execHaltRelease)]
  else if a = HUB_COMMIT then s.acts [(b 0, execCommit 16 (b 1) (b 2))]
  else if a = HUB_COMMIT_CANCEL then s.acts [(b 0, execCommitCancel 16)]
  else if 0x20000 ≤ a && a < 0x22000 && a % 0x100 = 4 then
    s.acts [(b 0, execDmaStart d), (b 1, execDmaAbort d), (b 2, execDmaResume d), (b 3, execDmaKick d)]
  else if a = PCI_LINK_CMD then s.acts [(b 0, execWiden)]
  else if a = SKL_CTL then s.acts [(true, plain), (true, execSklEnable (b 0))]
  else if a = SKL_HALT_REL then s.acts [(b 0, execSklHaltRelease (b 1))]
  else if a = PWR_CLU_CMD then
    s.acts [(true, execClusterPowerCmd (Fin.ofNat 65536 (f 0 16)) (Fin.ofNat 4 (f 16 2)) (b 18))]
  else if a = PWR_TILE_CMD then
    s.acts [(b 4, execTileUp (Fin.ofNat 16 (f 0 4))), (b 5 && !b 4, execTileDown (Fin.ofNat 16 (f 0 4)))]
  else if a = PWR_DRAM_CMD then s.acts [(b 2, execDramCmd (Fin.ofNat 4 (f 0 2)))]
  else if a = PWR_RST_CMD then s.acts [(true, execPwrRstCmd (Fin.ofNat 256 (f 0 8)))]
  else if a = PWR_TALLY_CLR then s.acts [(b 0, execTallyClear)]
  else if a = CAL_SESS_GO then
    s.acts [(b 0, execCalSessionStart (Fin.ofNat 16 (f 4 4)) (b 2)), (b 1, execCalSessionAbort)]
  else if a = CAL_WTRIM_GO then s.acts [(b 11, execWindowTrim (Fin.ofNat 512 (f 0 9)) (b 9) (b 10))]
  else if a = TST_CTL then s.acts [(true, execTestLock (b 0))]
  else s.acts [(true, plain)]

/-- A word written to the space of channel n, at offset y of its 4 KiB. -/
def State.chanWrite (s : State) (n : Nat) (y a : Nat) (w : Word) : State :=
  let b (i : Nat) : Bool := w.getLsbD i
  let f (lsb k : Nat) : Nat := bits w.toNat lsb k
  let c : Ch := Fin.ofNat 512 n
  if 0x800 ≤ y && y < 0xC00 then s.acts [(true, fun s => s.writeCoef a w 15 engineReq)]
  else if a = CH_COEF_SWAP n then s.acts [(b 0, execCoefSwapRequest c (b 1)), (b 2, execCoefSwapCancel c)]
  else if a = CH_SAFE_CODE n then s.acts [(true, execSafeCodeWrite c w 15)]
  else if a = CH_DAC_CTL n then s.acts [(true, execForceSafeWrite c w 15)]
  else if a = CH_RANGE_REQ n then
    s.acts [(b 8 && !b 3 && !b 6, execRangeCancel c), (b 3, execRangeRequestI c (Fin.ofNat 8 (f 0 3)) (b 7) (b 8)),
      (b 6, execRangeRequestV c (Fin.ofNat 4 (f 4 2)) (b 7) (b 8 && !b 3))]
  else if a = CH_MODEL_CMD n then s.acts [(b 0, execModelReinit c)]
  else if a = CH_INJ_GO n then s.acts [(b 0, execInjectionStart c (b 2)), (b 1, execInjectionStop c)]
  else if a = WIN_TEST n 0 then s.acts [(true, execWindowTest c .v w 15)]
  else if a = WIN_TEST n 1 then s.acts [(true, execWindowTest c .i w 15)]
  else if a = WIN_BLANK_GO n then s.acts [(b 0, execManualBlank c)]
  else if a = PG_GO n then s.acts [(b 0, execPgStart c (b 2)), (b 1, execPgStop c), (b 3, execPgRelease c)]
  else if a = SEQ_GO n then
    s.acts [(b 0, execTrackArm c), (b 1, execTrackStart c (b 2)), (b 3, execTrackStop c), (b 4, execHostEvt c)]
  else if a = SEQ_JUMP n then s.acts [(b 12, execHostJump c (f 0 12) (b 13))]
  else if a = SEQ_FILL n then s.acts [(true, execTrackFill c (f 0 12))]
  else if a = APT_GO n then s.acts [(b 0, execApertureStartCmd c (b 2)), (b 1, execApertureStop c)]
  else if a = APT_RAW_GO n then s.acts [(b 0, execRawCaptureStart c (b 2)), (b 1, execRawCaptureStop c)]
  else s.acts [(true, fun s => s.writeReg a w 15 ⟨engineReq, 0⟩)]

/-- A word written to the registers of cluster g, at offset y. -/
def State.cluWrite (s : State) (g y a : Nat) (w : Word) : State :=
  let b (i : Nat) : Bool := w.getLsbD i
  let f (lsb k : Nat) : Nat := bits w.toNat lsb k
  let c : Clu := Fin.ofNat 16 g
  let x : Elg := Fin.ofNat 32 (2 * g + (if 0x590 ≤ y then 1 else 0))
  if a = CLU_BANK_CTL g then s.acts [(b 0, execValidate c), (b 1, execInvalidate c)]
  else if a = CLU_COMMIT g then s.acts [(b 0, execCommit (Fin.ofNat 17 g) (b 1) (b 2))]
  else if a = CLU_COMMIT_CANCEL g then s.acts [(b 0, execCommitCancel (Fin.ofNat 17 g))]
  else if a = CLU_ENG_TEST g then s.acts [(b 0, execResidueTest c (Fin.ofNat 8 (f 8 3)) (Fin.ofNat 4 (f 12 2)))]
  else if a = CLU_CAP_GO g then s.acts [(b 0, execCaptureArm c), (b 1, execCaptureStop c), (b 2, execCaptureForce c)]
  else if a = CLU_SEQ_START g then s.acts [(true, execCluSeqStart c w)]
  else if a = CLU_SEQ_START_AT g then s.acts [(true, execCluSeqStartAt c w)]
  else if a = CLU_SEQ_STOP g then s.acts [(true, execCluSeqStop c w)]
  else if a = CLU_SEQ_HOST g then s.acts [(true, execCluSeqHost c w)]
  else if a = EVL_GRP_GO g (x % 2) then
    s.acts [(b 0, execEvlArm x), (b 1, execEvlStart x (b 2)), (b 3, execEvlStop x)]
  else if a = EVL_GRP_FILL g (x % 2) then s.acts [(true, execEvlFill x (f 0 16))]
  else s.acts [(true, fun s => s.writeReg a w 15 ⟨engineReq, 0⟩)]

/-- One word that the engine writes at a BAR0 offset: discarded at a tile that does not answer (R38). -/
def State.busWrite (s : State) (a : Nat) (w : Word) : State :=
  if a < 0x1000000 || 0x5000000 ≤ a then s.hubWrite a w
  else if !s.answers a then s.discardReq ((a - 0x1000000) / 0x1000000) a engineReq
  else
    let g := (a - 0x1000000) / 0x400000
    let y := a % 0x400000
    if 0x100000 ≤ y && y < 0x300000 then s.acts [(true, fun s => s.writeBank a w 15 engineReq)]
    else if 0x10000 ≤ y && y < 0x30000 then s.chanWrite (32 * g + (y - 0x10000) / 0x1000) (y % 0x1000) a w
    else if 0x30000 ≤ y && y < 0x30800 && y % 0x100 = 0 then
      let q : Quad := Fin.ofNat 128 (8 * g + (y - 0x30000) / 0x100)
      let k : Fin 4 := Fin.ofNat 4 w.toNat
      let l : Fin 4 := Fin.ofNat 4 (w.toNat / 4)
      s.acts [(w.getLsbD 4, execSliceTake q k l), (w.getLsbD 5, execSliceRestore q k l)]
    else s.cluWrite g y a w

/-- A byte that the engine reads at a BAR0 offset. -/
def State.busByte (s : State) (a : Nat) : Byte := BitVec.ofNat 8 ((s.readReg (a / 4 * 4) 0).toNat / 256 ^ (a % 4))

/-- Reading a word at a BAR0 offset loads the latch of a _LO register (R17). -/
def State.busTouch (s : State) (a : Nat) : State := s.loadLatch (a / 4 * 4) 0

end Sys2Proof.Machine
end

