-- ==== Sys2Proof/Machine/DmaBurst.lean ====
section
/-!
DEFINITION. The bytes a MOVE moves: reshuffles, bursts, bus errors (R270, R274 to R276, R279, R280).
-/

namespace Sys2Proof.Machine

/-! ### Mapping (Table 13-5) -/

/-- Destination address of line l of a MOVE. -/
def MoveSt.lineAddr (m : MoveSt) (l : Nat) : Nat :=
  if m.shuf = 2 then m.dst + l % m.f * m.stride + 64 * (l / m.f) else m.dst + 64 * l

/-- Bytes per element. -/
def MoveSt.es (m : MoveSt) : Nat := if m.esize = 0 then 4 else 8

/-- Address of the source byte that gives byte b of destination line l (SHUF 0 to 2). -/
def MoveSt.srcAddr (m : MoveSt) (l b : Nat) : Nat :=
  if m.shuf = 1 then
    let p := 64 * l + b
    let e := p / m.es
    m.src + e % m.f * m.stride + e / m.f * m.es + p % m.es
  else if m.shuf = 2 then
    let e := (64 * (l / m.f) + b) / m.es
    m.src + (e * m.f + l % m.f) * m.es + b % m.es
  else m.src + 64 * l + b

/-- Eight bits as a byte, bit 0 first. -/
def byteOf (f : Nat → Bool) : Byte := BitVec.ofNat 8 (bitsOf 8 f)

/-- Byte b of destination line l of a transpose or untranspose, from the source bytes (R254). -/
def MoveSt.planeByte (m : MoveSt) (rd : Nat → Byte) (l b : Nat) : Byte :=
  let base := m.src + 1024 * (l / 16)
  if m.shuf = 3 then
    let p := l % 16
    byteOf (fun i => (rd (base + 2 * (8 * b + i) + p / 8)).getLsbD (p % 8))
  else
    let v := (64 * (l % 16) + b) / 2
    byteOf (fun i => (rd (base + 64 * (8 * (b % 2) + i) + v / 8)).getLsbD (v % 8))

/-- The 64 bytes of destination line l, from the source bytes. -/
def MoveSt.lineBytes (m : MoveSt) (rd : Nat → Byte) (l : Nat) : List Byte :=
  (List.range 64).map (fun b => if m.shuf = 3 || m.shuf = 4 then m.planeByte rd l b else rd (m.srcAddr l b))

/-- Words of the source that are read for a line; those of a block of bit planes with its first line. -/
def MoveSt.lineWords (m : MoveSt) (l : Nat) : List Nat :=
  if m.shuf = 3 || m.shuf = 4 then (if l % 16 = 0 then (List.range 256).map (fun i => m.src + 1024 * (l / 16) + 4 * i) else [])
  else ((List.range 16).map (fun i => m.srcAddr l (4 * i)))

/-- Spans of the source that a line is read from: one of 64 bytes, one for each element, or for a transpose the 1,024 bytes of its
block, read with the block's first line. -/
def MoveSt.lineReads (m : MoveSt) (l : Nat) : List (Nat × Nat) :=
  if m.shuf = 3 || m.shuf = 4 then (if l % 16 = 0 then [(m.src + 1024 * (l / 16), 1024)] else [])
  else if m.shuf = 0 then [(m.srcAddr l 0, 64)]
  else (List.range (64 / m.es)).map (fun e => (m.srcAddr l (m.es * e), m.es))

/-- The byte at an address, from the bytes of spans read one after the other. -/
def spanByte : List (Nat × Nat) → List Byte → Nat → Byte
  | [], _, _ => 0
  | x :: xs, bs, a => if x.1 ≤ a && a < x.1 + x.2 then bs.getD (a - x.1) 0 else spanByte xs (bs.drop x.2) a

/-! ### Bursts -/

/-- Spans of the source that a burst of n lines reads. -/
def MoveSt.burstReads (m : MoveSt) (n : Nat) : List (Nat × Nat) := (List.range n).flatMap (fun i => m.lineReads (m.lines + i))
/-- Bytes of them. -/
def MoveSt.burstNeed (m : MoveSt) (n : Nat) : Nat := (m.burstReads n).foldl (fun k x => k + x.2) 0

/-- The bytes of the block that a transpose of host data is in: read with the block's first line, kept for its other bursts. -/
def MoveSt.blockOf (m : MoveSt) (host : List Byte) : List Byte := if m.lines % 16 = 0 then host.take 1024 else m.block

/-- The byte that host memory gives at a source address of the burst. -/
def MoveSt.hostByte (m : MoveSt) (host : List Byte) (n a : Nat) : Byte :=
  if m.shuf = 3 || m.shuf = 4 then (m.blockOf host).getD (a - (m.src + 1024 * (m.lines / 16))) 0 else spanByte (m.burstReads n) host a

/-- What reading the source of n lines does: requests for host memory, the latches of registers. -/
def State.dmaRead (s : State) (d : Nat) (m : MoveSt) (n : Nat) : State :=
  if m.ssp = 1 then s.over ((List.range n).flatMap (fun i => m.lineWords (m.lines + i))) State.busTouch
  else if m.ssp = 2 then s.over ((m.burstReads n).flatMap (fun x => splitReq s.maxRead (s.hostBase d + x.1) x.2))
    (fun t y => t.issue (.memRead y.1 y.2))
  else s

/-- The lines of a burst: destination addresses and bytes, as the burst buffer takes them. -/
def State.dmaLines (s : State) (m : MoveSt) (host : List Byte) (n : Nat) : List (Nat × List Byte) :=
  (List.range n).map (fun i => (m.lineAddr (m.lines + i), m.lineBytes (fun a =>
    if m.ssp = 0 then s.seqMem.read a else if m.ssp = 1 then s.busByte a else m.hostByte host n a) (m.lines + i)))

/-- Write bytes of a line to their space; those for host memory go out in writes of at most the Max Payload Size. -/
def State.dmaWriteLine (s : State) (d sp a : Nat) (bytes : List Byte) : State :=
  if sp = 0 then { s with seqMem := s.seqMem.writeBytes a bytes }
  else if sp = 1 then
    (List.range (bytes.length / 4)).foldl (fun t k => t.busWrite (a + 4 * k) (BitVec.ofNat 32 (leAt bytes (4 * k) 4))) s
  else
    let t := { s with host := { s.host with mem := s.host.mem.writeBytes (s.hostBase d + a) bytes } }
    (splitReq s.maxWrite (s.hostBase d + a) bytes.length).foldl (fun t x => t.issue (.memWrite x.1 x.2)) t

/-- Update the MOVE in progress. -/
def State.updMove (s : State) (d : Nat) (f : MoveSt → MoveSt) : State := s.updDma d (fun x => { x with move := x.move.map f })

/-- Move beats of the burst in the buffer of channel d, 32 bytes each, `k` at most: a line of two beats is one write. -/
def State.dmaBeats (d : Nat) : Nat → State → State
  | 0, s => s
  | k + 1, s =>
    match (s.dmaCh d).move with
    | none => s
    | some m =>
      match m.buf with
      | [] => s
      | (a, bytes) :: rest =>
        let whole (t : State) : State := (t.updMove d (fun x => { x with buf := rest, lines := x.lines + 1 })).dmaWriteLine d m.dsp a bytes
        if bytes.length ≤ 32 then State.dmaBeats d k (whole s)
        else match k with
          | 0 => (s.updMove d (fun x => { x with buf := (a + 32, bytes.drop 32) :: rest })).dmaWriteLine d m.dsp a (bytes.take 32)
          | j + 1 => State.dmaBeats d j (whole s)

/-- Take the token of a burst that begins. -/
def State.takeToken (s : State) (m : MoveSt) : State :=
  if m.reqEn then
    let a := DMA_REQ_TOK m.req
    (s.setFld a fDMA_REQ_TOK_TOKENS (s.fld a fDMA_REQ_TOK_TOKENS - 1)).tokenShow m.req
  else s

/-- The next burst of a MOVE begins: n lines are read into its buffer, with a token where it needs one. -/
def State.dmaBegin (s : State) (d : Nat) (m : MoveSt) (host : List Byte) (n : Nat) : State :=
  let s1 := s.dmaRead d m n
  let m' := { m with buf := s1.dmaLines m host n, block := if m.ssp = 2 && 3 ≤ m.shuf then m.blockOf host else [] }
  (s1.updDma d (fun x => { x with move := some m' })).takeToken m

/-! ### Arbitration (R275) -/

def State.dmaPrio (s : State) (d : Nat) : Nat := s.fld (DMA_CH_CTL d) fDMA_CH_CTL_PRIO

/-- Channel d has a burst to move; `ready` names the channels that have their read data or buffer space. -/
def State.dmaReady (s : State) (ready d : Nat) : Bool :=
  match (s.dmaCh d).move with
  | some m => ready.testBit d && s.dmaActive d && decide (m.lines < m.total) && !s.tokenWait m
  | none => false

/-- A channel's place after the one last served at its priority, in ascending order from 31 to 0. -/
def State.dmaPlace (s : State) (d : Nat) : Nat := (d + 31 - s.hub.dmaTurn.getD (s.dmaPrio d) 31) % 32

/-- A channel is in the middle of a burst. -/
def State.dmaMid (s : State) (d : Nat) : Bool := match (s.dmaCh d).move with | some m => !m.buf.isEmpty | none => false

/-- No other ready channel has the data path before channel d: none of a higher priority, and none of its own that is in the middle of a
burst or, where d is not, whose turn comes first. -/
def State.dmaGranted (s : State) (ready d : Nat) : Bool :=
  (List.range 32).all (fun e => e == d || !s.dmaReady ready e || decide (s.dmaPrio e < s.dmaPrio d) ||
    (s.dmaPrio e == s.dmaPrio d && (s.dmaMid d || (!s.dmaMid e && decide (s.dmaPlace d < s.dmaPlace e)))))

/-- Channel d was the last served at its priority. -/
def State.dmaServed (s : State) (d : Nat) : State :=
  { s with hub := { s.hub with dmaTurn := s.hub.dmaTurn.set (s.dmaPrio d) d } }

/-- Every write of the MOVE has been issued: the next instruction, or the wait of a BARRIER, for host memory with a zero-length read of
the last 64 bytes (R276), which a link that is down cannot carry (R280). -/
def State.dmaIssued (s : State) (d : Nat) (m : MoveSt) : State :=
  if !m.barrier then s.dmaGo d (s.dmaPc d + 1)
  else if m.dsp = 2 && !s.host.linkUp then s.dmaStop d 4
  else (if m.dsp = 2 then s.issue (.memRead (s.hostBase d + m.lineAddr (m.total - 1)) 0) else s).setDmaState d dmWaiting

/-- What a channel does between bursts: the end of an aborted MOVE, the wait for a token, the end of the MOVE. -/
def State.dmaNextBurst (s : State) (d : Nat) : State :=
  match (s.dmaCh d).move with
  | none => s
  | some m =>
    if !s.dmaActive d || !m.buf.isEmpty then s
    else if m.abort then s.dmaStop d 2
    else if m.total ≤ m.lines then s.dmaIssued d m
    else if s.tokenWait m then s.dmaTokenWait d
    else s

/-- DMA_MOVE (R269, R282): the MOVE at PC is checked and begins, or stops the channel. -/
def execDmaMove (d : Dma) (s : State) : Out :=
  let m := s.dmaMoveAt d
  let c := s.dmaCheck d m
  .next (s.dmaExec d 1 (if c != 0 then (s.updDma d (fun x => { x with skip := 0 })).dmaStop d c
    else (s.updDma d (fun x => { x with move := some { m with lines := x.skip / 64 }, skip := 0 })).dmaNextBurst d))

/-- A read of sequence memory meets the failed LPDDR5 stacks (Table 19-4, R279). -/
def State.stackError (s : State) (a : Nat) : State := (s.dmaBusStop 0 5 a).eccUe 5 0 a

/-- DMA_BURST (R270, R274 to R277, R280): channel d moves its next burst, at most four destination lines of 64 bytes, or as many of its
beats as come before a channel of a higher priority; it goes on with a burst that was pre-empted. It moves nothing while the data path
belongs to another of the channels that are ready. -/
def execDmaBurst (d : Dma) (inp : BurstIn) (s : State) : Out :=
  match (s.dmaCh d).move with
  | none => .next s
  | some m =>
    if !s.dmaActive d then .next s
    else if m.total ≤ m.lines then .next (if s.dmaState d = dmRunning then s.dmaIssued d m else s)
    else if s.tokenWait m then .next (s.dmaTokenWait d)
    else
      let usesHost := m.ssp = 2 || m.dsp = 2
      let n := min 4 (m.total - m.lines)
      if usesHost && !s.host.linkUp then .next (s.dmaStop d 4)
      else if (usesHost && (s.host.retraining || !s.host.cfg.busMaster)) || !s.dmaGranted inp.ready d then .next s
      else if m.buf.isEmpty && m.ssp = 0 && s.hub.stackBad then .next (s.stackError (m.srcAddr m.lines 0))
      else if m.buf.isEmpty && m.ssp = 2 && inp.host.length < m.burstNeed n then .next s
      else
        let s1 := (s.setDmaState d dmRunning).dmaServed d
        let s2 := if m.buf.isEmpty then s1.dmaBegin d m inp.host n else s1
        .next ((State.dmaBeats d inp.beats s2).dmaNextBurst d)

/-- Class of the link and error log for a KIND of DMA_ERR_INFO (Table 15-5); 0 for the error of sequence memory. -/
def busClass (kind : Nat) : Nat := if kind = 1 || kind = 2 then 0x0F else if kind = 3 then 0x07 else if kind = 4 then 0x09 else 0

/-- DMA_BUS_ERROR (R279): a read fails in space `space` with `kind` of DMA_ERR_INFO at `addr`; every channel stops. `partials`:
for a channel, how many lines of its present burst were already issued and, where its source is host memory, their bytes. An error of the
link is logged as its class; a timeout has no header, that of another completion is open (assumption 30). -/
def execDmaBusError (space : Fin 3) (kind : Nat) (addr : Nat) (partials : List (Nat × Nat × List Byte)) (s : State) : Out :=
  let one (t : State) (d : Nat) : State :=
    match (t.dmaCh d).move, partials.find? (fun p => p.1 == d) with
    | some m, some (_, n, host) =>
      let most := min 4 (m.total - m.lines)
      if !t.dmaActive d || n = 0 || t.tokenWait m || (m.buf.isEmpty && m.ssp = 2 && host.length < m.burstNeed most) then t
      else State.dmaBeats d (min (2 * n) 7) (if m.buf.isEmpty then t.dmaBegin d m host most else t)
    | _, _ => t
  let s1 := ((List.range 32).foldl one s).dmaBusStop space kind addr
  if kind = 5 then .next (s1.eccUe 5 0 addr)
  else if busClass kind = 0 then .next s1
  else if kind = 4 then .next (s1.elog 9 0 Tlp.zero addr)
  else
    let (h, s2) := s1.freeTlp
    .next (s2.elog (busClass kind) 0 h addr)

end Sys2Proof.Machine
end

