-- ==== Sys2Proof/Machine/Due.lean ====
section
/-!
DEFINITION. The items of Table 03-6 that are due at the coming tick, in the order in which the clusters apply them (R96, R97, R373).
-/

namespace Sys2Proof.Machine

/-- The state that a command leaves. -/
def State.run (s : State) (f : State → Out) : State :=
  match f s with
  | .next t => t
  | .fault _ => s
  | .refused _ => s

/-- Run an item, if its stamp (none: it has none) is among those asked for. -/
def State.item (p : Option Nat → Bool) (stamp : Option Nat) (f : State → Out) (s : State) : State :=
  if p stamp then s.run f else s

/-- The channels that hold any state of their own. -/
def State.chKeys (s : State) : List Ch := s.ch.filterMap (fun x => if h : x.1 < 512 then some ⟨x.1, h⟩ else none)
/-- The lanes that have edges to come. -/
def State.edgeLanes (s : State) : List Lane :=
  s.lanes.filterMap (fun x => if h : x.1 < 128 then (if x.2.edges.isEmpty then none else some ⟨x.1, h⟩) else none)

/-! ### Stamps of the items -/

def State.commitStamp (s : State) (g : Nat) : Option Nat := (s.com g).pend.bind (·.due.stamp)
def State.powerStamp (s : State) (g : Nat) : Option Nat := (s.pwrSt g).pend.bind (·.due.stamp)
def State.coefStamp (s : State) (n : Nat) : Option Nat := (s.eng n).coefPend.bind (·.stamp)
def State.rangeDueStamp (s : State) (n : Nat) : Option Nat := (s.rng n).req.bind (·.due.stamp)
def State.startStamp (s : State) (n : Nat) : Option Nat := (s.trk n).startPend.bind (·.stamp)
def State.waitStamp (s : State) (n : Nat) : Option Nat := (s.trk n).play.map (·.start)
def State.closeStamp (s : State) (n : Nat) : Option Nat := (s.apt n).ap.map (·.e)
def State.openStamp (s : State) (n : Nat) : Option Nat := (s.apt n).next
/-- Starts of apertures of unit n that fall due at the coming tick: several where APT_PERIOD is less than the tick's phase (R97, R185). -/
def State.startsDue (s : State) (n : Nat) : Nat :=
  match s.openStamp n, (s.apt n).cfg with
  | some x, some c => if atOrAfter s.nextStamp x then (s.nextStamp + 2 ^ 64 - x) % 2 ^ 64 / max 1 c.period + 1 else 1
  | _, _ => 1
/-- The first cycle boundary after the present tick. -/
def State.boundaryStamp (s : State) : Nat := (s.now / 2 ^ 32 + 1) * 2 ^ 32 % 2 ^ 64

/-- Stamps that items of the device carry. -/
def State.itemStamps (s : State) : List Nat :=
  s.boundaryStamp :: ((List.range 17).filterMap s.commitStamp ++ allClu.filterMap s.powerStamp
    ++ s.chKeys.flatMap (fun n : Ch => [s.coefStamp n, s.rangeDueStamp n, s.startStamp n, s.waitStamp n, s.closeStamp n, s.openStamp n].filterMap id)
    ++ s.edgeLanes.flatMap (fun l => (s.lane l.val).edges.map (fun e => e.stamp % 2 ^ 64)))

/-- A stamp's place in ascending order about the present tick. -/
def State.stampKey (s : State) (x : Nat) : Nat := (x + 2 ^ 63 + 2 ^ 64 - s.now) % 2 ^ 64

/-- The least stamp, of those due at the coming tick, whose place is at least `k`. -/
def State.leastDue (s : State) (k : Nat) : Option Nat :=
  (s.itemStamps.filter (fun x => atOrAfter s.nextStamp x && decide (k ≤ s.stampKey x))).foldl (fun b x =>
    match b with
    | none => some x
    | some y => if s.stampKey x < s.stampKey y then some x else b) none

/-! ### The order of Table 03-6 -/

/-- The due edges of a lane, in ascending order of stamp: `k` of them at most (R260). -/
def State.laneDue (s : State) (p : Option Nat → Bool) (l : Lane) : Nat → State
  | 0 => s
  | k + 1 =>
    let due := (s.lane l).edges.filter (fun e => atOrAfter s.nextStamp (e.stamp % 2 ^ 64) && p (some (e.stamp % 2 ^ 64)))
    match due.foldl (fun (b : Option LaneEdge) e =>
        match b with | none => some e | some y => if s.stampKey (e.stamp % 2 ^ 64) < s.stampKey (y.stamp % 2 ^ 64) then some e else b) none with
    | none => s
    | some e => (s.run (execEvlEdge l e.second)).laneDue p l k

/-- The items that are due at the coming tick and whose stamp is among those asked for, in the order of Table 03-6: commits, then
power transitions (R373), swaps of coefficients, range changes, segments, apertures, event lanes. -/
def State.duePass (s : State) (p : Option Nat → Bool) : State :=
  let s0 := s.over (List.finRange 17) (fun t g => t.item p (t.commitStamp g) (execCommitTick g))
  let s1 := s0.over (List.finRange 16) (fun t g =>
    ((t.item p (t.powerStamp g) (execPowerTransitionStart g)).item p none (execParkSettled g)).item p none (execIdleReached g))
  let s2 := s1.over s1.chKeys (fun t n => t.item p (t.coefStamp n) (execCoefSwapTick n))
  let s3 := s2.over s2.chKeys (fun t n =>
    let a := (t.item p none (execRangeTick n)).item p none (execRangeBreak n)
    let b := a.item p (a.rangeDueStamp n) (execRangeChangeStart n)
    b.item p (b.rangeDueStamp n) (execVoltageRangeStart n))
  let s4 := s3.over s3.chKeys (fun t n =>
    let a := t.item p none (execSegmentEnd n)
    let b := a.item p (a.startStamp n) (execTrackStartTick n)
    let c := b.item p (b.waitStamp n) (execSegmentWaitStart n)
    c.item p none (execUnderrunResume n))
  let s5 := s4.over s4.chKeys (fun t n => t.item p (t.closeStamp n) (execApertureClose n))
  let s6 := s5.over s5.chKeys (fun t n => (List.range (t.startsDue n)).foldl (fun u _ => u.item p (u.openStamp n) (execApertureOpen n)) t)
  let s7 := s6.over (List.finRange 32) (fun t x => t.item p (some s.boundaryStamp) (execEvlCycleBoundary x []))
  s7.over s7.edgeLanes (fun t l => t.laneDue p l (t.lane l).edges.length)

/-- At a forward jump, the due items of the least stamp whose place is at least `k`, and the place after it; none where no stamp is
left. -/
def State.jumpStep (a : State × Option Nat) : State × Option Nat :=
  match a.2.bind a.1.leastDue with
  | none => (a.1, none)
  | some x => (a.1.duePass (· == some x), some (a.1.stampKey x + 1))

/-- At a forward jump, the items with a stamp in ascending order of stamp; `fuel` stamps at most. -/
def State.jumpPass (s : State) (fuel : Nat) : State := ((List.range fuel).foldl (fun a _ => State.jumpStep a) (s, some 0)).1

/-- A step of cluster g's power passage falls at the coming tick. -/
def State.powerDue (s : State) (g : Nat) : Bool :=
  let p := s.pwrSt g
  match p.pend with
  | some q => s.due q.due
  | none => p.goal.isSome && decide (p.next ≤ s.tick + 1)

/-- At a forward jump, for each cluster with a power transition: its commit, then the transition (R373). -/
def State.powerFirst (s : State) : State :=
  s.over ((List.finRange 16).filter (fun g => s.powerDue g.val)) (fun t g =>
    (((t.run (execCommitTick g.castSucc)).run (execPowerTransitionStart g)).run (execParkSettled g)).run (execIdleReached g))

/-- Every item of Table 03-6 that is due at the coming tick and has not been given by a command of its own. At a forward jump the power
transitions and the commits before them come first (R373), then the items without a stamp (DESIGN CHOICE, assumption 3: R97 orders those
with one). -/
def State.settle (s : State) : State :=
  if s.nextIsJump then ((s.powerFirst.duePass (· == none)).jumpPass 4096).duePass (fun _ => true)
  else s.duePass (fun _ => true)

end Sys2Proof.Machine
end

