-- ==== Sys2Proof/Machine/Tick.lean ====
section
/-!
DEFINITION. SAMPLE_TICK (R99): what falls at a sample tick and in the period it begins, in order: power passages, the phase base, the
agenda, codes, samples, tracks, the loop engine, range frames, captures, the chain's frames.
-/

namespace Sys2Proof.Machine

/-! ### The agenda -/

/-- An effect of the agenda, at its tick. -/
def State.laterAct (s : State) : Later → State
  | .hold n b on => if on then s.holdSrc n b else s.releaseSrc n b
  | .safeDac n code => s.updDac n (fun d => { d with safe := code })
  | .blank n => s.loadBlank n (40 * s.tick)
  | .ringWr n len => s.ringAdvance n len
  | .faultClear => s.faultRelease
  | .winTest n w mode => if s.pwr (n / 32) = 0 then s.setFld (WIN_TEST n w) fWIN_TEST_MODE 0 else s.enterTest n (winOf w) mode
  | .trim n w => if s.pwr (n / 32) = 0 then s else s.trimWin n (winOf w) s.tick
  | .haltRelease =>
    if s.bit HUB_HALT_STAT fHUB_HALT_STAT_BALL_LOW then s.raise HUB_HALT_STAT fHUB_HALT_STAT_RELEASE_REFUSED else s.haltDrop [1, 2]
  | .evlStop x => if (s.grp x).stopAt == some s.tick then s.grpEnd x grStopped else s
  | .heldCommit g => s.beginHeld g
  | .freezeEnd g => s.endFreeze g
  | .fault cause => (s.raiseFault cause).sendFault
  | .tileDown t => s.tileFall t
  | .routeAct n w => let (v, t) := s.free; t.windowFree n (winOf w) (v.toNat % 11) (40 * s.tick)

/-- What comes after every other effect of its tick: the clear of FAULT_N (R391), and a window with a new route, within 13 ns of the
tick (R216; the cycle is an open value: assumption 27). -/
def Later.isClear : Later → Bool
  | .faultClear | .routeAct _ _ => true
  | _ => false

/-- What the agenda holds for the present tick, what comes last or all else. -/
def State.dueNow (s : State) (clear : Bool) (x : Nat × Later) : Bool := decide (x.1 ≤ s.tick) && x.2.isClear == clear

/-- Effects of the agenda at the present tick, in the order in which they were put there. -/
def State.drain (s : State) (clear : Bool) : State :=
  (s.later.filter (s.dueNow clear)).foldl (fun t x => t.laterAct x.2)
    { s with later := s.later.filter (fun x => !s.dueNow clear x) }

/-- The releases of the chain halt that are due (R341). -/
def State.chainRelease (s : State) : State :=
  let due (d : Sched) : Bool := d.notBefore ≤ s.tick && (match d.stamp with | some x => atOrAfter s.now x | none => true)
  if s.skl.release.any due then (s.updSkl (fun k => { k with release := k.release.filter (fun d => !due d) })).haltDrop [3] else s

/-! ### Stages of a tick -/

/-- Clusters at least in a power state. -/
def State.clustersAt (s : State) (v : Nat) : List Nat := allClu.filter (fun g => v ≤ s.pwr g)
/-- Their channels. -/
def State.chansAt (s : State) (v : Nat) : List Nat := (s.clustersAt v).flatMap chansOf

/-- Power-on hours (chapter 14): the age of the reference session counts with them. -/
def State.hourTick (s : State) : State :=
  if (s.tick + 1) % 7200000000 = 0 then { s with hours := s.hours + 1 }.incSat CAL_SESS_INFO fCAL_SESS_INFO_AGE else s

/-- Up to the tick: passages of power, the weights of the samples taken before, the phase base (R72). -/
def State.tickPhase (s : State) (phref : Int) : State :=
  let s1 := (s.over allClu (fun t g => t.pwrContinue g (s.tick + 1))).hourTick
  (s1.over (s1.chansAt 2) State.aptTick).phaseTick.phrefTick phref

/-- What acts at the tick: the agenda, releases, ends of pulse runs and of tracks, output modes, GUARD timers, the codes (R100,
R204) and what captures learn from them, windows. -/
def State.tickAct (s : State) : State :=
  let s0 := ((s.over (List.range 128) (fun t l => t.laneHold l (s.tick - 1))).over (s.ch.map (·.1)) State.hostFlags).over (s.chansAt 2) State.trackLost
  let s1 := (s0.drain false).chainRelease
  let s2 := s1.over (s1.chansAt 1) (fun t n => (t.releaseAt n).pgTickEnd n)
  let s3 := s2.over (s2.chansAt 2) (fun t n =>
    let u := t.trackBegin n
    match (u.trk n).stopAt with
    | some x => if x ≤ u.tick then u.trackEnd n else u
    | none => u)
  let s4 := (s3.over (s3.chansAt 2) State.aptEdge).over (s3.ch.map (·.1)) State.modeTick
  let s5 := s4.over (s4.ch.map (·.1)) State.guardTick
  let s6 := (s5.over (List.range 512) State.applyCode).over allClu State.capSettle
  ((s6.over (s6.chansAt 1) State.blankTick).over (s6.chansAt 1) State.protectTick).over (List.range 128) State.laneTick

/-- Samples of the tick, detectors, and what the tracks supply for the next one (R177, R211, R230). -/
def State.tickSample (s : State) (inp : TickIn) : State :=
  let s1 := (s.over (s.chansAt 1) (fun t n => t.supvTick n inp)).over (List.range 512) (fun t n => t.sampleChan n inp)
  let on := s1.chansAt 2
  let s2 := (s1.over (s1.quad.map (·.1)) (fun t q => t.updQuad q (fun x => { x with changed := [] }))).over on State.aptGangTick
  (s2.over on (fun t n => t.trackSample n (inp.seqUe.contains n) (inp.stageUe.contains n))).over on (fun t n => t.trackRecord n s2.laneCond)

/-- A marker edge at the coming tick starts the run's next pulse, or is missed (R221). -/
def State.pgEdgeTick (s : State) (n : Nat) : State :=
  match (s.chan n).pg.run with
  | some r =>
    if r.t0.isNone || (match r.stopAt with | some t => decide (t ≤ s.tick + 1) | none => false) then s
    else
      let (q, missed) := s.pgEdge n r
      (s.updChan n (fun c => { c with pg := { c.pg with run := some q } })).raiseIf missed (PG_STAT n) fPG_STAT_MISSED
  | none => s

/-- The pulse term of the coming tick against that of the present one (Table 10-4). -/
def State.pulseTick (s0 : State) (n : Nat) : State :=
  let p := s0.pgTerm n
  let s := s0.pgEdgeTick n
  let b := (if p = (s.chan n).pg.lastTerm then 0 else 4) + (s.eng n).blankNext % 2
  (s.updEng n (fun e => { e with blankNext := b })).updChan n (fun c => { c with pg := { c.pg with lastTerm := p } })

/-- The samples of the auxiliary inputs at the present tick; one that is not ready, or whose tile has no cluster in IDLE or RUN (R422),
keeps the sample before (R139). -/
def State.auxTick (s : State) (inp : TickIn) : State :=
  { s with aux := (List.range 64).filterMap (fun k =>
      let on := (List.range 4).any (fun c => 2 ≤ s.pwr (4 * (k / 16) + c))
      let x := if !on || inp.auxStale.contains k then SMap.get 0 s.aux k else auxSample (inputAt inp.aux k)
      if x = 0 then none else some (k, x)) }

/-- The period's schedule in every cluster in RUN, and what of it runs in IDLE (Table 04-1); `sums` are the leaders' gang sums by cluster, `old` the samples of the
tick before. -/
def State.tickEngine (s : State) (inp : TickIn) (sums : List (Nat × List (Nat × Int × Nat))) (old : Nat → Sample) : State :=
  let s1 := s.over allClu (fun t g =>
    if t.pwr g = 3 then t.engineTick g inp (((sums.find? (fun x => x.1 == g)).map (·.2)).getD []) old
    else if t.pwr g = 2 then t.idleTick g inp old
    else if (t.cluster g).laneFails.all (· == 0) then t else t.laneCount g inp)
  ((s1.auxTick inp).over (s1.chansAt 1) State.pulseTick).over allClu State.mismatchTick

/-- Automatic ranging, the range link's frames (R161, R163), raw capture, the capture buffers. -/
def State.tickRecord (s : State) : State :=
  let s1 := s.over (s.chansAt 1) (fun t n => (t.autoCount n).rangeFrame n)
  let s2 := s1.over (s1.clustersAt 1) (fun t g => t.updCluster g (fun c => { c with seq := c.seq.map (!·) }))
  (s2.over (s2.chansAt 2) State.rawTick).over (s2.clustersAt 2) State.capTick

/-! ### The chain (R338, R343) -/

/-- A list in pairs. -/
def pairUp {α : Type} : List α → List (List α)
  | [] => []
  | [a] => [[a]]
  | a :: b :: r => [a, b] :: pairUp r

/-- Gangs, ascending, with a device on the side of a port (true DN). -/
def State.chainGangs (s : State) (dn : Bool) : List GangEntry :=
  ((List.range 255).filterMap (fun id => allClu.findSome? (fun g => s.gangEntry g id))).filter (fun e =>
    (List.range 8).any (fun p => e.devMask.testBit p && (if dn then decide (s.pos < p) else decide (p < s.pos))))

/-- SHARE entries of a port: the leaders here of gangs with a device on its side (R141, R343). -/
def State.shareEntries (s : State) (dn : Bool) : List SklShare :=
  (s.chainGangs dn).filterMap (fun e =>
    if e.dev = s.devPos then (s.shareOf e.leaderCh).map (fun x => ⟨x.value, x.gang, x.leader, x.range⟩) else none)

/-- SUM entries of a port: gangs with members here and a device on its side. -/
def State.sumEntries (s : State) (dn : Bool) : List SklSum :=
  (s.chainGangs dn).filterMap (fun e =>
    if allClu.any (fun g => match s.gangEntry g e.id with | some x => x.mask != 0 | none => false) then
      let (x, c) := allClu.foldl (fun (a : Int × Nat) g => let (x, k) := s.gangPart g e.id; (a.1 + x, a.2 + k)) (0, 0)
      some ⟨x, e.id, c⟩
    else none)

/-- Frames of the device's own in the period k that begins: the master's TIME frame with P(k+2) as it stands at cycle 24 (R338), then the
SHARE and SUM frames (R343). DESIGN CHOICE (assumption 34): what comes to the master after that cycle and R82, R83 or R87 yet let change
P(k+2), an index pulse, a count, a loss, is not in the frame. -/
def State.tickChain (s : State) : State :=
  if !s.part then s
  else
    let port (t : State) (dn : Bool) : State :=
      let a := (pairUp (s.shareEntries dn)).foldl (fun u x => u.sendOwn dn (.share x)) t
      (pairUp (s.sumEntries dn)).foldl (fun u x => u.sendOwn dn (.sum x)) a
    let s1 := if s.pos = 0 then s.sendOwn true (.time s.pAfterNext 376 s.phState) else s
    port (port s1 false) true

/-- The share messages of the device's own leaders for the coming period (R141). -/
def State.tickShares (s : State) : State :=
  { s with shares := (s.chansAt 3).filterMap s.shareOf, sums := [] }

/-- FAULT_N as the device senses it (R390): low where it or another driver of the net holds it low. -/
def State.pinTick (s : State) (low : Bool) : State :=
  s.setBit HUB_FAULT_STAT fHUB_FAULT_STAT_PIN_LOW (low || s.faultPin == some false)

/-- One sample tick. -/
def State.sampleTick (s : State) (inp : TickIn) : State :=
  let s0 := ({ s.transmit with hub := { s.transmit.hub with stackBad := inp.stackBad, portBad := inp.portBad } }).sliceFails inp.sliceBad
  let s0 := (List.range inp.ce).foldl (fun t _ => t.eccCe) s0
  let s0 := if inp.trstLow then s0.tapReset else s0
  let s0 := { s0 with jtag := { s0.jtag with trst := inp.trstLow } }
  let s1 := inp.sums.foldl (fun t x => t.run (execSumFrame x.1 x.2 false))
    ((s0.tickPhase inp.phref).updSkl (fun k => { k with out := [], nackUp := false, nackDn := false }))
  let sums := (s1.clustersAt 3).map (fun g => (g, s1.leaderSums g))
  let old (n : Nat) : Sample := (s1.chan n).smp
  let s2 := { s1 with coefOld := [] }.tickAct
  let s3 := ((s2.tickSample inp).tickEngine inp sums old).tickRecord
  (((s3.tickChain.tickShares).fadesEnd s3.tick).drain true).pinTick inp.faultLow

/-- SAMPLE_TICK (R99): the coming tick with what the outside gives at it, after the scheduled items due there (R96); a device reset in
progress ends there instead (R377). -/
def execSampleTick (inp : TickIn) (s : State) : Out :=
  match s.hub.resetAt with
  | some (t, cause) => if t ≤ s.tick + 1 then .next (s.deviceReset cause) else .next (s.settle.sampleTick inp)
  | none => .next (s.settle.sampleTick inp)

end Sys2Proof.Machine
end

