-- ==== Sys2Proof/Machine/Dispatch.lean ====
section
/-!
DEFINITION. The dispatch: one direct call of a meaning per command.
-/

namespace Sys2Proof.Machine

/-- What a command does to everything but the queue. -/
def exec (i : Instr) (s : State) : Host.Outcome State Fault Refusal :=
  match i with
  | .sampleTick inp => Sys2Proof.Machine.execSampleTick inp s
  | .registerWrite addr data be rq => Sys2Proof.Machine.execRegisterWrite addr data be rq s
  | .readLoLatch addr rd => Sys2Proof.Machine.execReadLoLatch addr rd s
  | .bar2Read addr len ecc rq => Sys2Proof.Machine.execBar2Read addr len ecc rq s
  | .bar2Write addr bytes => Sys2Proof.Machine.execBar2Write addr bytes s
  | .bar0RequestAbort write addr rq => Sys2Proof.Machine.execBar0RequestAbort write addr rq s
  | .standbyBankWrite addr data be rq => Sys2Proof.Machine.execStandbyBankWrite addr data be rq s
  | .validate g => Sys2Proof.Machine.execValidate g s
  | .validationDone g => Sys2Proof.Machine.execValidationDone g s
  | .invalidate g => Sys2Proof.Machine.execInvalidate g s
  | .commit g bank at_ => Sys2Proof.Machine.execCommit g bank at_ s
  | .commitTick g => Sys2Proof.Machine.execCommitTick g s
  | .commitCancel g => Sys2Proof.Machine.execCommitCancel g s
  | .referenceEvent rising cyc => Sys2Proof.Machine.execReferenceEvent rising cyc s
  | .indexPulse e => Sys2Proof.Machine.execIndexPulse e s
  | .quadCount a b cyc => Sys2Proof.Machine.execQuadCount a b cyc s
  | .refLoss cause => Sys2Proof.Machine.execRefLoss cause s
  | .laneFail q => Sys2Proof.Machine.execLaneFail q s
  | .residueTest g lane chan => Sys2Proof.Machine.execResidueTest g lane chan s
  | .guardTimerExpiry n => Sys2Proof.Machine.execGuardTimerExpiry n s
  | .coefSwapRequest n at_ => Sys2Proof.Machine.execCoefSwapRequest n at_ s
  | .coefSwapCancel n => Sys2Proof.Machine.execCoefSwapCancel n s
  | .coefSwapTick n => Sys2Proof.Machine.execCoefSwapTick n s
  | .modelReinit n => Sys2Proof.Machine.execModelReinit n s
  | .modelSettleEnd n => Sys2Proof.Machine.execModelSettleEnd n s
  | .plausibilityFault n => Sys2Proof.Machine.execPlausibilityFault n s
  | .injectionStart n at_ => Sys2Proof.Machine.execInjectionStart n at_ s
  | .injectionBegin n => Sys2Proof.Machine.execInjectionBegin n s
  | .injectionStop n => Sys2Proof.Machine.execInjectionStop n s
  | .injectionLenEnd n => Sys2Proof.Machine.execInjectionLenEnd n s
  | .captureArm g => Sys2Proof.Machine.execCaptureArm g s
  | .captureStop g => Sys2Proof.Machine.execCaptureStop g s
  | .captureForce g => Sys2Proof.Machine.execCaptureForce g s
  | .captureDone g => Sys2Proof.Machine.execCaptureDone g s
  | .rangeRequestI n range at_ cancel => Sys2Proof.Machine.execRangeRequestI n range at_ cancel s
  | .rangeRequestV n range at_ cancel => Sys2Proof.Machine.execRangeRequestV n range at_ cancel s
  | .rangeCancel n => Sys2Proof.Machine.execRangeCancel n s
  | .rangeChangeStart n => Sys2Proof.Machine.execRangeChangeStart n s
  | .rangeBreak n => Sys2Proof.Machine.execRangeBreak n s
  | .rangeTick n => Sys2Proof.Machine.execRangeTick n s
  | .voltageRangeStart n => Sys2Proof.Machine.execVoltageRangeStart n s
  | .autoRangeDecision n => Sys2Proof.Machine.execAutoRangeDecision n s
  | .autoRangeHoldoffEnd n => Sys2Proof.Machine.execAutoRangeHoldoffEnd n s
  | .apertureStartCmd n at_ => Sys2Proof.Machine.execApertureStartCmd n at_ s
  | .apertureStop n => Sys2Proof.Machine.execApertureStop n s
  | .apertureOpen n => Sys2Proof.Machine.execApertureOpen n s
  | .apertureClose n => Sys2Proof.Machine.execApertureClose n s
  | .apertureCountLimit n => Sys2Proof.Machine.execApertureCountLimit n s
  | .recordWritten g => Sys2Proof.Machine.execRecordWritten g s
  | .rawCaptureStart n at_ => Sys2Proof.Machine.execRawCaptureStart n at_ s
  | .rawCaptureBegin n => Sys2Proof.Machine.execRawCaptureBegin n s
  | .rawCaptureStop n => Sys2Proof.Machine.execRawCaptureStop n s
  | .rawWrAdvance n => Sys2Proof.Machine.execRawWrAdvance n s
  | .safeCodeWrite n data be => Sys2Proof.Machine.execSafeCodeWrite n data be s
  | .forceSafeWrite n data be => Sys2Proof.Machine.execForceSafeWrite n data be s
  | .modeSwitchPark n => Sys2Proof.Machine.execModeSwitchPark n s
  | .modeSwitchEnd n => Sys2Proof.Machine.execModeSwitchEnd n s
  | .supvCondition n compl => Sys2Proof.Machine.execSupvCondition n compl s
  | .supplySenseFall t cyc => Sys2Proof.Machine.execSupplySenseFall t cyc s
  | .supplySenseRecover t => Sys2Proof.Machine.execSupplySenseRecover t s
  | .comparatorOut n w hi cyc => Sys2Proof.Machine.execComparatorOut n w hi cyc s
  | .comparatorInside n w hi cyc => Sys2Proof.Machine.execComparatorInside n w hi cyc s
  | .comparatorSettled g => Sys2Proof.Machine.execComparatorSettled g s
  | .manualBlank n => Sys2Proof.Machine.execManualBlank n s
  | .blankingEnd n cyc => Sys2Proof.Machine.execBlankingEnd n cyc s
  | .windowTest n w data be => Sys2Proof.Machine.execWindowTest n w data be s
  | .autoTestStepEnd n w => Sys2Proof.Machine.execAutoTestStepEnd n w s
  | .pgStart n at_ => Sys2Proof.Machine.execPgStart n at_ s
  | .pgRunBegin n => Sys2Proof.Machine.execPgRunBegin n s
  | .pgStop n => Sys2Proof.Machine.execPgStop n s
  | .pgRelease n => Sys2Proof.Machine.execPgRelease n s
  | .autoRelease n => Sys2Proof.Machine.execAutoRelease n s
  | .trackArm n => Sys2Proof.Machine.execTrackArm n s
  | .trackReady n => Sys2Proof.Machine.execTrackReady n s
  | .trackStart n at_ => Sys2Proof.Machine.execTrackStart n at_ s
  | .trackStop n => Sys2Proof.Machine.execTrackStop n s
  | .hostEvt n => Sys2Proof.Machine.execHostEvt n s
  | .hostJump n target at_ => Sys2Proof.Machine.execHostJump n target at_ s
  | .trackFill n add => Sys2Proof.Machine.execTrackFill n add s
  | .cluSeqStart g mask => Sys2Proof.Machine.execCluSeqStart g mask s
  | .cluSeqStartAt g mask => Sys2Proof.Machine.execCluSeqStartAt g mask s
  | .cluSeqStop g mask => Sys2Proof.Machine.execCluSeqStop g mask s
  | .cluSeqHost g mask => Sys2Proof.Machine.execCluSeqHost g mask s
  | .trackStartTick n => Sys2Proof.Machine.execTrackStartTick n s
  | .segmentEnd n => Sys2Proof.Machine.execSegmentEnd n s
  | .segmentWaitStart n => Sys2Proof.Machine.execSegmentWaitStart n s
  | .underrunResume n => Sys2Proof.Machine.execUnderrunResume n s
  | .stagingComplete n => Sys2Proof.Machine.execStagingComplete n s
  | .trgPulseEnd n => Sys2Proof.Machine.execTrgPulseEnd n s
  | .evlArm x => Sys2Proof.Machine.execEvlArm x s
  | .evlReady x ue => Sys2Proof.Machine.execEvlReady x ue s
  | .evlStart x at_ => Sys2Proof.Machine.execEvlStart x at_ s
  | .evlStop x => Sys2Proof.Machine.execEvlStop x s
  | .evlFill x add => Sys2Proof.Machine.execEvlFill x add s
  | .evlCycleBoundary x ue => Sys2Proof.Machine.execEvlCycleBoundary x ue s
  | .evlEdge l second => Sys2Proof.Machine.execEvlEdge l second s
  | .evlInputEdge l rising cyc => Sys2Proof.Machine.execEvlInputEdge l rising cyc s
  | .dmaStart d => Sys2Proof.Machine.execDmaStart d s
  | .dmaAbort d => Sys2Proof.Machine.execDmaAbort d s
  | .dmaResume d => Sys2Proof.Machine.execDmaResume d s
  | .dmaKick d => Sys2Proof.Machine.execDmaKick d s
  | .dmaMove d => Sys2Proof.Machine.execDmaMove d s
  | .dmaBurst d inp => Sys2Proof.Machine.execDmaBurst d inp s
  | .dmaBarrierDone d => Sys2Proof.Machine.execDmaBarrierDone d s
  | .dmaLoop d => Sys2Proof.Machine.execDmaLoop d s
  | .dmaWaitEvent d => Sys2Proof.Machine.execDmaWaitEvent d s
  | .dmaWaitKick d => Sys2Proof.Machine.execDmaWaitKick d s
  | .dmaWaitStamp d => Sys2Proof.Machine.execDmaWaitStamp d s
  | .dmaWaitSatisfied d => Sys2Proof.Machine.execDmaWaitSatisfied d s
  | .dmaSignalEvent d => Sys2Proof.Machine.execDmaSignalEvent d s
  | .dmaSignalTrackFill d => Sys2Proof.Machine.execDmaSignalTrackFill d s
  | .dmaSignalGroupFill d => Sys2Proof.Machine.execDmaSignalGroupFill d s
  | .dmaSignalRingConsume d => Sys2Proof.Machine.execDmaSignalRingConsume d s
  | .dmaEnd d => Sys2Proof.Machine.execDmaEnd d s
  | .dmaBusError space kind addr partials => Sys2Proof.Machine.execDmaBusError space kind addr partials s
  | .calSessionStart tiles force => Sys2Proof.Machine.execCalSessionStart tiles force s
  | .calSessionAbort => Sys2Proof.Machine.execCalSessionAbort s
  | .sessionTileDone a b => Sys2Proof.Machine.execSessionTileDone a b s
  | .weltStepBoundary => Sys2Proof.Machine.execWeltStepBoundary s
  | .weltCalStart => Sys2Proof.Machine.execWeltCalStart s
  | .weltCalDecision results => Sys2Proof.Machine.execWeltCalDecision results s
  | .weltHandbackStart => Sys2Proof.Machine.execWeltHandbackStart s
  | .weltPhaseStart => Sys2Proof.Machine.execWeltPhaseStart s
  | .weltPhaseDecision results => Sys2Proof.Machine.execWeltPhaseDecision results s
  | .sliceTake q kind lane => Sys2Proof.Machine.execSliceTake q kind lane s
  | .sliceRestore q kind lane => Sys2Proof.Machine.execSliceRestore q kind lane s
  | .windowTrim n v c => Sys2Proof.Machine.execWindowTrim n v c s
  | .windowTrimEnd m => Sys2Proof.Machine.execWindowTrimEnd m s
  | .correctionRampStep => Sys2Proof.Machine.execCorrectionRampStep s
  | .haltDoorbell chain cyc rq => Sys2Proof.Machine.execHaltDoorbell chain cyc rq s
  | .haltNAssert low cyc => Sys2Proof.Machine.execHaltNAssert low cyc s
  | .haltRelease => Sys2Proof.Machine.execHaltRelease s
  | .linkError cls addr rq => Sys2Proof.Machine.execLinkError cls addr rq s
  | .laneDeclaredFailed lane lock => Sys2Proof.Machine.execLaneDeclaredFailed lane lock s
  | .widthChangeDone => Sys2Proof.Machine.execWidthChangeDone s
  | .widen => Sys2Proof.Machine.execWiden s
  | .dlDown => Sys2Proof.Machine.execDlDown s
  | .sklEnable en => Sys2Proof.Machine.execSklEnable en s
  | .sklPortUp dn => Sys2Proof.Machine.execSklPortUp dn s
  | .sklPortDown dn => Sys2Proof.Machine.execSklPortDown dn s
  | .timeFrame h p offset mstate cyc => Sys2Proof.Machine.execTimeFrame h p offset mstate cyc s
  | .timeFrameMiss => Sys2Proof.Machine.execTimeFrameMiss s
  | .shareFrame h entries late => Sys2Proof.Machine.execShareFrame h entries late s
  | .sumFrame h entries late => Sys2Proof.Machine.execSumFrame h entries late s
  | .nackFrame h => Sys2Proof.Machine.execNackFrame h s
  | .enumFrame h e => Sys2Proof.Machine.execEnumFrame h e s
  | .enumSend => Sys2Proof.Machine.execEnumSend s
  | .releaseFrame h stamp => Sys2Proof.Machine.execReleaseFrame h stamp s
  | .sklHaltSet dn origin cyc => Sys2Proof.Machine.execSklHaltSet dn origin cyc s
  | .sklFaultSet dn origin => Sys2Proof.Machine.execSklFaultSet dn origin s
  | .sklHaltRelease all => Sys2Proof.Machine.execSklHaltRelease all s
  | .sklPresentExpiry => Sys2Proof.Machine.execSklPresentExpiry s
  | .getInfo => Sys2Proof.Machine.execGetInfo s
  | .getSensors => Sys2Proof.Machine.execGetSensors s
  | .setThresh => Sys2Proof.Machine.execSetThresh s
  | .envRelease => Sys2Proof.Machine.execEnvRelease s
  | .logRead => Sys2Proof.Machine.execLogRead s
  | .sealedLoad f => Sys2Proof.Machine.execSealedLoad f s
  | .structStore f => Sys2Proof.Machine.execStructStore f s
  | .getNonce => Sys2Proof.Machine.execGetNonce s
  | .keyEnrol f => Sys2Proof.Machine.execKeyEnrol f s
  | .keyRevoke f => Sys2Proof.Machine.execKeyRevoke f s
  | .setPolicy f => Sys2Proof.Machine.execSetPolicy f s
  | .fwUpdate f => Sys2Proof.Machine.execFwUpdate f s
  | .coreSwitch => Sys2Proof.Machine.execCoreSwitch s
  | .safeStore f => Sys2Proof.Machine.execSafeStore f s
  | .calStore f => Sys2Proof.Machine.execCalStore f s
  | .calRestore => Sys2Proof.Machine.execCalRestore s
  | .setSubsys f => Sys2Proof.Machine.execSetSubsys f s
  | .heartbeatMiss work => Sys2Proof.Machine.execHeartbeatMiss work s
  | .coreException work => Sys2Proof.Machine.execCoreException work s
  | .probationEnd => Sys2Proof.Machine.execProbationEnd s
  | .sensorConversion readings => Sys2Proof.Machine.execSensorConversion readings s
  | .logMirror => Sys2Proof.Machine.execLogMirror s
  | .nonceExpiry => Sys2Proof.Machine.execNonceExpiry s
  | .calAutostore => Sys2Proof.Machine.execCalAutostore s
  | .clusterPowerCmd clusters target at_ => Sys2Proof.Machine.execClusterPowerCmd clusters target at_ s
  | .powerTransitionStart g => Sys2Proof.Machine.execPowerTransitionStart g s
  | .parkSettled g => Sys2Proof.Machine.execParkSettled g s
  | .idleReached g => Sys2Proof.Machine.execIdleReached g s
  | .tileUp tiles => Sys2Proof.Machine.execTileUp tiles s
  | .tileUpDone t ok suspect => Sys2Proof.Machine.execTileUpDone t ok suspect s
  | .tileDown tiles => Sys2Proof.Machine.execTileDown tiles s
  | .dramCmd target => Sys2Proof.Machine.execDramCmd target s
  | .dramTransitionDone ok => Sys2Proof.Machine.execDramTransitionDone ok s
  | .powerOn straps => Sys2Proof.Machine.execPowerOn straps s
  | .perstN low => Sys2Proof.Machine.execPerstN low s
  | .hotReset => Sys2Proof.Machine.execHotReset s
  | .pwrRstCmd key => Sys2Proof.Machine.execPwrRstCmd key s
  | .boot inp => Sys2Proof.Machine.execBoot inp s
  | .bootWatchdog => Sys2Proof.Machine.execBootWatchdog s
  | .tallyClear => Sys2Proof.Machine.execTallyClear s
  | .tallyClearRecord => Sys2Proof.Machine.execTallyClearRecord s
  | .faultClear => Sys2Proof.Machine.execFaultClear s
  | .tileIsolate key tiles => Sys2Proof.Machine.execTileIsolate key tiles s
  | .isolationComplete => Sys2Proof.Machine.execIsolationComplete s
  | .refclkLost b => Sys2Proof.Machine.execRefclkLost b s
  | .refclkGood b => Sys2Proof.Machine.execRefclkGood b s
  | .clockSelect b => Sys2Proof.Machine.execClockSelect b s
  | .clockSwitchDone => Sys2Proof.Machine.execClockSwitchDone s
  | .scrub mem clu addr ue => Sys2Proof.Machine.execScrub mem clu addr ue s
  | .tapReset => Sys2Proof.Machine.execTapReset s
  | .trstN => Sys2Proof.Machine.execTrstN s
  | .idcode => Sys2Proof.Machine.execIdcode s
  | .samplePreload scan => Sys2Proof.Machine.execSamplePreload scan s
  | .extest scan => Sys2Proof.Machine.execExtest scan s
  | .clamp => Sys2Proof.Machine.execClamp s
  | .highz => Sys2Proof.Machine.execHighz s
  | .extestPulse scan => Sys2Proof.Machine.execExtestPulse scan s
  | .extestTrain scan => Sys2Proof.Machine.execExtestTrain scan s
  | .ecidcode => Sys2Proof.Machine.execEcidcode s
  | .segsel sel => Sys2Proof.Machine.execSegsel sel s
  | .bypass => Sys2Proof.Machine.execBypass s
  | .testLock on => Sys2Proof.Machine.execTestLock on s
  | .configurationRequest mem msix mask cfg => Sys2Proof.Machine.execConfigurationRequest mem msix mask cfg s
  | .linkUp partner speed => Sys2Proof.Machine.execLinkUp partner speed s
  | .standbyReady ok => Sys2Proof.Machine.execStandbyReady ok s
  | .coefficientWindowWrite addr data be rq => Sys2Proof.Machine.execCoefficientWindowWrite addr data be rq s
  | .mailboxRequestWrite addr data be => Sys2Proof.Machine.execMailboxRequestWrite addr data be s

end Sys2Proof.Machine
end

