-- ==== Sys2Proof/WellFormed.lean ====
section
/-!
DEFINITION. Well-formed commands: operands within what the row's rule lets the outside give. The meanings are total; a sender of
commands gives well-formed ones (assumption 1).
-/

namespace Sys2Proof

/-- Byte enables of a 32-bit word (R36). -/
def beOk (be : Nat) : Bool := decide (be < 16)
/-- A core clock cycle of a period (R3). -/
def cycOk (cyc : Nat) : Bool := decide (cyc < 400)
/-- A virtual channel (R310). -/
def Req.ok (r : Req) : Bool := decide (r.vc < 2)
/-- A slice code of 20 bits, two's complement (R177). -/
def codeOk (x : Int) : Bool := decide (-0x80000 ≤ x) && decide (x < 0x80000)
/-- The indices of a sparse list of inputs. -/
def indexOk (bound : Nat) (xs : List (Nat × Int)) : Bool := xs.all (fun x => decide (x.1 < bound))
/-- A frame's header fields (Table 16-2): SRC of 3 bits, SEQ of 8, a violation of kinds 1 to 4 or none. -/
def SklHdr.ok (h : SklHdr) : Bool := decide (h.src < 8) && decide (h.seq < 256) && decide (h.viol < 5)
/-- What the outside gives at a tick: indices in range and slice codes of 20 bits. -/
def TickIn.ok (t : TickIn) : Bool :=
  indexOk 512 t.v && indexOk 512 t.i && indexOk 128 t.weltV && indexOk 128 t.weltI && indexOk 64 t.aux && indexOk 512 t.iret &&
    indexOk 512 t.vball && (t.v ++ t.i ++ t.weltV ++ t.weltI).all (fun x => codeOk x.2) && t.upsets.all (fun u => decide (u.ch < 512)) &&
    t.expFaults.all (fun f => decide (f.clu < 16) && decide (f.stage < 17)) && t.auxStale.all (fun k => decide (k < 64)) &&
    t.aux.all (fun x => decide (0 ≤ x.2) && decide (x.2 ≤ 2 ^ 30) && decide (x.2 % 2 ^ 14 = 0)) &&
    (t.seqUe ++ t.stageUe).all (fun n => decide (n < 512)) && t.sums.all (fun x => x.1.ok && decide (x.2.length ≤ 2)) &&
    t.sliceBad.all (fun x => decide (x.1 < 128) && decide (x.2 < 15)) && t.portBad.all (fun k => decide (k < 4))

/-- The operands of a command are in the ranges its row gives. -/
def Instr.wf : Instr → Bool
  | .sampleTick inp => inp.ok
  | .registerWrite _ _ be ⟨rq, _⟩ | .standbyBankWrite _ _ be rq | .coefficientWindowWrite _ _ be rq => beOk be && rq.ok
  | .readLoLatch _ rd => rd.req.ok
  | .bar2Read addr len _ rq => decide (addr + len ≤ 0x100000000) && rq.ok
  | .bar2Write addr bytes => decide (addr + bytes.length ≤ 0x100000000)
  | .bar0RequestAbort _ _ rq => rq.ok
  | .referenceEvent _ cyc | .indexPulse ⟨_, cyc⟩ | .quadCount _ _ cyc | .supplySenseFall _ cyc | .comparatorOut _ _ _ cyc | .comparatorInside _ _ _ cyc
  | .blankingEnd _ cyc | .evlInputEdge _ _ cyc | .haltNAssert _ cyc | .sklHaltSet _ _ cyc => cycOk cyc
  | .safeCodeWrite _ _ be | .forceSafeWrite _ _ be | .windowTest _ _ _ be | .mailboxRequestWrite _ _ be => beOk be
  | .hostJump _ target _ => decide (target < 4096)
  | .trackFill _ add => decide (add < 4096)
  | .evlFill _ add => decide (add < 65536)
  | .evlReady _ ue | .evlCycleBoundary _ ue => ue.all (fun p => decide (p.plane < 16))
  | .dmaBurst d ⟨ready, host, _⟩ => decide (host.length ≤ 1024) && decide (ready < 2 ^ 32) && ready.testBit d
  | .dmaBusError _ kind _ _ => decide (kind < 8)
  | .haltDoorbell _ cyc rq => cycOk cyc && rq.ok
  | .linkError cls _ rq => decide (1 ≤ cls) && decide (cls < 16) && rq.ok
  | .timeFrame h p offset mstate cyc =>
    h.ok && decide (p < 2 ^ 96) && decide (offset < 512) && decide (mstate < 8) && cycOk cyc
  | .shareFrame h _ _ | .sumFrame h _ _ | .nackFrame h | .enumFrame h _ => h.ok
  | .releaseFrame h stamp => h.ok && decide (stamp < 2 ^ 64)
  | .linkUp partner speed => decide (1 ≤ partner) && decide (partner ≤ 4) && decide (1 ≤ speed) && decide (speed ≤ 4)
  | _ => true

end Sys2Proof
end

