-- ==== Sys2Proof/Safety.lean ====
section
/-!
DEFINITION. What claims are stated in: the canonical form of the device's memories, a run of commands, and the words of a frame: which
registers and which units a command may change.
-/

namespace Sys2Proof.Machine

/-- The addressed memories of the device are in canonical form: sequence memory, the structure banks, the capture buffers. -/
def State.memWf (s : State) : Prop := s.seqMem.wf = true ∧ s.banks.wf = true ∧ s.capMem.wf = true

/-! ### Frames -/

/-- Of the registers, at most those at the offsets `as` read differently in `t`. -/
def State.regsOnly (s t : State) (as : List Nat) : Prop := ∀ a, a ∉ as → t.rd a = s.rd a
/-- Of the live values, at most those at the offsets `as` differ. -/
def State.liveOnly (s t : State) (as : List Nat) : Prop := ∀ a, a ∉ as → t.lv a = s.lv a
/-- Of the channels' own state, at most that of the channels `ns` differs. -/
def State.chansOnly (s t : State) (ns : List Nat) : Prop := ∀ n, n ∉ ns → t.chan n = s.chan n
/-- Of the clusters' own state, at most that of the clusters `gs` differs. -/
def State.clustersOnly (s t : State) (gs : List Nat) : Prop := ∀ g, g ∉ gs → t.cluster g = s.cluster g
/-- On the host's side at most interrupt messages differ: the pending bits, words written to host memory, their count, the TLPs ready to go
(R318). -/
def State.msgOnly (s t : State) : Prop :=
  t.host = { s.host with pba := t.host.pba, mem := t.host.mem, sent := t.host.sent, ready := t.host.ready }
/-- `t` is `s` but for registers. -/
def State.onlyRegs (s t : State) : Prop := t = { s with regs := t.regs }
/-- `t` is `s` but for registers and interrupt messages. -/
def State.quiet (s t : State) : Prop := t = { s with regs := t.regs, host := t.host } ∧ s.msgOnly t
/-- `t` is `s` but for registers, interrupt messages and the event log. -/
def State.logged (s t : State) : Prop := t = { s with regs := t.regs, host := t.host, log := t.log } ∧ s.msgOnly t
/-- `t` is `s` but for the registers `as` and interrupt messages. -/
def State.regFrame (s t : State) (as : List Nat) : Prop := s.regsOnly t as ∧ s.quiet t
/-- `t` is `s` but for the own state of channel n, the registers `as` and interrupt messages. -/
def State.chFrame (s t : State) (n : Nat) (as : List Nat) : Prop :=
  s.regsOnly t as ∧ s.chansOnly t [n] ∧ ({ s with ch := t.ch } : State).quiet t
/-- `t` is `s` but for the own state of cluster g, the registers `as` and interrupt messages. -/
def State.cluFrame (s t : State) (g : Nat) (as : List Nat) : Prop :=
  s.regsOnly t as ∧ s.clustersOnly t [g] ∧ ({ s with clu := t.clu } : State).quiet t
/-- The registers that an entry of the link and error log may change (R327): its ring and status, the interrupt bits of both logs. -/
def elogReg (a : Nat) : Prop :=
  (PCI_ELOG 0 0 ≤ a ∧ a < PCI_ELOG 64 0) ∨ a = PCI_ELOG_STAT ∨ a = PCI_ELOG_SEEN_LO ∨ a = PCI_ELOG_SEEN_HI ∨ a = PCI_INT_STAT ∨
    a = MBX_EVT_STAT
/-- `t` is `s` but for registers, interrupt messages, the event log and the link and error log (with the AER header log). -/
def State.elogged (s t : State) : Prop :=
  t = { s with regs := t.regs, host := t.host, log := t.log, elogCount := t.elogCount } ∧
  t.host = { s.host with pba := t.host.pba, mem := t.host.mem, sent := t.host.sent, ready := t.host.ready,
                         aer := t.host.aer, aerUnc := t.host.aerUnc, aerCor := t.host.aerCor }
/-- An event of a class and header repeats the newest entry of the link and error log (R327). -/
def State.elogRepeats (s : State) (cls : Nat) (hdr : Tlp) : Bool :=
  let last := (s.fld PCI_ELOG_STAT fPCI_ELOG_STAT_NEXT + 63) % 64
  s.elogCount != 0 && (s.rd (PCI_ELOG last 0)).toNat % 256 = cls && s.rd (PCI_ELOG last 1) = hdr.h0 && s.rd (PCI_ELOG last 2) = hdr.h1
/-- `t` holds, at the slot NEXT that `s` shows, a new entry of the link and error log: class and virtual channel, header, address;
NEXT is one on, the class's SEEN bit and the interrupt bit are set, the event log has its copy (R327, Table 15-6). -/
def State.elogEntry (s t : State) (cls vc : Nat) (hdr : Tlp) (addr : Nat) : Prop :=
  let nx := s.fld PCI_ELOG_STAT fPCI_ELOG_STAT_NEXT
  let seen := if cls < 32 then PCI_ELOG_SEEN_LO else PCI_ELOG_SEEN_HI
  t.rd (PCI_ELOG nx 0) = BitVec.ofNat 32 (cls + 256 * (vc % 2)) ∧ t.rd (PCI_ELOG nx 7) = BitVec.ofNat 32 addr ∧
  t.rd (PCI_ELOG nx 1) = hdr.h0 ∧ t.rd (PCI_ELOG nx 2) = hdr.h1 ∧ t.rd (PCI_ELOG nx 3) = hdr.h2 ∧ t.rd (PCI_ELOG nx 4) = hdr.h3 ∧
  t.fld PCI_ELOG_STAT fPCI_ELOG_STAT_NEXT = (nx + 1) % 64 ∧ t.rd seen = (s.rd seen ||| BitVec.ofNat 32 (2 ^ (cls % 32))) ∧
  t.rd PCI_INT_STAT = fPCI_INT_STAT_ELOG.put (s.rd PCI_INT_STAT) 1 ∧ t.elogCount = s.elogCount + 1 ∧
  ∃ e, t.log.ring.head? = some e ∧ e.src = 7 ∧ e.bit = cls % 32 ∧ e.addr = seen ∧ e.d0 = cls ∧ e.d1 = nx
/-- The newest entry of the event log: SOURCE, BIT, the flag's address and the two data words. -/
def State.newest (s : State) (src bit addr d0 d1 : Nat) : Prop :=
  ∃ e, s.log.ring.head? = some e ∧ e.src = src ∧ e.bit = bit ∧ e.addr = addr ∧ e.d0 = d0 ∧ e.d1 = d1
/-- Bit `i` of the register at `a` after a write of `data` with byte enables `be` (R15, R16, R36): enabled RW and SH bits take the data,
an enabled W1C bit is cleared by a 1 unless the device sets it in the same core clock cycle (`same`), every other bit stays; bits with
a row of their own stay (assumption 11). -/
def State.storedBit (s : State) (a : Nat) (data : Word) (be : Nat) (same : Word) (i : Nat) : Bool :=
  let on := be.testBit (i / 8) && !(ownRow a).getLsbD i
  let old := (s.rd a).getLsbD i
  if on && (maskAt a .w1c).getLsbD i && data.getLsbD i && !same.getLsbD i then false
  else if on && ((maskAt a .rw).getLsbD i || (maskAt a .sh).getLsbD i) then data.getLsbD i else old
/-- A write of `data` at offset `a` in a frozen interval of group g is refused (R61, R447): SHADOW_BUSY is set, REFUSED_ADDR takes the
offset where SHADOW_BUSY was clear, and the event log has an entry of address and data. -/
def State.writeRefused (s t : State) (g a : Nat) (data : Word) : Prop :=
  let st := grpReg g HUB_COMMIT_STAT
  t.rd st = fHUB_COMMIT_STAT_SHADOW_BUSY.put (s.rd st) 1 ∧
  t.rd (grpReg g HUB_REFUSED_ADDR) =
    (if s.bit st fHUB_COMMIT_STAT_SHADOW_BUSY then s.rd (grpReg g HUB_REFUSED_ADDR) else BitVec.ofNat 32 a) ∧
  t.newest (if g = 16 then 0xC else 2) 16 st a data.toNat ∧
  s.regsOnly t [st, grpReg g HUB_REFUSED_ADDR, MBX_EVT_STAT, if g = 16 then HUB_INT_STAT else CLU_INT_STAT g] ∧ s.logged t

/-- The tile and the register of a write command that does not carry its request: its register lies in the tile's span (R38). -/
def tileWrite : Instr → Option (Nat × Nat)
  | .validate g | .invalidate g => some (g / 4, CLU_BANK_CTL g)
  | .commit g _ _ => if g.val < 16 then some (g / 4, grpReg g HUB_COMMIT) else none
  | .commitCancel g => if g.val < 16 then some (g / 4, grpReg g HUB_COMMIT_CANCEL) else none
  | .residueTest g _ _ => some (g / 4, CLU_ENG_TEST g)
  | .coefSwapRequest n _ | .coefSwapCancel n => some (n / 128, CH_COEF_SWAP n)
  | .modelReinit n => some (n / 128, CH_MODEL_CMD n)
  | .injectionStart n _ | .injectionStop n => some (n / 128, CH_INJ_GO n)
  | .captureArm g | .captureStop g | .captureForce g => some (g / 4, CLU_CAP_GO g)
  | .rangeRequestI n _ _ _ | .rangeRequestV n _ _ _ | .rangeCancel n => some (n / 128, CH_RANGE_REQ n)
  | .apertureStartCmd n _ | .apertureStop n => some (n / 128, APT_GO n)
  | .rawCaptureStart n _ | .rawCaptureStop n => some (n / 128, APT_RAW_GO n)
  | .safeCodeWrite n _ _ => some (n / 128, CH_SAFE_CODE n)
  | .forceSafeWrite n _ _ => some (n / 128, CH_DAC_CTL n)
  | .manualBlank n => some (n / 128, WIN_BLANK_GO n)
  | .windowTest n w _ _ => some (n / 128, WIN_TEST n (winIx w))
  | .pgStart n _ | .pgStop n | .pgRelease n => some (n / 128, PG_GO n)
  | .trackArm n | .trackStart n _ | .trackStop n | .hostEvt n => some (n / 128, SEQ_GO n)
  | .hostJump n _ _ => some (n / 128, SEQ_JUMP n)
  | .trackFill n _ => some (n / 128, SEQ_FILL n)
  | .cluSeqStart g _ => some (g / 4, CLU_SEQ_START g)
  | .cluSeqStartAt g _ => some (g / 4, CLU_SEQ_START_AT g)
  | .cluSeqStop g _ => some (g / 4, CLU_SEQ_STOP g)
  | .cluSeqHost g _ => some (g / 4, CLU_SEQ_HOST g)
  | .evlArm x | .evlStart x _ | .evlStop x => some (x / 8, EVL_GRP_GO (x / 2) (x % 2))
  | .evlFill x _ => some (x / 8, EVL_GRP_FILL (x / 2) (x % 2))
  | .sliceTake q _ _ | .sliceRestore q _ _ => some (q / 32, QUAD_WELT_CMD q)
  | _ => none
/-- The rows that write a word of a tile's span and carry their request, each with the word it writes. -/
def tileWriteReq (a : Nat) (rq : Req) : Instr → Prop
  | .registerWrite x _ _ ⟨r, _⟩ | .standbyBankWrite x _ _ r | .coefficientWindowWrite x _ _ r => x / 4 * 4 = a ∧ r = rq
  | _ => False

/-- DMA channel d stands at an instruction with this OP and neither moves nor waits (R266). -/
def State.dmaAt (s : State) (d op : Nat) : Prop :=
  s.dmaState d = dmRunning ∧ (s.dmaCh d).move = none ∧ (s.dmaCh d).wait = none ∧ bits (s.dmaWord d 0) 0 4 = op
/-- DMA channel d has stopped at its instruction with a code and a residue (R277, R278): status, interrupt bit, and sequence memory
unchanged but for a write-back record where one is enabled. -/
def State.dmaHalted (s t : State) (d code residue : Nat) : Prop :=
  t.dmaState d = dmStopped ∧ t.fld (DMA_CH_STAT d) fDMA_CH_STAT_CODE = code ∧ t.dmaPc d = s.dmaPc d ∧
  t.rd (DMA_CH_RESIDUE d) = BitVec.ofNat 32 residue ∧ t.rd DMA_INT_STAT = (s.rd DMA_INT_STAT ||| BitVec.ofNat 32 (2 ^ d)) ∧
  s.regsOnly t [DMA_CH_STAT d, DMA_CH_RESIDUE d, DMA_CH_PART d, DMA_INT_STAT] ∧
  let a := (s.rd (DMA_CH_WB d)).toNat / 64 * 64
  (∀ b, (s.bit (DMA_CH_CTL d) fDMA_CH_CTL_WB_EN = false ∨ b < a ∨ a + 64 ≤ b) → t.seqMem.read b = s.seqMem.read b) ∧
  (s.bit (DMA_CH_CTL d) fDMA_CH_CTL_WB_EN = true → t.seqMem.readLE a 4 = (t.rd (DMA_CH_STAT d)).toNat ∧
    t.seqMem.readLE (a + 4) 4 = (t.rd (DMA_CH_RESIDUE d)).toNat)
/-- DMA channel d has gone on to the next instruction of its program, which has one (R268). -/
def State.dmaNext (s t : State) (d : Nat) : Prop :=
  t.dmaState d = dmRunning ∧ t.dmaPc d = s.dmaPc d + 1 ∧ (t.dmaCh d).move = none ∧ (t.dmaCh d).wait = none

/-- A frame arrives on a port that is up, whole, without a violation and in sequence (R335, R345). -/
def State.sklGood (s : State) (h : SklHdr) : Prop :=
  s.portUp h.dn = true ∧ h.stomped = false ∧ h.viol = 0 ∧
  ∀ q, (if h.dn then s.skl.rxDn else s.skl.rxUp) = some q → h.seq % 256 = (q + 1) % 256
/-- What a device that takes part sends on, of a frame it received (R336). -/
def State.sentOn (s : State) (h : SklHdr) (m : SklMsg) : List SklSent :=
  if s.part && !s.hubTest then [⟨!h.dn, h.src, ((if h.dn then s.skl.txUp else s.skl.txDn) + 1) % 256, false, m⟩] else []
/-- What goes out on a port in the present period, in its order. -/
def State.portOut (s : State) (dn : Bool) : List SklSent := s.skl.out.filter (fun x => x.dn == dn)
/-- `t` has an own frame `m` of the device in `s` among what goes out on each port: last but for own frames of a later type with which the
port's list ends (R336), the SEQ numbers in order. -/
def State.sendsOwn (s t : State) (m : SklMsg) : Prop :=
  ∀ dn : Bool,
    let old := s.portOut dn
    let n := (old.reverse.takeWhile (fun x => x.src == s.pos && !x.stomped && decide (m.rank < x.msg.rank))).length
    let q := if dn then s.skl.txDn else s.skl.txUp
    t.portOut dn = old.take (old.length - n) ++ ⟨dn, s.pos, (q + 1 + 256 - n % 256) % 256, false, m⟩ ::
        (old.drop (old.length - n)).map (fun x => { x with seq := (x.seq + 1) % 256 }) ∧
      (if dn then t.skl.txDn else t.skl.txUp) = (q + 1) % 256
/-- A device that takes part, and whose ports no boundary scan drives, sends a frame of its own on both ports; any other sends nothing. -/
def State.sentBoth (s t : State) (m : SklMsg) : Prop :=
  if s.part && !s.hubTest then s.sendsOwn t m else t.skl.out = s.skl.out
/-- `t` has a halt latched with these bits of its latch and stamp; source HALT holds every channel (R321, R340). -/
def State.haltedBy (s t : State) (latch : Nat) : Prop :=
  t.halted = true ∧ (t.rd HUB_HALT_STAT).getLsbD latch = true ∧ (t.rd HUB_HALT_STAT).getLsbD (latch + 7) = true ∧
  t.rd64 HUB_HALT_STAMP_LO = s.now ∧ ∀ n, n < 512 → t.heldBy n srcHalt = true

/-- The mailbox rows with their command codes (Table 17-6). -/
def mailboxRows (f : MbxFault) : List (Instr × Nat) :=
  [(.getInfo, 0x1), (.getSensors, 0x2), (.setThresh, 0x3), (.envRelease, 0x4), (.logRead, 0x10), (.sealedLoad f, 0x20),
    (.structStore f, 0x21), (.getNonce, 0x28), (.keyEnrol f, 0x29), (.keyRevoke f, 0x2A), (.setPolicy f, 0x2B), (.fwUpdate f, 0x30),
    (.coreSwitch, 0x31), (.safeStore f, 0x40), (.calStore f, 0x41), (.calRestore, 0x42), (.setSubsys f, 0x50)]
/-- Firmware runs and the request area holds command `cmd` with `n` bytes of arguments (R356, R357). -/
def State.mbxReq (s : State) (cmd n : Nat) : Prop := s.busy = false ∧ s.reqWord 0 % 2 ^ 16 = cmd ∧ s.argBytes = n
/-- `t` answers the request in `s`: the response area holds the request's first word, STATUS, the length and the data, DONE is set
(R356, R357). -/
def State.answered (s t : State) (status : Nat) (data : List Byte) : Prop :=
  t.cob.resp = Mem.writeBytes [] 0 (leBytes (s.reqWord 0) 4 ++ leBytes (status + 2 ^ 16 * data.length) 4 ++ data) ∧
  t.bit MBX_STAT fMBX_STAT_DONE = true
/-- Nothing but the response, DONE and the nonce changed (R357, R358, R361). -/
def State.onlyAnswered (s t : State) : Prop :=
  s.regFrame { t with cob := s.cob } [MBX_STAT] ∧ t.cob = { s.cob with resp := t.cob.resp, nonce := t.cob.nonce }

/-! ### The codes of a check (Table 02-11) -/

/-- GANG: a member's gang has no entry, or its leader flag disagrees with it, or a channel of no gang leads; an entry in use has MEMBERS
outside 1 to 64, another's GANG_ID, a leader here that is no member, or a LOCAL_MASK that disagrees with the descriptors (R52). -/
def State.gangWrong (s : State) (g b : Nat) : Bool :=
  let d (i : Nat) : ChDesc := s.bankDesc g b i
  let e (k : Nat) : GangEntry := s.bankGang g b k
  let used (k : Nat) : Bool := (e k).id != 0xFF
  let is := List.range 32
  is.any (fun i => (d i).en && (d i).gang == 0xFF && (d i).leader) ||
  is.any (fun i => (d i).en && (d i).gang != 0xFF && !is.any (fun k => used k && (e k).id == (d i).gang)) ||
  is.any (fun k => used k && is.any (fun j => decide (j < k) && used j && (e j).id == (e k).id)) ||
  is.any (fun k => used k && ((e k).members == 0 || decide (64 < (e k).members))) ||
  is.any (fun k => used k && is.any (fun i => (e k).mask.testBit i != ((d i).en && (d i).gang == (e k).id))) ||
  is.any (fun k => used k && (e k).dev == s.devPos && (e k).leaderCh / 32 == g &&
    !((d ((e k).leaderCh % 32)).en && (d ((e k).leaderCh % 32)).gang == (e k).id)) ||
  is.any (fun k => used k && is.any (fun i => (d i).en && (d i).gang == (e k).id &&
    (d i).leader != ((e k).dev == s.devPos && (e k).leaderCh == 32 * g + i)))

/-- BINDING: what an enabled descriptor names must be there (R49, R50). -/
def State.bindingWrong (s : State) (g b i : Nat) : Bool :=
  let d := s.bankDesc g b i
  let off (j : Nat) : Bool := !(s.bankDesc g b j).en
  d.en && (off d.track || (d.ffRail && !d.auxEn) || (d.aptEn && (off d.aptSrc || (d.aptGang && !d.leader))) ||
    [1, 2, 3].any (fun t => d.kind t != 0 && ((d.src t == 3 && !d.auxEn) || (d.src t == 4 && !d.leader))))

/-- The codes of Table 02-11 in check order, each with its condition on the section in bank `b` of cluster `g`. -/
def State.checks (s : State) (g b : Nat) : List (Nat × Bool) :=
  let w := s.bankWord g b
  let len := w 0x18
  let bytes := s.banks.readBytes (bankBase g b) len
  let d (i : Nat) : ChDesc := s.bankDesc g b i
  let is := List.range 32
  [(0x10, w 0 != 0x43535844),
   (0x14, w 4 / 256 % 256 != 1 || w 4 % 256 != 0),
   (0x12, w 8 != 0x5120),
   (0x13, !(w 0xC).testBit Config.silicon),
   (0x15, len % 64 != 0 || decide (len < 0x1000) || decide (0x100000 < len)),
   (0x11, crc32c (bytes.take 0x1C ++ [0, 0, 0, 0] ++ bytes.drop 0x20) != w 0x1C),
   (0x16, !(w 0x14).testBit g),
   (0x17, (List.range 1024).any (fun k => s.reservedBad g b (4 * k))),
   (0x19, is.any (fun i => (w 0x20).testBit i != (d i).en) ||
     is.any (fun i => (d i).en && (List.range 4).any (fun t => slotBad t ((d i).kind t) ((d i).src t)))),
   (0x18, is.any (fun i => (d i).laneCycles != (d i).cost || decide (64 < (d i).laneCycles))),
   (0x1C, is.any (s.bindingWrong g b)),
   (0x1A, s.gangWrong g b),
   (0x1B, (List.range 8).any (fun l => (w (0xA80 + 8 * l)).testBit 0 && !(d (w (0xA80 + 8 * l) / 2 % 32)).en))]

/-- The code of the first condition that holds; VALID where none does. -/
def firstCode (xs : List (Nat × Bool)) : Nat := ((xs.find? (·.2)).map (·.1)).getD 1

/-! ### Rescale at a range tick (Table 07-4, R172) -/

/-- Register `a` takes, live and shadow, its value times the ratio q where `c` holds (`uns`: read as unsigned), and is kept elsewhere. -/
def State.regScaled (s t : State) (c uns : Bool) (q : Nat × Nat) (a : Nat) : Prop :=
  let val (w : Word) : Int := if uns then (w.toNat : Int) else w.toInt
  t.rd a = (if c then wordOf (rescale (val (s.rd a)) q).1 else s.rd a) ∧ t.lv a = (if c then wordOf (rescale (val (s.lv a)) q).1 else s.lv a)

/-- Every value of Table 07-4 (`volt`: of R172) of channel n is multiplied by q where its condition holds, and kept where not: SETPOINT,
PG_AMP and a run's amplitude, the slew limiter, the injection amplitude, the slots' limits and stored errors, the model's threshold. -/
def State.rescaled (s t : State) (n : Nat) (volt : Bool) (q : Nat × Nat) : Prop :=
  let d := s.desc n
  let own := d.present 0 && d.src 0 == (if volt then 0 else 1)
  let slotOn (k : Nat) : Bool := d.present k && scalesWith volt (d.src k)
  let node := s.lfld (CH_INJ_CTL n) fCH_INJ_CTL_NODE
  let inj := (node == 0 && own) || (node == 1 && slotOn (s.lfld (CH_INJ_CTL n) fCH_INJ_CTL_SLOT))
  s.regScaled t own false q (CH_SETPOINT n) ∧ s.regScaled t own false q (PG_AMP n) ∧ s.regScaled t inj false q (CH_INJ_AMP n) ∧
  (∀ k, k < 4 → s.regScaled t (slotOn k) false q (LOOP_LIMIT n k) ∧
    ((t.eng n).slot k).e = (if slotOn k then ofQ (sat32 (rha (((s.eng n).slot k).e * q.1) (q.2 * 2 ^ 98))) else ((s.eng n).slot k).e)) ∧
  s.regScaled t (!volt && d.modelEn) true q (CH_MODEL_TH n) ∧
  (t.eng n).r = (if own then (rescale (s.eng n).r q).1 else (s.eng n).r) ∧
  (t.eng n).v = (if own then (rescale (s.eng n).v q).1 else (s.eng n).v) ∧
  (t.chan n).pg.run = (if own then (s.chan n).pg.run.map (fun p => { p with amp := (rescale p.amp q).1 }) else (s.chan n).pg.run)

/-! ### Messages (R318) -/

/-- Between `s` and `t` vector v's message has gone out, or its pending bit has been set where it may not (R318). -/
def State.vecTold (s t : State) (v : Nat) : Prop :=
  if s.host.shut = true ∨ (s.msixWord v 3).getLsbD 0 = true then
    t.host.pba.testBit v = true ∧ SMap.get 0 t.host.sent v = SMap.get 0 s.host.sent v
  else t.host.pba.testBit v = false ∧ SMap.get 0 t.host.sent v = SMap.get 0 s.host.sent v + 1

/-! ### Runs -/

/-- Every command in the queue has operands in the ranges its row gives. -/
def State.queueWf (s : State) : Prop := s.pending.all Instr.wf = true

/-- Run a list of commands, the first first; none where one does not end in a next state. -/
def runAll : List Instr → State → Option State
  | [], s => some s
  | c :: r, s =>
    match exec c s with
    | .next t => runAll r t
    | _ => none

end Sys2Proof.Machine
end

