-- ==== Sys2Proof/Certificates/Slice0/Obligations.lean ====
section
/-!
DEFINITION. The statements for the provers, family by family in the order of the opcode table. A statement that concludes
`exec c s = .next t` for a command says where that command completes, and in what.
-/

open Sys2Proof Sys2Proof.Machine

/-- A step takes the command at the front of the queue and is that command's effect on the state with the queue's rest; an empty queue
idles (assumption 1). -/
def Obligations.StepRunsFront : Prop :=
  (∀ (c : Instr) (rest : List Instr) (s : State), step { s with pending := c :: rest } = exec c { s with pending := rest }) ∧
  (∀ s : State, s.pending = [] → step s = .next s)

/-- No command touches the queue, so a step shortens it by the command it ran (assumption 1: the outside puts commands there). -/
def Obligations.QueueOnlyShrinks : Prop :=
  (∀ (c : Instr) (s t : State), exec c s = .next t → t.pending = s.pending) ∧
  (∀ s t : State, step s = .next t → t.pending = s.pending.tail)

/-- Every command answers a next state, in every state: no meaning ends in a fault or a refusal. -/
def Obligations.EveryCommandAnswers : Prop := ∀ (c : Instr) (s : State), ∃ t, exec c s = .next t

/-- The addressed memories keep their canonical form in every step. -/
def Obligations.MemoriesStayCanonical : Prop := ∀ s t : State, s.memWf → step s = .next t → t.memWf

/-- What State.reset is: no memory lists a byte, the queue is empty, no agenda, and the addressed memories are canonical. -/
def Obligations.ResetIsCanonical : Prop :=
  State.reset.memWf ∧ State.reset.pending = [] ∧ State.reset.later = [] ∧ State.reset.tick = 0 ∧ State.reset.phase.p = 0

/-- While the function takes memory requests (Memory Space Enable, D0), a write of a register sets the enabled bytes of its RW, RWS and SH fields, clears the W1C bits that it writes as 1 and that the
device does not set in the same cycle, and leaves every other bit and register (R15, R16, R36), but for CH_ENG_STAT, whose FORCED shows
CH_ENG_CTL, and, after a write of tokens, the states of the channels that wait for them (R274, R282); a vector of which it is a source or enable register
sends its message if its condition is true then (R318). A write of a reserved address does nothing, and one reads 0 (R6). A write of the
MSI-X table changes its word; clearing a mask sends the pending message while its condition is true (R318). While the function does not
take memory requests, a write is an unsupported request (R312, R313).
It states where this command completes, and in what: registerWrite. -/
def Obligations.RegisterWriteBits : Prop :=
  (∀ (addr be : Nat) (data same : Word) (rq : Req) (s : State), (regAt (addr / 4 * 4)).isSome = true →
    ¬(bar4Base + 0x8000 ≤ addr / 4 * 4 ∧ addr / 4 * 4 < bar4Base + 0x8400) → s.answers (addr / 4 * 4) = true →
    s.memOn = true →
    (maskAt (addr / 4 * 4) .sh = 0 ∨ (s.com (grpOf (addr / 4 * 4))).frozen = false) →
    ¬(addr / 4 * 4 = MBX_GO ∧ be.testBit 0 = true ∧ data.getLsbD 0 = true) → (∀ n, addr / 4 * 4 ≠ CH_ENG_STAT n) →
    (∀ d ∈ s.dma.map (·.1), d < 32) →
    ∃ t, exec (.registerWrite addr data be ⟨rq, same⟩) s = .next t ∧
      (∀ i, i < 32 → (t.rd (addr / 4 * 4)).getLsbD i = s.storedBit (addr / 4 * 4) data be same i) ∧
      (∀ a, a ≠ addr / 4 * 4 → (∀ n, a ≠ CH_ENG_STAT n) →
        ((∃ k, k < 64 ∧ addr / 4 * 4 = DMA_REQ_TOK k) → ∀ d, d < 32 → a ≠ DMA_CH_STAT d) → t.rd a = s.rd a) ∧
      s.quiet t ∧ ∀ v ∈ vecsOf (addr / 4 * 4), t.vecCond v = true → s.vecTold t v) ∧
  (∀ (addr be : Nat) (data same : Word) (rq : Req) (s : State), s.memOn = true → s.answers (addr / 4 * 4) = true →
    regAt (addr / 4 * 4) = none → ¬(bar4Base + 0x8000 ≤ addr / 4 * 4 ∧ addr / 4 * 4 < bar4Base + 0x8400) →
    exec (.registerWrite addr data be ⟨rq, same⟩) s = .next s) ∧
  (∀ (a vc : Nat) (s : State), regAt a = none → memAt a = none → (bar4Base ≤ a → 0xA000 ≤ a - bar4Base) → s.readReg a vc = 0) ∧
  (∀ (v w be : Nat) (data same : Word) (rq : Req) (s : State), s.memOn = true → v < 64 → w < 4 →
    ∃ t, exec (.registerWrite (bar4Base + 0x8000 + 16 * v + 4 * w) data be ⟨rq, same⟩) s = .next t ∧
      (∀ i, i < 32 → (t.msixWord v w).getLsbD i =
        if be.testBit (i / 8) && (w != 3 || i == 0) && (w != 0 || decide (2 ≤ i)) then data.getLsbD i else (s.msixWord v w).getLsbD i) ∧
      (∀ x y, y < 4 → (x ≠ v ∨ y ≠ w) → t.msixWord x y = s.msixWord x y) ∧ t = { s with host := t.host } ∧
      (w = 3 → (s.msixWord v 3).getLsbD 0 = true → be.testBit 0 = true → data.getLsbD 0 = false → s.host.pba.testBit v = true →
        s.vecCond v = true → s.host.shut = false →
        t.host.pba.testBit v = false ∧ SMap.get 0 t.host.sent v = SMap.get 0 s.host.sent v + 1)) ∧
  (∀ (addr be : Nat) (data same : Word) (rq : Req) (s : State), s.memOn = false → s.elogRepeats 0x0A rq.hdr = false →
    ∃ t, exec (.registerWrite addr data be ⟨rq, same⟩) s = .next t ∧ s.elogEntry t 0x0A rq.vc rq.hdr addr ∧ s.elogged t ∧
      ∀ x, ¬ elogReg x → t.rd x = s.rd x)

/-- In the frozen interval of its group the first write of a shadowed register is held, and its register does not change; a second
one is refused, with SHADOW_BUSY, CLU_REFUSED_ADDR and an event log entry of address and data (R60, R61). -/
def Obligations.FrozenWrites : Prop :=
  ∀ (addr be : Nat) (data same : Word) (rq : Req) (s : State), (regAt (addr / 4 * 4)).isSome = true → s.answers (addr / 4 * 4) = true →
    ¬(bar4Base + 0x8000 ≤ addr / 4 * 4 ∧ addr / 4 * 4 < bar4Base + 0x8400) → addr / 4 * 4 ≠ MBX_GO → s.memOn = true →
    maskAt (addr / 4 * 4) .sh ≠ 0 → (s.com (grpOf (addr / 4 * 4))).frozen = true →
    let a := addr / 4 * 4
    let g := grpOf a
    (((s.com g).held.any (fun w => w.addr == a)) = false → ∃ t, exec (.registerWrite addr data be ⟨rq, same⟩) s = .next t ∧
      (t.com g).held = (s.com g).held ++ [⟨a, data, be⟩] ∧ t.regs = s.regs ∧
      t = { s with hubCommit := t.hubCommit, clu := t.clu } ∧ (∀ h, h ≠ g → t.com h = s.com h)) ∧
    (((s.com g).held.any (fun w => w.addr == a)) = true → ∃ t, exec (.registerWrite addr data be ⟨rq, same⟩) s = .next t ∧
      s.writeRefused t g a data)

/-- A host read of a register answers with a completion of one DW on the request's channel (R313, R314) and changes nothing else, but for
the latch of its pair on that channel where it is a _LO register: the _HI register then returns the latched half (R17). A memory of Table
19-2 that answers it counts its corrected errors; an uncorrectable one is reported with its address, and from the capture buffer sets EP
(R387). While the function does not take memory requests, the read is answered with Unsupported Request (R312, R313).
It states where this command completes, and in what: readLoLatch. -/
def Obligations.ReadLoadsLatch : Prop :=
  (∀ (a : Nat) (rd : RegRead) (s : State), s.memOn = true → isLo a = true → s.answers a = true → memAt a = none →
    ∃ t, exec (.readLoLatch a rd) s = .next t ∧
      SMap.get 0 t.latches (2 * a + rd.req.vc % 2) = BitVec.ofNat 32 (s.pair a / 2 ^ 32) ∧
      (∀ k, k ≠ 2 * a + rd.req.vc % 2 → SMap.get 0 t.latches k = SMap.get 0 s.latches k) ∧
      t = { s with latches := t.latches, host := (s.complete rd.req 0 false 4).host } ∧
      (isHi (a + 4) = true → isLo (a + 4) = false → s.answers (a + 4) = true → memAt (a + 4) = none → a + 4 < bar4Base →
        a + 4 ≠ HUB_ID → a + 4 ≠ TST_IDCODE → t.readReg (a + 4) rd.req.vc = BitVec.ofNat 32 (s.pair a / 2 ^ 32))) ∧
  (∀ (a : Nat) (rd : RegRead) (s : State), s.memOn = true → (isLo a = false ∨ s.answers a = false) →
    (memAt a = none ∨ s.answers a = false) → exec (.readLoLatch a rd) s = .next (s.complete rd.req 0 false 4)) ∧
  (∀ (a m g ce : Nat) (rq : Req) (s : State), s.memOn = true → isLo a = false → s.answers a = true → memAt a = some (m, g) →
    ∃ t, exec (.readLoLatch a ⟨rq, ⟨ce, none⟩⟩) s = .next t ∧ t.host = (s.complete rq 0 false 4).host ∧
      (t.rd HUB_ECC_CE).toNat = min (2 ^ 32 - 1) ((s.rd HUB_ECC_CE).toNat + ce) ∧
      (0 < ce → t.rd HUB_ECC_STAT = fHUB_ECC_STAT_CE.put (s.rd HUB_ECC_STAT) 1) ∧
      (∀ x, (0 < ce → x ∉ [HUB_ECC_CE, HUB_ECC_STAT]) → t.rd x = s.rd x) ∧ s.quiet t) ∧
  (∀ (a m g ce u : Nat) (rq : Req) (s : State), s.memOn = true → isLo a = false → s.answers a = true → memAt a = some (m, g) →
    ∃ t, exec (.readLoLatch a ⟨rq, ⟨ce, some u⟩⟩) s = .next t ∧ t.rd HUB_ECC_ADDR = BitVec.ofNat 32 (a / 4 * 4) ∧
      fHUB_ECC_STAT_MEM.get (t.rd HUB_ECC_STAT) = m ∧ (t.rd HUB_FAULT_STAT).getLsbD 13 = true ∧
      (t.host.ready.getLast?).map (·.kind) = some (.completion 0 (decide (m = 4)) 4) ∧
      s.regsOnly t [HUB_ECC_STAT, HUB_ECC_ADDR, HUB_ECC_CE, HUB_ECC_UE, HUB_FAULT_STAT, HUB_INT_STAT, MBX_EVT_STAT, CLU_BANK_STAT g,
        CLU_STBY_ID g]) ∧
  (∀ (a : Nat) (rd : RegRead) (s : State), s.memOn = false → s.elogRepeats 0x0A rd.req.hdr = false →
    ∃ t u, exec (.readLoLatch a rd) s = .next t ∧ s.elogEntry u 0x0A rd.req.vc rd.req.hdr a ∧ s.elogged u ∧
      (∀ x, ¬ elogReg x → u.rd x = s.rd x) ∧ t = u.complete rd.req 1 false 0)

/-- BAR2 maps sequence memory linearly (R39): while the stacks are ACTIVE a write stores its bytes and nothing else; a read is
completed, split at 64-byte boundaries (R313), its corrected errors are counted, and one that meets an uncorrectable error is completed
with EP set and records the address in both logs. Outside ACTIVE both are discarded, a read returning zeros, and the first of them is
recorded (R375). While the function does not take memory requests, both are unsupported requests (R312, R313; a write row carries no
header: the one that is logged is open, assumption 10).
It states where these commands complete, and in what: bar2Read, bar2Write. -/
def Obligations.Bar2Access : Prop :=
  (∀ (addr : Nat) (bytes : List Byte) (s : State), s.memOn = true → s.dramActive = true → addr + bytes.length ≤ 2 ^ 32 →
    ∃ t, exec (.bar2Write addr bytes) s = .next t ∧ (∀ i (h : i < bytes.length), t.seqMem.read (addr + i) = bytes[i]) ∧
      (∀ b, b < addr ∨ addr + bytes.length ≤ b → t.seqMem.read b = s.seqMem.read b) ∧ t = { s with seqMem := t.seqMem }) ∧
  (∀ (addr len ce : Nat) (rq : Req) (s : State), s.memOn = true → s.dramActive = true →
    ∃ t, exec (.bar2Read addr len ⟨ce, none⟩ rq) s = .next t ∧ t.host = (s.completeRead rq false addr len).host ∧
      (t.rd HUB_ECC_CE).toNat = min (2 ^ 32 - 1) ((s.rd HUB_ECC_CE).toNat + ce) ∧
      (0 < ce → t.rd HUB_ECC_STAT = fHUB_ECC_STAT_CE.put (s.rd HUB_ECC_STAT) 1) ∧
      (∀ x, (0 < ce → x ∉ [HUB_ECC_CE, HUB_ECC_STAT]) → t.rd x = s.rd x) ∧ s.quiet t) ∧
  (∀ (addr len ce a : Nat) (rq : Req) (s : State), s.memOn = true → s.dramActive = true → addr ≤ a → a < addr + len →
    s.elogRepeats 0x22 rq.hdr = false →
    ∃ t u v, exec (.bar2Read addr len ⟨ce, some a⟩ rq) s = .next t ∧ s.elogEntry u 0x22 rq.vc rq.hdr a ∧ s.elogged u ∧
      (∀ x, ¬ elogReg x → x ∉ [HUB_ECC_CE, HUB_ECC_STAT] → u.rd x = s.rd x) ∧
      v.rd HUB_ECC_ADDR = BitVec.ofNat 32 a ∧ (v.rd HUB_FAULT_STAT).getLsbD 13 = true ∧
      (∀ x, x ∉ [HUB_ECC_STAT, HUB_ECC_ADDR, HUB_ECC_UE, HUB_FAULT_STAT, HUB_INT_STAT, MBX_EVT_STAT] → v.rd x = u.rd x) ∧
      ({ u with faultTick := some s.tick } : State).logged v ∧ t = v.completeRead rq true addr len) ∧
  (∀ (addr len : Nat) (rq : Req) (ep : Bool) (s : State), 0 < len →
    (∃ cs : List TxTlp, (s.completeRead rq ep addr len).host.ready = s.host.ready ++ cs ∧
      cs.map (·.kind) = (splitReq 64 addr len).map (fun x => TxKind.completion 0 ep x.2)) ∧
    (∀ x ∈ splitReq 64 addr len, 0 < x.2 ∧ addr ≤ x.1 ∧ x.1 + x.2 ≤ addr + len ∧ x.1 / 64 = (x.1 + x.2 - 1) / 64) ∧
    ((splitReq 64 addr len).map (·.2)).sum = len) ∧
  (∀ (addr : Nat) (bytes : List Byte) (len : Nat) (ecc : ReadEcc) (rq : Req) (s : State), s.memOn = true → s.dramActive = false →
    s.dramLogged = false → s.readBar2 addr len = List.replicate len 0 ∧
    ∃ t u, exec (.bar2Write addr bytes) s = .next t ∧ exec (.bar2Read addr len ecc rq) s = .next u ∧
      u = t.completeRead rq false addr len ∧
      t.rd PWR_DRAM_STAT = fPWR_DRAM_STAT_ACCESS_DISCARDED.put (s.rd PWR_DRAM_STAT) 1 ∧ t.newest 0xC 9 PWR_DRAM_STAT 0 0 ∧
      s.regsOnly t [PWR_DRAM_STAT, MBX_EVT_STAT] ∧ ({ s with dramLogged := true } : State).logged t) ∧
  (∀ (addr : Nat) (bytes : List Byte) (len : Nat) (ecc : ReadEcc) (rq : Req) (s : State), s.memOn = false →
    (∃ t hdr vc, exec (.bar2Write addr bytes) s = .next t ∧ (s.elogRepeats 0x0A hdr = false → s.elogEntry t 0x0A vc hdr addr) ∧
      ({ s with freeCount := t.freeCount } : State).elogged t ∧ ∀ x, ¬ elogReg x → t.rd x = s.rd x) ∧
    (s.elogRepeats 0x0A rq.hdr = false → ∃ t u, exec (.bar2Read addr len ecc rq) s = .next t ∧ s.elogEntry u 0x0A rq.vc rq.hdr addr ∧
      s.elogged u ∧ (∀ x, ¬ elogReg x → u.rd x = s.rd x) ∧ t = u.complete rq 1 false 0))

/-- A request that breaks R36, and every PCIe error class but 0x0B, enters the link and error log (R313, R326), and a read that breaks it
is completed with Completer Abort. Class 0x0A answers a non-posted request with Unsupported Request; class 0x0E is one only while ECRC
checks are enabled; class 0x01 counts its lane's errors, classes 0x05 and 0x0C send the link into Recovery, and a bad completion (0x0F, 0x09,
0x07) is a DMA bus error (R279; its kind by header: assumption 33). No output and no other register changes (R28). A write to the span of
a tile that is not UP is discarded; the first one of an isolation enters the log as class 0x21 (R38), with its request's header, or for a
row that does not carry one with open values (assumption 10).
It states where these commands complete, and in what: bar0RequestAbort, linkError. -/
def Obligations.LinkErrorsAreLogged : Prop :=
  (∀ (write : Bool) (addr : Nat) (rq : Req) (s : State),
    let cls := if s.memOn then 0x0B else 0x0A
    s.elogRepeats cls rq.hdr = false →
    ∃ t u, exec (.bar0RequestAbort write addr rq) s = .next t ∧ s.elogEntry u cls rq.vc rq.hdr addr ∧ s.elogged u ∧
      (∀ x, ¬ elogReg x → u.rd x = s.rd x) ∧ t = (if write then u else u.complete rq (if s.memOn then 4 else 1) false 0)) ∧
  (∀ (cls addr : Nat) (rq : Req) (s : State), 1 ≤ cls → cls < 16 → cls ≠ 0xB → (cls = 0xE → s.host.cfg.ecrcCheck = true) →
    s.elogRepeats cls rq.hdr = false →
    ∃ t u, exec (.linkError cls addr rq) s = .next t ∧ s.elogEntry u cls rq.vc rq.hdr addr ∧ s.elogged u ∧
      (∀ x, ¬ elogReg x → u.rd x = s.rd x) ∧
      (cls = 1 → t.fld PCI_LANE_ERR (laneErrField (addr % 4)) = min 255 (s.fld PCI_LANE_ERR (laneErrField (addr % 4)) + 1) ∧
        u.regsOnly t [PCI_LANE_ERR] ∧ t = { u with regs := t.regs, host := { u.host with errTicks := t.host.errTicks } }) ∧
      ((cls = 5 ∨ cls = 0xC) → t.bit PCI_LINK_STAT fPCI_LINK_STAT_RETRAINED = true ∧ u.regsOnly t [PCI_LINK_STAT, PCI_INT_STAT] ∧
        u.quiet t) ∧
      (cls = 0xA → t = if Tlp.posted rq.hdr then u else u.complete rq 1 false 0) ∧
      (cls = 7 → t = if Tlp.completion rq.hdr then u.dmaBusStop 2 3 addr else u) ∧
      (cls = 9 → t = u.dmaBusStop 2 4 addr) ∧ (cls = 0xF → t = u.dmaBusStop 2 (Tlp.failKind rq.hdr) addr) ∧
      (cls ∉ [1, 5, 7, 9, 0xA, 0xC, 0xF] → t = u)) ∧
  (∀ (addr : Nat) (rq : Req) (s : State), s.host.cfg.ecrcCheck = false → exec (.linkError 0xE addr rq) s = .next s) ∧
  (∀ (c : Instr) (tl a : Nat) (s : State), tileWrite c = some (tl, a) → s.tileUp tl = false →
    (s.firstDiscard tl = false → exec c s = .next s) ∧
    (s.firstDiscard tl = true → ∃ t vc hdr, exec c s = .next t ∧ (s.elogRepeats 0x21 hdr = false → s.elogEntry t 0x21 vc hdr a) ∧
      t.isoLogged = s.isoLogged ||| 2 ^ tl ∧ (∀ x, ¬ elogReg x → t.rd x = s.rd x) ∧
      ({ s with isoLogged := t.isoLogged, freeCount := t.freeCount } : State).elogged t)) ∧
  (∀ (c : Instr) (a : Nat) (rq : Req) (s : State), tileWriteReq a rq c → 0x1000000 ≤ a → a < 0x5000000 → s.memOn = true → s.answers a = false →
    let tl := (a - 0x1000000) / 0x1000000
    (∀ x d b, c = .standbyBankWrite x d b rq → (bankOf a).isSome = true) →
    (∀ x d b, c = .coefficientWindowWrite x d b rq → ∃ n w, n < 512 ∧ w < 256 ∧ a = chBase n + 0x800 + 4 * w) →
    (s.firstDiscard tl = false → exec c s = .next s) ∧
    (s.firstDiscard tl = true → ∃ t, exec c s = .next t ∧ (s.elogRepeats 0x21 rq.hdr = false → s.elogEntry t 0x21 rq.vc rq.hdr a) ∧
      t.isoLogged = s.isoLogged ||| 2 ^ tl ∧ (∀ x, ¬ elogReg x → t.rd x = s.rd x) ∧
      ({ s with isoLogged := t.isoLogged } : State).elogged t))

/-- A write of a word to a structure bank (R54, R55, R63): to the standby bank, under the OPEN policy and with no bank commit pending, it
stores its enabled bytes and makes the bank unvalidated, which abandons a running check; otherwise nothing is stored and the link and
error log names the write.
It states where this command completes, and in what: standbyBankWrite. -/
def Obligations.StructureBankWrites : Prop :=
  ∀ (addr be g b : Nat) (data : Word) (rq : Req) (s : State), bankOf (addr / 4 * 4) = some (g, b) → s.memOn = true → s.tileUp (g / 4) = true →
    let a := addr / 4 * 4
    (b ≠ s.activeBank g → s.polSigned = false → s.bankPending g = false →
      ∃ t, exec (.standbyBankWrite addr data be rq) s = .next t ∧
        (∀ i, i < 4 → t.banks.read (a + i) = if be.testBit i then data.extractLsb' (8 * i) 8 else s.banks.read (a + i)) ∧
        (∀ x, x < a ∨ a + 4 ≤ x → t.banks.read x = s.banks.read x) ∧
        t.rd (CLU_BANK_STAT g) = fCLU_BANK_STAT_CODE.put (fCLU_BANK_STAT_STBY_VALID.put (s.rd (CLU_BANK_STAT g)) 0) 0 ∧
        t.rd (CLU_STBY_ID g) = 0 ∧ s.regsOnly t [CLU_BANK_STAT g, CLU_STBY_ID g] ∧ ({ s with banks := t.banks } : State).onlyRegs t) ∧
    (b = s.activeBank g ∨ s.polSigned = true ∨ s.bankPending g = true → s.elogRepeats 0x20 rq.hdr = false →
      ∃ t, exec (.standbyBankWrite addr data be rq) s = .next t ∧ s.elogEntry t 0x20 rq.vc rq.hdr a ∧ s.elogged t ∧
        ∀ x, ¬ elogReg x → t.rd x = s.rd x)

/-- VALIDATE and INVALIDATE (R55, R56): VALIDATE starts a check, with STBY_VALID and CLU_STBY_ID 0 and CODE 0x02; it is ignored while
a check runs or a bank commit is pending, and returns 0x1E under the SIGNED policy. INVALIDATE clears the three unless a bank commit
is pending.
It states where these commands complete, and in what: validate, invalidate. -/
def Obligations.ValidateAndInvalidate : Prop :=
  (∀ (g : Clu) (s : State), s.tileUp (g / 4) = true → s.bankPending g = false →
    s.fld (CLU_BANK_STAT g) fCLU_BANK_STAT_CODE ≠ 2 → s.polSigned = false → ∃ t, exec (.validate g) s = .next t ∧
      t.rd (CLU_BANK_STAT g) = fCLU_BANK_STAT_CODE.put (fCLU_BANK_STAT_STBY_VALID.put (s.rd (CLU_BANK_STAT g)) 0) 2 ∧
      t.rd (CLU_STBY_ID g) = 0 ∧ s.regsOnly t [CLU_BANK_STAT g, CLU_STBY_ID g] ∧ s.onlyRegs t) ∧
  (∀ (g : Clu) (s : State), s.tileUp (g / 4) = true →
    (s.bankPending g = true ∨ s.fld (CLU_BANK_STAT g) fCLU_BANK_STAT_CODE = 2) → exec (.validate g) s = .next s) ∧
  (∀ (g : Clu) (s : State), s.tileUp (g / 4) = true → s.bankPending g = false →
    s.fld (CLU_BANK_STAT g) fCLU_BANK_STAT_CODE ≠ 2 → s.polSigned = true → ∃ t, exec (.validate g) s = .next t ∧
      t.rd (CLU_BANK_STAT g) = fCLU_BANK_STAT_CODE.put (s.rd (CLU_BANK_STAT g)) 0x1E ∧ s.regsOnly t [CLU_BANK_STAT g] ∧
      s.onlyRegs t) ∧
  (∀ (g : Clu) (s : State), s.tileUp (g / 4) = true → s.bankPending g = false → ∃ t, exec (.invalidate g) s = .next t ∧
      t.rd (CLU_BANK_STAT g) = fCLU_BANK_STAT_CODE.put (fCLU_BANK_STAT_STBY_VALID.put (s.rd (CLU_BANK_STAT g)) 0) 0 ∧
      t.rd (CLU_STBY_ID g) = 0 ∧ s.regsOnly t [CLU_BANK_STAT g, CLU_STBY_ID g] ∧ s.onlyRegs t) ∧
  (∀ (g : Clu) (s : State), s.tileUp (g / 4) = true → s.bankPending g = true → exec (.invalidate g) s = .next s)

/-- The end of a check (R56): CODE takes the outcome; a bank that passes becomes STBY_VALID and CLU_STBY_ID takes IMAGE_ID, a bank that
fails gives the offset and channel in CLU_BANK_FAIL; VALIDATED is raised, and its vector's message is sent where that makes its condition
true (R318). The outcome is the code of the first condition of Table 02-11 that holds of the section, and VALID where none does.
It states where this command completes, and in what: validationDone. -/
def Obligations.ValidationEnds : Prop :=
  ∀ (g : Clu) (s : State), s.fld (CLU_BANK_STAT g) fCLU_BANK_STAT_CODE = 2 →
    let v := s.checkBank g (s.stbyBank g)
    let st := fCLU_BANK_STAT_CODE.put (s.rd (CLU_BANK_STAT g)) v.code
    ∃ t, exec (.validationDone g) s = .next t ∧
      (v.code = 1 → t.rd (CLU_BANK_STAT g) = fCLU_BANK_STAT_STBY_VALID.put st 1 ∧
        t.rd (CLU_STBY_ID g) = BitVec.ofNat 32 (s.bankWord g (s.stbyBank g) 0x10) ∧ t.rd (CLU_BANK_FAIL g) = s.rd (CLU_BANK_FAIL g)) ∧
      (v.code ≠ 1 → t.rd (CLU_BANK_STAT g) = st ∧ t.rd (CLU_STBY_ID g) = s.rd (CLU_STBY_ID g) ∧
        t.rd (CLU_BANK_FAIL g) =
          fCLU_BANK_FAIL_CHANNEL.put (fCLU_BANK_FAIL_OFFSET.put (s.rd (CLU_BANK_FAIL g)) v.off) v.chan) ∧
      t.rd (CLU_INT_STAT g) = fCLU_INT_STAT_VALIDATED.put (s.rd (CLU_INT_STAT g)) 1 ∧
      s.regsOnly t [CLU_BANK_STAT g, CLU_STBY_ID g, CLU_BANK_FAIL g, CLU_INT_STAT g] ∧ s.quiet t ∧
      (s.vecCond (24 + g) = false → t.vecCond (24 + g) = true → s.vecTold t (24 + g)) ∧
      v.code = firstCode (s.checks g (s.stbyBank g))

/-- A commit of a group that is not frozen (R59, R60, R65): it is pending, at tick k+2 or at the due tick of its stamp, and the group's
shadows are frozen; PENDING and BANK_PENDING show it. A bank commit needs STBY_VALID. (HUB_COMMIT has no bank: assumption 19.)
It states where this command completes, and in what: commit. -/
def Obligations.CommitIsAccepted : Prop :=
  ∀ (g : Grp) (bank at_ : Bool) (s : State), (g.val = 16 ∨ s.tileUp (g / 4) = true) → (s.com g).frozen = false →
    (g.val = 16 ∨ bank = false ∨ s.bit (CLU_BANK_STAT g) fCLU_BANK_STAT_STBY_VALID = true) →
    let st := grpReg g HUB_COMMIT_STAT
    let b := bank && g.val != 16
    ∃ t, exec (.commit g bank at_) s = .next t ∧
      t.com g = { s.com g with pend := some ⟨s.sched (if at_ then some (s.rd64 (grpReg g HUB_COMMIT_AT_LO)) else none), b, at_⟩ } ∧
      (t.com g).frozen = true ∧
      t.rd st = fHUB_COMMIT_STAT_BANK_PENDING.put (fHUB_COMMIT_STAT_PENDING.put (s.rd st) 1) b.toNat ∧
      s.regsOnly t [st] ∧ t = { s with regs := t.regs, hubCommit := t.hubCommit, clu := t.clu } ∧ (∀ h, h ≠ g.val → t.com h = s.com h)

/-- A commit with BANK = 1 while STBY_VALID is 0 is refused as a whole; from an accepted one until its tick, writes of the standby bank
are discarded and logged (R63). -/
def Obligations.BankCommitNeedsValid : Prop :=
  (∀ (g : Grp) (at_ : Bool) (s : State), g.val < 16 → s.tileUp (g / 4) = true → (s.com g).frozen = false →
    s.bit (CLU_BANK_STAT g) fCLU_BANK_STAT_STBY_VALID = false →
    ∃ t, exec (.commit g true at_) s = .next t ∧ (t.com g).frozen = false ∧
      t.rd (CLU_COMMIT_STAT g) = fCLU_COMMIT_STAT_COMMIT_REFUSED.put (s.rd (CLU_COMMIT_STAT g)) 1 ∧
      t.newest 2 17 (CLU_COMMIT_STAT g) g 0 ∧ s.regsOnly t [CLU_COMMIT_STAT g, CLU_INT_STAT g, MBX_EVT_STAT] ∧ s.logged t) ∧
  (∀ (addr be g : Nat) (data : Word) (rq : Req) (p : PendCommit) (s : State), bankOf (addr / 4 * 4) = some (g, 1 - s.activeBank g) →
    s.memOn = true → s.tileUp (g / 4) = true → (s.cluster g).commit.pend = some p → p.bank = true → s.elogRepeats 0x20 rq.hdr = false →
    ∃ t, exec (.standbyBankWrite addr data be rq) s = .next t ∧ s.elogEntry t 0x20 rq.vc rq.hdr (addr / 4 * 4) ∧
      t.banks = s.banks ∧ s.elogged t ∧ (∀ x, ¬ elogReg x → t.rd x = s.rd x))

/-- A commit written in a frozen interval is held, once, with the stamp as CLU_COMMIT_AT read then (R62); a second one is refused as a
write is (R61). -/
def Obligations.CommitInFreezeIsHeld : Prop :=
  ∀ (g : Grp) (bank at_ : Bool) (s : State), (g.val = 16 ∨ s.tileUp (g / 4) = true) → (s.com g).frozen = true →
    let st := grpReg g HUB_COMMIT_STAT
    ((s.com g).heldCommit = none → ∃ t, exec (.commit g bank at_) s = .next t ∧
      t.com g = { s.com g with heldCommit := some ⟨bank, at_, s.rd64 (grpReg g HUB_COMMIT_AT_LO)⟩ } ∧
      t.rd st = fHUB_COMMIT_STAT_HELD_COMMIT.put (s.rd st) 1 ∧ s.regsOnly t [st] ∧
      t = { s with regs := t.regs, hubCommit := t.hubCommit, clu := t.clu } ∧ (∀ h, h ≠ g.val → t.com h = s.com h)) ∧
    ((s.com g).heldCommit ≠ none → ∃ t, exec (.commit g bank at_) s = .next t ∧
      s.writeRefused t g (grpReg g HUB_COMMIT) (commitWord bank at_))

/-- COMMIT_CANCEL cancels a commit written with AT that is not due at the coming tick; the freeze lasts up to tick m+2 (R66). Without a
pending commit, or where the commit was not written with AT or is due, it is ignored.
It states where this command completes, and in what: commitCancel. -/
def Obligations.CommitCancelRules : Prop :=
  ∀ (g : Grp) (s : State), (g.val = 16 ∨ s.tileUp (g / 4) = true) →
    let st := grpReg g HUB_COMMIT_STAT
    (∀ p, (s.com g).pend = some p → p.at_ = true → s.due p.due = false → ∃ t, exec (.commitCancel g) s = .next t ∧
      t.com g = { s.com g with pend := none, freezeEnd := some (s.tick + 2) } ∧
      t.rd st = fHUB_COMMIT_STAT_BANK_PENDING.put (s.rd st) 0 ∧ s.regsOnly t [st] ∧
      t.later = s.later ++ [(s.tick + 2, .freezeEnd g)] ∧
      t = { s with regs := t.regs, hubCommit := t.hubCommit, clu := t.clu, later := t.later } ∧ (∀ h, h ≠ g.val → t.com h = s.com h)) ∧
    (((s.com g).pend = none ∨ ∃ p, (s.com g).pend = some p ∧ (p.at_ = false ∨ s.due p.due = true)) →
      exec (.commitCancel g) s = .next s)

/-- A commit whose tick has come (R59, R62, R65): every live value of the group takes its shadow, and no other live value changes. GEN
counts modulo 256, SWAP_STAMP takes the tick's stamp, PENDING and BANK_PENDING are 0, LATE_STAMP is set where the stamp was late; a held
write lands in its shadow; a bank swap exchanges the banks and their validity and identity; a held commit begins at the tick. Before its
tick, or without a pending commit, the command is no event.
It states where this command completes, and in what: commitTick. -/
def Obligations.CommitTakesShadows : Prop :=
  (∀ (g : Grp) (p : PendCommit) (s : State), (s.com g).pend = some p → s.due p.due = true →
    let st := grpReg g HUB_COMMIT_STAT
    ∃ t, exec (.commitTick g) s = .next t ∧ (∀ a, shadowOf g a = true → t.lv a = s.rd a) ∧
      (∀ a, shadowOf g a = false → t.lv a = s.lv a) ∧ t.tick = s.tick ∧ t.phase.p = s.phase.p ∧
      (p.bank = false → (s.com g).held = [] →
        t.fld st fHUB_COMMIT_STAT_GEN = (s.fld st fHUB_COMMIT_STAT_GEN + 1) % 256 ∧
        t.rd64 (grpReg g HUB_SWAP_STAMP_LO) = s.nextStamp ∧ (t.com g).pend = none ∧
        t.bit st fHUB_COMMIT_STAT_PENDING = false ∧ t.bit st fHUB_COMMIT_STAT_BANK_PENDING = false ∧
        t.bit st fHUB_COMMIT_STAT_LATE_STAMP = (s.bit st fHUB_COMMIT_STAT_LATE_STAMP || (p.at_ && p.due.stamp.isNone)) ∧
        ((s.com g).heldCommit ≠ none → (s.tick + 1, Later.heldCommit g) ∈ t.later)) ∧
      (∀ w, p.bank = false → (s.com g).held = [w] → shadowOf g w.addr = true → regAt w.addr ≠ none → ∀ i, i < 32 →
        (t.rd w.addr).getLsbD i = s.storedBit w.addr w.data w.be 0 i) ∧
      (p.bank = true → g.val < 16 → (s.com g).held = [] →
        let av := s.activeValid g && !(s.cluster g).bankBad
        t.activeBank g = 1 - s.activeBank g ∧ t.activeValid g = true ∧ t.bit (CLU_BANK_STAT g) fCLU_BANK_STAT_STBY_VALID = av ∧
        t.rd (CLU_ACTIVE_ID g) = s.rd (CLU_STBY_ID g) ∧ t.rd (CLU_STBY_ID g) = (if av then s.rd (CLU_ACTIVE_ID g) else 0) ∧
        t.banks = s.banks)) ∧
  (∀ (g : Grp) (s : State), ((s.com g).pend = none ∨ ∃ p, (s.com g).pend = some p ∧ s.due p.due = false) →
    exec (.commitTick g) s = .next s)

/-- A write of a word of a channel's coefficient RAM (R35, R102, R123): its enabled bytes take the data, but for reserved bits and words (R5, R106); a word that read uncorrectable
reads well again, the word before the write is kept for the present period's computation. Nothing else changes.
It states where this command completes, and in what: coefficientWindowWrite. -/
def Obligations.CoefficientWrites : Prop :=
  ∀ (n : Ch) (w addr be : Nat) (data : Word) (rq : Req) (s : State), w < 256 → addr / 4 * 4 = chBase n + 0x800 + 4 * w →
    s.memOn = true → s.answers (addr / 4 * 4) = true →
    let a := addr / 4 * 4
    ∃ t, exec (.coefficientWindowWrite addr data be rq) s = .next t ∧
      (∀ i, i < 32 → (t.rd a).getLsbD i = if be.testBit (i / 8) && (coefBits (0x800 + 4 * w)).getLsbD i then data.getLsbD i
        else (s.rd a).getLsbD i) ∧
      t.coefBad = s.coefBad.erase a ∧
      t.coefOld = (if s.coefOld.any (fun e => e.1 == a) then s.coefOld else SMap.insert a (s.rd a) s.coefOld) ∧
      s.regsOnly t [a] ∧ t = { s with regs := t.regs, coefBad := t.coefBad, coefOld := t.coefOld }

/-- A sample tick outside a device reset's end: it is tick k+1, and P takes the value that was fixed for it in the period before; Δ of the
new period fixes P of the tick after unless an index pulse is to take effect there, it is PHB_FREE_INC in FREE and the held increment in
HOLDOVER, and a forward jump sets SKIP (R72, R73, R82, R85). A device reset that is due ends at the tick instead: the device is as that
reset leaves it. The arithmetic of the period that the tick begins: stage exponents (R108), the slew limiter (R130), the selector (R125), the
measured quantities (Table 05-1), the raw setpoint and the limited one (R129, R133, R143), each slot's errors, tracking and hold (R113, R120, R122, R126), the drive, and what a
channel reports and keeps of it (R100, R111, R127, R128); pushing in R113's sense is by the sign of (KP + KI) times the error (log entry
51).
It states where this command completes, and in what: sampleTick. -/
def Obligations.SampleTickAdvances : Prop :=
  (∀ (inp : TickIn) (s : State), (∀ x, s.hub.resetAt = some x → s.tick + 1 < x.1) → ∃ t, exec (.sampleTick inp) s = .next t ∧
    t.tick = s.tick + 1 ∧ t.phase.p = s.nextP ∧ t.phase.pPrev = s.phase.p ∧ t.coefOld = [] ∧ t.sums = [] ∧
    (t.phase.index = [] → t.nextP = (t.phase.p + t.phase.delta) % 2 ^ 96 ∧
      (t.phState = phFree → t.phMode = 0 → t.phase.delta = t.freeInc) ∧ (t.phState = phHoldover → t.phase.delta = t.phase.held)) ∧
    (s.nextIsJump = true → t.bit PHB_STAT fPHB_STAT_SKIP = true)) ∧
  (∀ (inp : TickIn) (at_ cause : Nat) (s : State), s.hub.resetAt = some (at_, cause) → at_ ≤ s.tick + 1 →
    exec (.sampleTick inp) s = .next (s.deviceReset cause)) ∧
  (∀ (k : StageKind) (xs : List Int), (∀ x ∈ xs, k.clamp x = x) → let e := k.exponent xs
    e ≤ k.top ∧ -32 ≤ e ∧ (∀ x ∈ xs, k.fits e x = true) ∧
    ∀ f, -32 ≤ f → f < e → ∃ x ∈ xs, k.fits f x = false) ∧
  (∀ x acc : Int, 0 < acc → brake x acc = if x ≤ 0 then 0 else x + brake (x - acc) acc) ∧
  (∀ rate acc v dist : Int, slewStep 0 acc v dist = dist ∧
    (0 < rate → slewStep rate 0 v dist = max (-rate) (min rate dist)) ∧
    (0 < rate → rate < 2 ^ 32 → 0 < acc → acc < 2 ^ 32 →
      let lo := max (v - acc) (-rate)
      let hi := min (v + acc) rate
      let x := slewStep rate acc v dist
      let fits (y : Int) : Prop := lo ≤ y ∧ y ≤ hi ∧ y ≤ dist ∧ brake y acc ≤ dist
      (0 ≤ dist → (∃ y, fits y) → fits x ∧ ∀ y, fits y → y ≤ x) ∧ (0 ≤ dist → (∀ y, ¬fits y) → x = lo) ∧
      (dist < 0 → x = -slewStep rate acc (-v) (-dist)))) ∧
  (∀ (kinds : List Nat) (us : List Int) (lo hi : Int), let r := select kinds us lo hi
    let u (k : Nat) : Int := us.getD k 0
    let of (kind : Nat) : List Nat := [1, 2, 3].filter (fun k => kinds.getD k 0 == kind)
    let d := (of 2).foldl (fun a k => min a (u k)) ((of 3).foldl (fun a k => max a (u k)) (u 0))
    r.d = min hi (max lo d) ∧ (r.ctrl = 4 ↔ hi < max lo d) ∧ (r.ctrl = 5 ↔ d < lo ∧ lo ≤ hi) ∧ r.ctrl < 6 ∧
    (r.ctrl < 4 → r.d = u r.ctrl ∧ (r.ctrl = 0 ∨ r.ctrl ∈ of 2 ∨ r.ctrl ∈ of 3) ∧
      ∀ k, k < r.ctrl → k ≠ 0 → kinds.getD k 0 = kinds.getD r.ctrl 0 → u k ≠ u r.ctrl) ∧
    (lo ≤ u 0 → u 0 ≤ hi → (∀ k ∈ of 2, u 0 ≤ u k) → (∀ k ∈ of 3, u k ≤ u 0) → r.ctrl = 0 ∧ r.d = u 0) ∧
    (r.conflict = true ↔ hi < lo ∨ ∃ j ∈ of 2, ∃ k ∈ of 3, u j < u k) ∧ (r.window = true ↔ r.ctrl = 4 ∨ r.ctrl = 5)) ∧
  (∀ (n : Nat) (aux : Int) (gang : List (Nat × Int)) (s : State), let x := (s.chan n).smp
    s.measured n 0 aux gang = ofQ x.v ∧ s.measured n 1 aux gang = ofQ x.iUse ∧
    s.measured n 2 aux gang * 2 ^ 60 = ofQ x.v * x.iUse.natAbs * 2 ^ 30 ∧ s.measured n 3 aux gang = ofQ aux ∧
    ∀ e, s.gangEntry (n / 32) (s.desc n).gang = some e → e.members ≠ 0 → s.measured n 4 aux gang = ofQ (inputAt gang n) / e.members) ∧
  (∀ (n : Nat) (x : Option Int) (s : State), let t := s.trk (s.feedTrack n)
    s.rawSetpoint n x = sat32 ((if t.has then t.val else (s.lv (CH_SETPOINT n)).toInt) +
      (match x with | some v => rhe (coefVal (s.coef n (s.coefBank n) 0 4) * v) (2 ^ 128) | none => 0) + s.pgTerm n)) ∧
  (∀ (n : Nat) (x : Option Int) (aux : Int) (gang : List (Nat × Int)) (s : State), let d := s.desc n
    let raw := s.rawSetpoint n x
    let y0 := sat32 (rhe (s.measured n (d.src 0) aux gang) (2 ^ 98))
    (((s.eng n).entry || s.haltRestart) = true → s.setpointPath n d x aux gang = (raw, y0, 0, 0)) ∧
    (((s.eng n).entry || s.haltRestart) = false → (s.chan n).pg.release = none →
      let own := (s.lv (CH_SLEW_RATE n)).toNat
      let vn := slewStep (if d.follower && own = 0 then 0x100000 else own) (s.lv (CH_SLEW_ACC n)).toNat (s.eng n).v (raw - (s.eng n).r)
      s.setpointPath n d x aux gang = (raw, sat32 ((s.eng n).r + vn), vn, vn - (s.eng n).v))) ∧
  (∀ (n : Nat) (inp : TickIn) (gang : List (Nat × Int)) (k : Nat) (s : State), k < 4 → (s.desc n).present k = true →
    let d := s.desc n
    let c := s.chanCalc n inp gang
    let x := c.slots.getD k SlotCalc.none
    let kp := coefVal (s.coef n (s.coefBank n) k 0)
    let ki := coefVal (s.coef n (s.coefBank n) k 1)
    let ib := ibound (s.coef n (s.coefBank n) k 5)
    let free := (s.inj n).x = 0 ∧ (s.burdenStep n).1 = 0
    let e := StageKind.wide.clamp ((if k = 0 then ofQ c.r else ofQ (s.lv (LOOP_LIMIT n k)).toInt) - s.measured n (d.src k) c.aux gang)
    let f := s.ffTerm n (s.coefBank n) k d c.aux c.d2r
    let y := (s.eng n).slot k
    let i := if y.preload then s.dApplied n - x.p - f else if x.tracked then s.dApplied n - f else if x.held then y.i else y.i + mulX ki x.e
    (x.tracked = true ↔ y.preload = false ∧ (s.haltRestart = true ∨ (c.guard = false ∧ (s.eng n).entry = false ∧ s.ctrl n ≠ k))) ∧
    (x.held = true ↔ y.preload = false ∧ c.guard = true ∧ (s.eng n).entry = false ∧ s.haltRestart = false ∧ 
      ((s.satDir n k d = 1 ∧ 0 < (kp + ki) * x.e) ∨ (s.satDir n k d = -1 ∧ (kp + ki) * x.e < 0))) ∧
    (free → x.e = e ∧ x.p = StageKind.wide.clamp (mulX kp e) ∧ x.f = f ∧ x.i = max (-ib) (min ib i) ∧
      x.u = StageKind.unit.clamp (x.p + x.i + f) ∧ (x.satP = true ↔ x.p ≠ mulX kp e) ∧ (x.satU = true ↔ x.u ≠ x.p + x.i + f) ∧
      (x.satI = true ↔ x.i ≠ i ∧ x.tracked = false))) ∧
  (∀ (c : ChanCalc) (es : List Int) (s : State), let r := s.chanSelect c es
    let lo := windowVal (s.lv (CH_DRIVE_LO c.n))
    let hi := windowVal (s.lv (CH_DRIVE_HI c.n))
    r.cc.n = c.n ∧
    r.sel = select ((List.range 4).map (s.desc c.n).kind)
      ((List.range 4).map (fun k => ((c.slots.getD k SlotCalc.none).rounded k es).judged)) lo hi ∧
    ((c.step = 0 ∨ s.heldThrough c.n = true) → r.drive = StageKind.unit.clamp r.sel.d ∧ r.clamp = false) ∧
    (∀ k, k < 4 → let x := (c.slots.getD k SlotCalc.none).rounded k es
      let y := r.cc.slots.getD k SlotCalc.none
      (x.dirU ≠ 0 → y.dirU = x.dirU) ∧ (x.dirU = 0 → r.sel.ctrl ≠ k →
        (r.sel.d < x.judged → y.dirU = 1) ∧ (x.judged < r.sel.d → y.dirU = -1))) ∧
    (c.step ≠ 0 → s.heldThrough c.n = false → r.drive = StageKind.unit.clamp (min hi (max lo (r.sel.d + c.step))) ∧
      (r.clamp = true ↔ r.drive ≠ r.sel.d + c.step))) ∧
  (∀ (c : ChanDone) (drv : Int) (s : State), c.cc.n < 512 → c.sel.ctrl < 6 → (s.eng c.cc.n).slots.length = 4 →
    let n := c.cc.n
    let t := s.chanReport c drv
    let ctrl := if s.heldThrough n then 6 else c.sel.ctrl
    t.ctrl n = ctrl ∧ t.rd (CH_DRIVE_NOW n) = wordOf (toQ drv) ∧ t.rd (CH_SLEW_NOW n) = wordOf c.cc.r ∧
    (t.eng n).drive = drv ∧ (t.eng n).hold = codeOf drv ∧ (t.eng n).r = c.cc.r ∧ (t.eng n).v = c.cc.v ∧ (t.eng n).sel = c.sel.ctrl ∧
    (t.eng n).entry = false ∧ (c.sel.conflict = true → t.bit (CH_LOOP_STAT n) fCH_LOOP_STAT_CONFLICT = true) ∧
    (c.sat = true → t.bit (CLU_ENG_SAT (n / 32)) fCLU_ENG_SAT_DRIVE = true) ∧
    (∀ k, k < 4 → (s.desc n).present k = true → let x := c.cc.slots.getD k SlotCalc.none
      ((t.eng n).slot k).i = x.i ∧ ((t.eng n).slot k).e = x.e ∧ ((t.eng n).slot k).u = x.u ∧
      t.rd (LOOP_ERR n k) = wordOf (toQ x.e) ∧ t.rd (LOOP_OUT n k) = wordOf (toQ x.u) ∧ t.rd (LOOP_INT n k) = wordOf (toQ x.i) ∧
      t.bit (LOOP_STAT n k) fLOOP_STAT_IN_CTRL = (ctrl == k) ∧ t.bit (LOOP_STAT n k) fLOOP_STAT_TRACKING = x.tracked ∧
      (x.satE = true → t.bit (LOOP_SAT n k) fLOOP_SAT_ERR = true ∧ (t.rd (CLU_ENG_SAT (n / 32))).getLsbD (4 * k) = true) ∧
      (x.satI = true → t.bit (LOOP_SAT n k) fLOOP_SAT_I = true ∧ (t.rd (CLU_ENG_SAT (n / 32))).getLsbD (4 * k + 2) = true) ∧
      (x.satU = true → t.bit (LOOP_SAT n k) fLOOP_SAT_OUT = true ∧ (t.rd (CLU_ENG_SAT (n / 32))).getLsbD (4 * k + 3) = true)) ∧
    s.chansOnly t [n])

/-- An event x of a periodic reference, the crossing that the samples have shown in SINE, an edge of the selected kind in PULSE (R80, R81).
Accepted in LOCKED or ACQUIRE (R84, R85, R88): PHB_PERR is its phase error in units of 2^-32 cycle, the mean of the 16 cycles that end at it
is kept for holdover (R87), its corrections wait for the period after the coming one (assumption 46), and the
sixteenth small error in a row of ACQUIRE, at a frequency in range, locks. One that is rejected in LOCKED sets REJECT and counts; the
fourth in a row returns to ACQUIRE. In HOLDOVER the sixteenth valid event in a row does (R90). A low peak in SINE is a loss (R86). Without
a periodic reference of its own the device ignores the event, and without a crossing or the selected edge there is none.
It states where this command completes, and in what: referenceEvent. -/
def Obligations.ReferenceEvents : Prop :=
  ∀ (rising : Bool) (cyc : Nat) (s : State),
    ((s.phPeriodic = false ∨ s.chained = true ∨ (s.phMode = 1 ∧ s.phase.ready = none) ∨ (s.phMode = 2 ∧ s.edgeTaken rising = false)) →
      exec (.referenceEvent rising cyc) s = .next s) ∧
    ∀ x : RefEvent, s.phPeriodic = true → s.chained = false →
      ((s.phMode = 1 ∧ s.phase.ready = some x) ∨ (s.phMode = 2 ∧ s.edgeTaken rising = true ∧ x.time = s.instant cyc ∧
        x.phase = (s.phase.p + s.phase.delta * (cyc % 400) / 400) % 2 ^ 96)) →
      let e := phaseError x.phase
      let interval := s.phase.lastEvent.map (x.time - ·)
      let big := 2 ^ (61 - s.fld PHB_REF_CFG fPHB_REF_CFG_WIN) < e.natAbs
      let low := s.phMode = 1 ∧ s.sineLow = true
      let ok := match interval with | some i => ((i * s.phase.held / unitT : Nat) - 2 ^ 64 : Int).natAbs ≤ 2 ^ 61 | none => False
      (¬low → ((s.phState = phLocked ∧ ¬big) ∨ s.phState = phAcquire) → ∃ t, exec (.referenceEvent rising cyc) s = .next t ∧
        t.rd PHB_PERR = wordOf ((e + 2 ^ 31) / 2 ^ 32) ∧ t.phase.events.head? = some ⟨x.time, x.phase, true⟩ ∧
        t.phase.lastEvent = some x.time ∧ t.phase.rejectCount = 0 ∧ t.phase.mean = meanOf t.phase.events ∧ t.phase.held = s.phase.held ∧
        (∃ h off, t.phase.track = some (h, off, interval.getD 0 / unitT) ∧ h ≤ 2 ^ 64 / 20) ∧
        t.bit PHB_STAT fPHB_STAT_REF_PRESENT = true ∧
        t.phState = (if s.phState = phAcquire ∧ e.natAbs ≤ 2 ^ 50 ∧ s.inRange interval = true ∧ 15 ≤ s.phase.lockCount then phLocked
          else s.phState) ∧
        t.phase.p = s.phase.p ∧ s.regsOnly t [PHB_STAT, PHB_PERR] ∧ ({ s with phase := t.phase } : State).quiet t) ∧
      (¬low → s.phState = phLocked → big → ∃ t, exec (.referenceEvent rising cyc) s = .next t ∧
        t.bit PHB_STAT fPHB_STAT_REJECT = true ∧
        t.fld PHB_EVENT_CNT fPHB_EVENT_CNT_REJECTED = min 65535 (s.fld PHB_EVENT_CNT fPHB_EVENT_CNT_REJECTED + 1) ∧
        t.phState = (if 3 ≤ s.phase.rejectCount then phAcquire else phLocked) ∧
        (s.phase.rejectCount < 3 → t.phase.rejectCount = s.phase.rejectCount + 1 ∧ t.phase.held = s.phase.held) ∧
        t.phase.p = s.phase.p ∧ s.regsOnly t [PHB_STAT, PHB_EVENT_CNT] ∧ ({ s with phase := t.phase } : State).quiet t) ∧
      (s.phState = phHoldover → ∃ t, exec (.referenceEvent rising cyc) s = .next t ∧
        (ok ∧ 15 ≤ s.phase.validCount → t.phState = phAcquire) ∧
        (¬(ok ∧ 15 ≤ s.phase.validCount) → t.phState = phHoldover ∧ t.phase.held = s.phase.held ∧
          (ok → t.phase.validCount = s.phase.validCount + 1) ∧ (¬ok → t.phase.validCount = 0)) ∧
        t.phase.lastEvent = some x.time ∧ t.bit PHB_STAT fPHB_STAT_REF_PRESENT = true ∧ t.phase.p = s.phase.p ∧
        s.regsOnly t [PHB_STAT] ∧ ({ s with phase := t.phase } : State).quiet t) ∧
      (low → s.phState = phAcquire ∨ s.phState = phLocked → ∃ t, exec (.referenceEvent rising cyc) s = .next t ∧
        t.phState = phHoldover ∧ t.bit PHB_STAT fPHB_STAT_LOSS = true ∧ t.rd64 PHB_HOLD_STAMP_LO = s.nextStamp ∧
        t.phase.held = min (s.phase.mean.getD s.phase.held) (2 ^ 64 / 20) ∧ t.phase.p = s.phase.p)

/-- Loss of reference (R86, R87): a missing periodic reference after 1.5 cycles, a low amplitude in SINE, a quadrature fault in QUAD.
From ACQUIRE or LOCKED the phase base enters HOLDOVER with LOSS, the mean increment kept at the last accepted event (assumption 46: the held
one where no cycle is known) within its bound, the stamp of the coming tick, and
an entry of the event log; a quadrature fault sets QFAULT. A quadrature fault in HOLDOVER sets QFAULT and begins the count of valid
transitions anew (R89); a missing index pulse clears REF_PRESENT alone.
It states where this command completes, and in what: refLoss. -/
def Obligations.LossOfReference : Prop :=
  (∀ (cause : LossCause) (s : State), s.chained = false → s.phState = phAcquire ∨ s.phState = phLocked →
    (match cause with
      | .missing => s.phPeriodic = true ∧
          3 * 2 ^ 63 * unitT ≤ ((s.tick + 1) * unitT - max s.phase.entered (s.phase.lastEvent.getD 0)) * s.phase.held
      | .amplitude => s.phMode = 1 ∧ s.sineLow = true
      | .quadrature => s.phMode = 3) →
    ∃ t, exec (.refLoss cause) s = .next t ∧ t.phState = phHoldover ∧ t.bit PHB_STAT fPHB_STAT_LOSS = true ∧
      t.rd64 PHB_HOLD_STAMP_LO = s.nextStamp ∧ t.phase.held ≤ 2 ^ 64 / 20 ∧ t.phase.offsetLeft = 0 ∧ t.phase.validCount = 0 ∧
      t.fld PHB_EVENT_CNT fPHB_EVENT_CNT_LOSSES = min 65535 (s.fld PHB_EVENT_CNT fPHB_EVENT_CNT_LOSSES + 1) ∧
      (cause = .missing → t.bit PHB_STAT fPHB_STAT_REF_PRESENT = false) ∧
      (cause ≠ .quadrature → t.phase.held = min (s.phase.mean.getD s.phase.held) (2 ^ 64 / 20)) ∧
      (cause = .quadrature → t.bit PHB_STAT fPHB_STAT_QFAULT = true ∧
        (s.lbit PHB_CTL fPHB_CTL_QHOLD = false → t.phase.held = 0)) ∧
      t.newest 5 8 PHB_STAT (t.rd PHB_STAT).toNat 0 ∧ t.phase.p = s.phase.p ∧
      s.regsOnly t [PHB_STAT, PHB_EVENT_CNT, PHB_HOLD_STAMP_LO, PHB_HOLD_STAMP_HI, MBX_EVT_STAT] ∧
      ({ s with phase := t.phase } : State).logged t) ∧
  (∀ s : State, s.chained = false → s.phMode = 3 → s.phState = phHoldover → ∃ t, exec (.refLoss .quadrature) s = .next t ∧
    t.rd PHB_STAT = fPHB_STAT_QFAULT.put (s.rd PHB_STAT) 1 ∧ t.phase = { s.phase with validCount := 0 } ∧ s.regsOnly t [PHB_STAT] ∧
    ({ s with phase := t.phase } : State).quiet t) ∧
  (∀ s : State, s.phIndex = true →
    3 * 2 ^ 63 * unitT ≤ ((s.tick + 1) * unitT - max s.phase.entered (s.phase.lastEvent.getD 0)) * s.freeInc →
    ∃ t, exec (.refLoss .missing) s = .next t ∧ t.rd PHB_STAT = fPHB_STAT_REF_PRESENT.put (s.rd PHB_STAT) 0 ∧
      s.regsOnly t [PHB_STAT] ∧ s.onlyRegs t)

/-- Index pulses and encoder counts of a device on its own reference (R82, R83, R89): a pulse takes effect at tick k+2. A legal step of the
tracks A and B, at least 25 ns after the transition before, moves the position by one, in the direction of QDIR, sets REVERSE on a
reverse count and ends ACQUIRE unless it came faster than 5 million transitions a second; any other change of the tracks is a quadrature
fault. Outside their mode a pulse is ignored and the tracks are only followed.
It states where these commands complete, and in what: indexPulse, quadCount. -/
def Obligations.IndexAndCounts : Prop :=
  (∀ (rising : Bool) (cyc : Nat) (s : State), s.phIndex = true → s.chained = false → s.edgeTaken rising = true →
    ∃ t, exec (.indexPulse ⟨rising, cyc⟩) s = .next t ∧
      t.phase.index = s.phase.index ++ [(s.tick + 2, s.instant cyc)] ∧ t.phase.lastEvent = some (s.instant cyc) ∧
      t.rd PHB_STAT = fPHB_STAT_REF_PRESENT.put (s.rd PHB_STAT) 1 ∧ s.regsOnly t [PHB_STAT] ∧
      t = { s with regs := t.regs, phase := { s.phase with index := t.phase.index, lastEvent := t.phase.lastEvent } }) ∧
  (∀ (a b : Bool) (cyc : Nat) (s : State), s.phMode = 3 → s.chained = false →
    let apart (n : Nat) : Prop := ∀ l, s.phase.qlast = some l → l + n * cycT ≤ s.instant cyc
    let step : Prop := ((a != s.phase.qa) != (b != s.phase.qb)) = true
    let up := ((a != s.phase.qa) == (a != b)) != s.lbit PHB_CTL fPHB_CTL_QDIR
    (step → apart 20 → ∃ t, exec (.quadCount a b cyc) s = .next t ∧ t.phase.qpos = s.phase.qpos + (if up then 1 else -1) ∧
      t.phase.qhigh = (if s.phState = phHoldover ∧ 15 ≤ s.phase.validCount then t.phase.qpos
        else max s.phase.qhigh t.phase.qpos) ∧
      t.rd PHB_QUAD_POS = wordOf t.phase.qpos ∧ (up = false → t.bit PHB_STAT fPHB_STAT_REVERSE = true) ∧
      (s.phState = phAcquire → apart 160 → t.phState = phLocked) ∧ (s.phState = phAcquire → ¬apart 160 → t.phState = phAcquire) ∧
      (s.phState = phLocked → t.phState = phLocked) ∧ t.phase.qa = a ∧ t.phase.qb = b ∧ t.phase.qlast = some (s.instant cyc) ∧
      t.bit PHB_STAT fPHB_STAT_REF_PRESENT = true ∧ t.phase.p = s.phase.p ∧ s.regsOnly t [PHB_STAT, PHB_QUAD_POS] ∧
      ({ s with phase := t.phase } : State).quiet t) ∧
    (¬(a = s.phase.qa ∧ b = s.phase.qb) → ¬(step ∧ apart 20) → ∃ t, exec (.quadCount a b cyc) s = .next t ∧
      t.bit PHB_STAT fPHB_STAT_QFAULT = true ∧ t.phase.qpos = s.phase.qpos ∧ t.phase.qa = a ∧ t.phase.qb = b ∧
      (s.phState = phAcquire ∨ s.phState = phLocked → t.phState = phHoldover))) ∧
  (∀ (a b : Bool) (cyc : Nat) (s : State), a = s.phase.qa → b = s.phase.qb → exec (.quadCount a b cyc) s = .next s) ∧
  (∀ (a b : Bool) (cyc : Nat) (s : State), ¬(a = s.phase.qa ∧ b = s.phase.qb) → s.phMode ≠ 3 ∨ s.chained = true →
    exec (.quadCount a b cyc) s = .next { s with phase := { s.phase with qa := a, qb := b, qlast := some (s.instant cyc) } }) ∧
  (∀ (rising : Bool) (cyc : Nat) (s : State), s.phIndex = false ∨ s.chained = true ∨ s.edgeTaken rising = false →
    exec (.indexPulse ⟨rising, cyc⟩) s = .next s)

/-- The GUARD timer (R114, R115): loaded with 4,096, or less one for a period in RUN, its last decrement at that period's end; what makes a
channel's period one of GUARD mode. Residue failures (R116, R117, Table 04-6): which items' recompute fits in 24 lane-cycles, what becomes
of the period (items failed together with the model: log entry 51), its flags; a period discarded leaves every register, the engine's and
the model's values. A residue test (R119: it acts in period k+1, and is ignored while one has not reached its period), a lane that has failed in 16 consecutive periods (R118): its bit, the source LANE_FAIL on its quad's channels at the coming tick,
an entry of the event log, FAULT_N's cause ENGINE, the interrupt bit.
It states where these commands complete, and in what: laneFail, residueTest, guardTimerExpiry. -/
def Obligations.EngineEvents : Prop :=
  (∀ (n : Ch) (s : State), s.fld (CH_ENG_STAT n) fCH_ENG_STAT_GUARD_LEFT = 1 → (s.eng n).ran = true →
    (s.eng n).guardLoad = false → ∃ t, exec (.guardTimerExpiry n) s = .next t ∧ t.fld (CH_ENG_STAT n) fCH_ENG_STAT_GUARD_LEFT = 0 ∧
      t.bit (CH_ENG_STAT n) fCH_ENG_STAT_TIMER = false ∧ s.regsOnly t [CH_ENG_STAT n] ∧ s.onlyRegs t) ∧
  (∀ (n : Ch) (s : State), let t := s.guardTick n
    let e := s.eng n
    let left := s.fld (CH_ENG_STAT n) fCH_ENG_STAT_GUARD_LEFT
    t.fld (CH_ENG_STAT n) fCH_ENG_STAT_GUARD_LEFT = (if e.guardLoad && s.inRun n then 4096 else left - e.ran.toNat) ∧
    ((e.guardLoad || e.ran) = true → t.bit (CH_ENG_STAT n) fCH_ENG_STAT_TIMER =
      (t.fld (CH_ENG_STAT n) fCH_ENG_STAT_GUARD_LEFT != 0)) ∧
    t.chan n = { s.chan n with eng := { e with guardLoad := false, ran := false } } ∧ s.chFrame t n [CH_ENG_STAT n]) ∧
  (∀ (n : Ch) (s : State), s.guardMode n = true ↔ s.fld (CH_ENG_STAT n) fCH_ENG_STAT_GUARD_LEFT ≠ 0 ∨ (s.inj n).active = true ∨
    s.bit (CH_ENG_CTL n) fCH_ENG_CTL_GUARD_FORCE = true ∨ s.bit (CLU_ENG_CTL (n / 32)) fCLU_ENG_CTL_GUARD_ALL = true) ∧
  (∀ (n : Ch) (s : State), let d := s.desc n
    (∀ x ∈ [EngItem.setpoint, .slot0, .slot1, .slot2, .slot3, .selector, .model], s.recomputeFits n [x] = true) ∧
    s.recomputeFits n [.cal] = false ∧ (d.ffRail = false → s.recomputeFits n [.ff] = true) ∧
    (d.ffRail = true → (s.recomputeFits n [.ff] = true ↔ ∀ k ∈ [1, 2, 3], d.present k = false)) ∧
    ∀ x ∈ [EngItem.slot1, .slot2, .slot3], s.recomputeFits n [.slot0, x] = false ∧
      ∀ y ∈ [EngItem.slot1, .slot2, .slot3], x ≠ y → s.recomputeFits n [x, y] = true) ∧
  (∀ (n : Ch) (ups : List Upset) (s : State),
    let stands := s.recomputeFits n (ups.map (·.item)) = true ∧ ∀ u ∈ ups, u.recheckOk = true
    (ups = [] → s.residueOutcome n ups = 0) ∧ (ups ≠ [] → stands → s.residueOutcome n ups = 1) ∧
    (ups ≠ [] → ¬stands → (∀ u ∈ ups, u.item = .model) → s.residueOutcome n ups = 2) ∧
    (ups ≠ [] → ¬stands → (∀ u ∈ ups, u.item ≠ .model) → s.residueOutcome n ups = 3)) ∧
  (∀ (n : Ch) (o : Nat) (s : State), let t := s.residueFlags n o
    let g := n / 32
    (o = 0 → t = s) ∧
    (o ≠ 0 → t.bit (CH_ENG_STAT n) fCH_ENG_STAT_RES_FAIL = true ∧ t.bit (CLU_ENG_STAT g) fCLU_ENG_STAT_RES_FAIL = true) ∧
    (o = 1 → t.bit (CH_ENG_STAT n) fCH_ENG_STAT_RECOMPUTED = true ∧ t.bit (CLU_ENG_STAT g) fCLU_ENG_STAT_RECOMPUTED = true ∧
      t.fld (CLU_ENG_CNT g) fCLU_ENG_CNT_RECOMPUTES = min 65535 (s.fld (CLU_ENG_CNT g) fCLU_ENG_CNT_RECOMPUTES + 1)) ∧
    (2 ≤ o → t.bit (CH_ENG_STAT n) fCH_ENG_STAT_UNRECOVERED = true ∧ t.bit (CLU_ENG_STAT g) fCLU_ENG_STAT_UNRECOVERED = true ∧
      t.fld (CLU_ENG_CNT g) fCLU_ENG_CNT_UNRECOVERED = min 65535 (s.fld (CLU_ENG_CNT g) fCLU_ENG_CNT_UNRECOVERED + 1) ∧
      t.bit (CLU_INT_STAT g) fCLU_INT_STAT_ENGINE = true) ∧
    s.regFrame t [CH_ENG_STAT n, CLU_ENG_STAT g, CLU_ENG_CNT g, CLU_INT_STAT g]) ∧
  (∀ (n : Ch) (old : Sample) (s : State), let t := s.chanDiscard n old
    t.eng n = { s.eng n with discarded := true } ∧ t.model n = s.model n ∧ (t.chan n).trk = (s.chan n).trk ∧
    (t.chan n).smp.accV = old.v ∧ (t.chan n).smp.accI = old.iUse ∧ s.chansOnly t [n] ∧ t = { s with ch := t.ch }) ∧
  (∀ (g : Clu) (inp : TickIn) (s : State), let t := s.laneCount g inp
    let fails (l : Nat) : Bool := inp.upsets.any (fun u => u.ch / 4 == 8 * g.val + l && (s.desc u.ch).en &&
      (s.pwr g == 3 || (s.pwr g == 2 && u.item == .cal)))
    (∀ l, l < 8 → (t.cluster g).laneFails.getD l 0 = if fails l then (s.cluster g).laneFails.getD l 0 + 1 else 0) ∧
    s.clustersOnly t [g] ∧ t = { s with clu := t.clu }) ∧
  (∀ (g : Clu) (lane : Fin 8) (chan : Fin 4) (s : State), s.tileUp (g / 4) = true →
    (∀ x, (s.cluster g).test = some x → x.1 ≤ s.tick) → ∃ t, exec (.residueTest g lane chan) s = .next t ∧
      t.cluster g = { s.cluster g with test := some (s.tick + 1, lane.val, chan.val) } ∧ s.clustersOnly t [g] ∧
      t = { s with clu := t.clu }) ∧
  (∀ (g : Clu) (lane : Fin 8) (chan : Fin 4) (x : Nat × Nat × Nat) (s : State), s.tileUp (g / 4) = true →
    (s.cluster g).test = some x → s.tick < x.1 → exec (.residueTest g lane chan) s = .next s) ∧
  (∀ (q : Quad) (s : State), 16 ≤ (s.cluster (q / 8)).laneFails.getD (q % 8) 0 →
    (s.rd (CLU_ENG_STAT (q / 8))).getLsbD (q % 8) = false → ∃ t, exec (.laneFail q) s = .next t ∧
      t.rd (CLU_ENG_STAT (q / 8)) = (s.rd (CLU_ENG_STAT (q / 8)) ||| BitVec.ofNat 32 (2 ^ (q.val % 8))) ∧
      t.later = s.later ++ (quadChans q).map (fun n => (s.tick + 1, Later.hold n srcLaneFail true)) ∧
      t.newest 2 (q % 8) (CLU_ENG_STAT (q / 8)) (q / 8) 0 ∧ (t.rd HUB_FAULT_STAT).getLsbD 10 = true ∧
      t.bit HUB_FAULT_STAT fHUB_FAULT_STAT_ASSERTED = true ∧
      t.rd (CLU_INT_STAT (q / 8)) = fCLU_INT_STAT_ENGINE.put (s.rd (CLU_INT_STAT (q / 8))) 1 ∧
      s.regsOnly t [CLU_ENG_STAT (q / 8), HUB_FAULT_STAT, HUB_INT_STAT, CLU_INT_STAT (q / 8), MBX_EVT_STAT] ∧
      ({ s with later := t.later, faultTick := some s.tick } : State).logged t)

/-- Coefficient bank swaps (R134 to R138): a request is pending from its write, a second one refused; CANCEL takes one back that is not
due at the coming tick; at its tick the other bank becomes active, SWAPS counts, and the integrators are transferred unless the tick is a range tick, whose transfer is the only one (R169); outside RUN the
slots keep what they hold.
It states where these commands complete, and in what: coefSwapRequest, coefSwapCancel, coefSwapTick. -/
def Obligations.CoefficientSwaps : Prop :=
  (∀ (n : Ch) (at_ : Bool) (s : State), s.tileUp (n / 128) = true → (s.eng n).coefPend = none →
    let stamp := if at_ then some (s.rd64 (CH_COEF_AT_LO n)) else none
    ∃ t, exec (.coefSwapRequest n at_) s = .next t ∧
      t.chan n = { s.chan n with eng := { s.eng n with coefPend := some (s.sched stamp), coefLate := s.lateOpt stamp } } ∧
      t.rd (CH_COEF_STAT n) = fCH_COEF_STAT_PENDING.put (s.rd (CH_COEF_STAT n)) 1 ∧ s.chFrame t n [CH_COEF_STAT n]) ∧
  (∀ (n : Ch) (at_ : Bool) (s : State), s.tileUp (n / 128) = true → (s.eng n).coefPend ≠ none →
    ∃ t, exec (.coefSwapRequest n at_) s = .next t ∧
      t.rd (CH_COEF_STAT n) = fCH_COEF_STAT_REFUSED.put (s.rd (CH_COEF_STAT n)) 1 ∧ s.regsOnly t [CH_COEF_STAT n] ∧ s.onlyRegs t) ∧
  (∀ (n : Ch) (d : Sched) (s : State), s.tileUp (n / 128) = true → (s.eng n).coefPend = some d → s.due d = false →
    ∃ t, exec (.coefSwapCancel n) s = .next t ∧ t.chan n = { s.chan n with eng := { s.eng n with coefPend := none } } ∧
      t.rd (CH_COEF_STAT n) = fCH_COEF_STAT_PENDING.put (s.rd (CH_COEF_STAT n)) 0 ∧ s.chFrame t n [CH_COEF_STAT n]) ∧
  (∀ (n : Ch) (s : State), s.tileUp (n / 128) = true →
    ((s.eng n).coefPend = none ∨ ∃ d, (s.eng n).coefPend = some d ∧ s.due d = true) → exec (.coefSwapCancel n) s = .next s) ∧
  (∀ (n : Ch) (d : Sched) (s : State), (s.eng n).coefPend = some d → s.due d = true → ∃ t, exec (.coefSwapTick n) s = .next t ∧
      t.coefBank n = 1 - s.coefBank n ∧ (t.eng n).coefPend = none ∧ t.bit (CH_COEF_STAT n) fCH_COEF_STAT_PENDING = false ∧
      t.fld (CH_COEF_STAT n) fCH_COEF_STAT_SWAPS = (s.fld (CH_COEF_STAT n) fCH_COEF_STAT_SWAPS + 1) % 256 ∧
      ((s.eng n).coefLate = true → t.bit (CH_COEF_STAT n) fCH_COEF_STAT_LATE = true) ∧
      (s.inRun n = false ∨ s.rangeTickDue n = true → (t.eng n).slots = (s.eng n).slots) ∧
      (s.rangeTickDue n = false → (t.eng n).slots = ((s.transfer n (1 - s.coefBank n)).1.eng n).slots ∧
        ((s.transfer n (1 - s.coefBank n)).2 = true → t.bit (CH_COEF_STAT n) fCH_COEF_STAT_CLAMPED = true)) ∧
      s.chFrame t n [CH_COEF_STAT n, LOOP_SAT n 0, LOOP_SAT n 1, LOOP_SAT n 2, LOOP_SAT n 3, CLU_ENG_SAT (n / 32)]) ∧
  (∀ (n : Ch) (s : State), ((s.eng n).coefPend = none ∨ ∃ d, (s.eng n).coefPend = some d ∧ s.due d = false) →
    exec (.coefSwapTick n) s = .next s)

/-- The load model in a period (R145, R146, R149): prediction, residual, update or hold of the estimates, the count of consecutive
periods above the threshold; its initialisation (R148); the reciprocal, an open value within its bound. A gang's share message: who sends it, what
a member matches (R141, R142), the leader's count of members (R144). Commands and events of the model (R148, R149, R150): REINIT in RUN acts at tick k+2; the settle counter's end; a plausibility
fault with its stamp, its entry of the event log and the interrupt bit, a trip and a fault message at the next tick where ACTION asks for
them, and none below N or twice in an episode.
It states where these commands complete, and in what: modelReinit, modelSettleEnd, plausibilityFault. -/
def Obligations.LoadModel : Prop :=
  (∀ (n : Ch) (s : State), s.tileUp (n / 128) = true → (s.desc n).modelEn = true → s.inRun n = true →
    ∃ t, exec (.modelReinit n) s = .next t ∧
      t.chan n = { s.chan n with model := { s.model n with reinitAt := (s.model n).reinitAt ++ [s.tick + 2] } } ∧ s.chFrame t n []) ∧
  (∀ (n : Ch) (s : State), s.tileUp (n / 128) = true → ((s.desc n).modelEn = false ∨ s.inRun n = false) →
    exec (.modelReinit n) s = .next s) ∧
  (∀ (n : Ch) (s : State), (s.model n).settle = 1 → ∃ t, exec (.modelSettleEnd n) s = .next t ∧
      t.chan n = { s.chan n with model := { s.model n with settle := 0 } } ∧
      t.rd (CH_MODEL_STAT n) = fCH_MODEL_STAT_SETTLING.put (s.rd (CH_MODEL_STAT n)) 0 ∧ s.chFrame t n [CH_MODEL_STAT n]) ∧
  (∀ (n : Ch) (s : State),
    let lim := s.lfld (CH_MODEL_CTL n) fCH_MODEL_CTL_N
    let act := s.lfld (CH_MODEL_CTL n) fCH_MODEL_CTL_ACTION
    (s.desc n).modelEn = true → s.inRun n = true → lim ≠ 0 → lim ≤ s.fld (CH_MODEL_STAT n) fCH_MODEL_STAT_COUNT →
    s.bit (CH_MODEL_STAT n) fCH_MODEL_STAT_EPISODE = false →
    ∃ t, exec (.plausibilityFault n) s = .next t ∧ t.bit (CH_MODEL_STAT n) fCH_MODEL_STAT_FAULT = true ∧
      t.bit (CH_MODEL_STAT n) fCH_MODEL_STAT_EPISODE = true ∧ t.rd64 (CH_MODEL_FSTAMP_LO n) = s.now ∧
      (t.model n).cond = act.testBit 0 ∧ t.bit (CH_INT_STAT n) fCH_INT_STAT_MODEL = true ∧
      (act.testBit 1 = false → t.newest 1 16 (CH_MODEL_STAT n) n (s.now / 2 ^ 32) ∧
        s.regsOnly t [CH_MODEL_STAT n, CH_MODEL_FSTAMP_LO n, CH_MODEL_FSTAMP_HI n, CH_INT_STAT n, MBX_EVT_STAT]) ∧
      (act.testBit 1 = true → t.bit (PG_STAT n) fPG_STAT_TRIPPED = true ∧ (t.rd (PG_TRIP_SRC n)).getLsbD 21 = true ∧
        (s.bit (PG_STAT n) fPG_STAT_TRIPPED = false → (s.tick + 1, Later.hold n srcTrip true) ∈ t.later)) ∧
      (act.testBit 2 = true → (s.tick + 1, Later.fault 9) ∈ t.later)) ∧
  (∀ (n : Ch) (s : State), (s.model n).settle ≠ 1 → exec (.modelSettleEnd n) s = .next s) ∧
  (∀ (n : Ch) (s : State), (s.lfld (CH_MODEL_CTL n) fCH_MODEL_CTL_N = 0 ∨
      s.fld (CH_MODEL_STAT n) fCH_MODEL_STAT_COUNT < s.lfld (CH_MODEL_CTL n) fCH_MODEL_CTL_N ∨
      s.bit (CH_MODEL_STAT n) fCH_MODEL_STAT_EPISODE = true) → exec (.plausibilityFault n) s = .next s) ∧
  (∀ (n : Ch) (s : State),
    let x := (s.chan n).smp
    let m := s.model n
    let v := ofQ x.v
    let dv := ofQ (x.v - m.v1)
    let rho := ofQ x.i - (mulX (s.estimates n).1 v + mulX (s.estimates n).2 dv)
    let nn := mulX v v + mulX dv dv + one / 2 ^ 16
    let est (a : Nat) (y : Int) : Word :=
      toCoef (max 0 (coefVal (s.rd a) + mulX (mulX rho y) (recipN nn) / 2 ^ s.lfld (CH_MODEL_CTL n) fCH_MODEL_CTL_MU))
    let blank := x.bridged = true ∨ x.ctrl = 6
    let above := ¬blank ∧ ofQ (s.lv (CH_MODEL_TH n)).toNat < rho.natAbs
    let hold := s.lfld (CH_MODEL_CTL n) fCH_MODEL_CTL_FREEZE ≠ 0 ∨ (s.lfld (CH_MODEL_CTL n) fCH_MODEL_CTL_GATE ≠ 0 ∧ above) ∨ blank
    let count := s.fld (CH_MODEL_STAT n) fCH_MODEL_STAT_COUNT
    let t := s.modelTick n
    (hold → t.rd (CH_MODEL_G n) = s.rd (CH_MODEL_G n) ∧ t.rd (CH_MODEL_C n) = s.rd (CH_MODEL_C n)) ∧
    (¬hold → t.rd (CH_MODEL_G n) = est (CH_MODEL_G n) v ∧ t.rd (CH_MODEL_C n) = est (CH_MODEL_C n) dv) ∧
    (t.bit (CH_MODEL_STAT n) fCH_MODEL_STAT_HELD = true ↔ hold) ∧ (t.model n).v1 = x.v ∧
    (blank → t.rd (CH_MODEL_RES n) = s.rd (CH_MODEL_RES n)) ∧ (¬blank → t.rd (CH_MODEL_RES n) = wordOf (toQ rho)) ∧
    t.fld (CH_MODEL_STAT n) fCH_MODEL_STAT_COUNT =
      (if x.bridged || x.ctrl == 6 || m.settle != 0 then count
        else if ofQ (s.lv (CH_MODEL_TH n)).toNat < rho.natAbs then min 255 (count + 1) else 0) ∧
    (¬blank → m.settle = 0 → ¬above → t.bit (CH_MODEL_STAT n) fCH_MODEL_STAT_EPISODE = false) ∧
    s.chFrame t n [CH_MODEL_G n, CH_MODEL_C n, CH_MODEL_RES n, CH_MODEL_STAT n]) ∧
  (∀ m : Int, one / 2 ^ 16 ≤ m → (recipN m - one * one / m).natAbs * 2 ^ 16 ≤ (one * one / m).natAbs) ∧
  (∀ (n : Ch) (s : State), let t := s.modelInit n
    t.rd (CH_MODEL_G n) = s.lv (CH_MODEL_G_INIT n) ∧ t.rd (CH_MODEL_C n) = s.lv (CH_MODEL_C_INIT n) ∧
    (t.model n).v1 = (s.chan n).smp.v ∧ (t.model n).settle = s.lfld (CH_MODEL_SETTLE n) fCH_MODEL_SETTLE_SETTLE ∧
    t.bit (CH_MODEL_STAT n) fCH_MODEL_STAT_SETTLING = ((t.model n).settle != 0) ∧
    t.fld (CH_MODEL_STAT n) fCH_MODEL_STAT_COUNT = 0 ∧ t.bit (CH_MODEL_STAT n) fCH_MODEL_STAT_EPISODE = false ∧
    s.chFrame t n [CH_MODEL_G n, CH_MODEL_C n, CH_MODEL_STAT n]) ∧
  (∀ (n : Ch) (s : State), let d := s.desc n
    s.shareOf n = (if d.leader && s.inRun n then some ⟨d.gang, s.devPos, n, s.irange n, (s.chan n).smp.iUse⟩ else none) ∧
    (∀ v, s.shareMatch n = some v → ∃ e x, s.gangEntry (n / 32) d.gang = some e ∧ x ∈ s.shares ∧ x.gang = d.gang ∧ x.dev = e.dev ∧
      x.leader = e.leaderCh ∧ x.range = s.irange n ∧ x.value = v) ∧
    (s.shareMatch n = none → ∀ e, s.gangEntry (n / 32) d.gang = some e → ∀ x ∈ s.shares,
      ¬(x.gang = d.gang ∧ x.dev = e.dev ∧ x.leader = e.leaderCh ∧ x.range = s.irange n))) ∧
  (∀ (n : Ch) (sum : Int) (count : Nat) (s : State), count < 128 → let t := s.leaderReport (n, sum, count)
    t.fld (CH_GANG_STAT n) fCH_GANG_STAT_RECEIVED = count ∧
    (∀ e, s.gangEntry (n / 32) (s.desc n).gang = some e → e.members ≠ count → t.bit (CH_GANG_STAT n) fCH_GANG_STAT_COUNT_SHORT = true) ∧
    s.regFrame t [CH_GANG_STAT n])

/-- Injection (R152 to R154): START is pending unless one runs, ABSENT where its slot is absent; at its tick it begins in RUN and ends at
once outside RUN; STOP acts two periods later; after LEN periods it is DONE.
It states where these commands complete, and in what: injectionStart, injectionBegin, injectionStop, injectionLenEnd. -/
def Obligations.Injection : Prop :=
  (∀ (n : Ch) (at_ : Bool) (s : State), s.tileUp (n / 128) = true → (s.inj n).active = false → (s.inj n).pend = none →
    let node := s.lfld (CH_INJ_CTL n) fCH_INJ_CTL_NODE
    let absent := (node = 1 ∨ node = 2) ∧ (s.desc n).present (s.lfld (CH_INJ_CTL n) fCH_INJ_CTL_SLOT) = false
    let stamp := if at_ then some (s.rd64 (CH_INJ_AT_LO n)) else none
    (absent → ∃ t, exec (.injectionStart n at_) s = .next t ∧
      t.rd (CH_INJ_STAT n) = fCH_INJ_STAT_ABSENT.put (s.rd (CH_INJ_STAT n)) 1 ∧ s.regsOnly t [CH_INJ_STAT n] ∧ s.onlyRegs t) ∧
    (¬absent → ∃ t, exec (.injectionStart n at_) s = .next t ∧
      t.chan n = { s.chan n with inj := { pend := some (s.sched stamp) } } ∧ t.bit (CH_INJ_STAT n) fCH_INJ_STAT_PENDING = true ∧
      (s.lateOpt stamp = true → t.bit (CH_INJ_STAT n) fCH_INJ_STAT_LATE = true) ∧ s.chFrame t n [CH_INJ_STAT n])) ∧
  (∀ (n : Ch) (at_ : Bool) (s : State), s.tileUp (n / 128) = true → ((s.inj n).active = true ∨ (s.inj n).pend ≠ none) →
    exec (.injectionStart n at_) s = .next s) ∧
  (∀ (n : Ch) (d : Sched) (s : State), (s.inj n).pend = some d → s.due d = true → s.inRun n = true →
    ∃ t, exec (.injectionBegin n) s = .next t ∧
      t.chan n = { s.chan n with inj := { s.inj n with pend := none, active := true, first := true } } ∧
      t.bit (CH_INJ_STAT n) fCH_INJ_STAT_PENDING = false ∧ t.bit (CH_INJ_STAT n) fCH_INJ_STAT_ACTIVE = true ∧
      t.rd (CH_ENG_STAT n) = fCH_ENG_STAT_INJECT.put (s.rd (CH_ENG_STAT n)) 1 ∧ s.chFrame t n [CH_INJ_STAT n, CH_ENG_STAT n]) ∧
  (∀ (n : Ch) (d : Sched) (s : State), (s.inj n).pend = some d → s.due d = true → s.inRun n = false →
    ∃ t, exec (.injectionBegin n) s = .next t ∧ t.chan n = { s.chan n with inj := {} } ∧
      t.bit (CH_INJ_STAT n) fCH_INJ_STAT_ENDED = true ∧ t.bit (CH_INJ_STAT n) fCH_INJ_STAT_PENDING = false ∧
      s.chFrame t n [CH_INJ_STAT n, CH_ENG_STAT n]) ∧
  (∀ (n : Ch) (s : State), s.tileUp (n / 128) = true → ((s.inj n).active = true ∨ (s.inj n).pend ≠ none) →
    ∃ t, exec (.injectionStop n) s = .next t ∧
      t.chan n = { s.chan n with inj := { s.inj n with stopAt := (s.inj n).stopAt.or (some (s.tick + 2)) } } ∧ s.chFrame t n []) ∧
  (∀ (n : Ch) (s : State), (s.inj n).active = true → (s.lv (CH_INJ_LEN n)).toNat ≠ 0 → (s.lv (CH_INJ_LEN n)).toNat ≤ (s.inj n).n →
    ∃ t, exec (.injectionLenEnd n) s = .next t ∧ t.chan n = { s.chan n with inj := {} } ∧
      t.bit (CH_INJ_STAT n) fCH_INJ_STAT_DONE = true ∧ t.bit (CH_INJ_STAT n) fCH_INJ_STAT_ACTIVE = false ∧
      t.rd (CH_ENG_STAT n) = fCH_ENG_STAT_INJECT.put (s.rd (CH_ENG_STAT n)) 0 ∧ s.chFrame t n [CH_INJ_STAT n, CH_ENG_STAT n])

/-- Captures of a cluster in IDLE or RUN (R155 to R158): ARM takes the configuration and fills from period k+2, anew where a capture runs; STOP ends after the next
entry, FORCE triggers from two periods later, and a full capture is DONE with its interrupt bit.
It states where these commands complete, and in what: captureArm, captureStop, captureForce, captureDone. -/
def Obligations.Capture : Prop :=
  (∀ (g : Clu) (s : State), s.tileUp (g / 4) = true → 2 ≤ s.pwr g →
    let w := min 5 (s.fld (CLU_CAP_CFG g) fCLU_CAP_CFG_WAYS)
    let late := s.fld (CLU_CAP_CFG g) fCLU_CAP_CFG_TRIG = 1 ∧ s.isLate (s.rd64 (CLU_CAP_AT_LO g)) = true
    ∃ t, exec (.captureArm g) s = .next t ∧ (t.cap g).running = true ∧ (t.cap g).ways = w ∧ (t.cap g).start = s.tick + 2 ∧
      (t.cap g).pre = min (s.fld (CLU_CAP_CFG g) fCLU_CAP_CFG_PRE) (4096 / 2 ^ w - 1) ∧ (t.cap g).written = 0 ∧
      (t.cap g).trig = s.fld (CLU_CAP_CFG g) fCLU_CAP_CFG_TRIG ∧ (t.cap g).level = (s.rd (CLU_CAP_LEVEL g)).toInt ∧
      ((t.cap g).at_ = some (s.rd64 (CLU_CAP_AT_LO g)) ↔ s.fld (CLU_CAP_CFG g) fCLU_CAP_CFG_TRIG = 1 ∧ ¬late) ∧
      (late → t.bit (CLU_CAP_STAT g) fCLU_CAP_STAT_LATE = true) ∧ ((s.cap g).running = true → t.capState g = 0) ∧ t.cluster g = { s.cluster g with cap := t.cap g } ∧
      s.cluFrame t g [CLU_CAP_STAT g]) ∧
  (∀ (g : Clu) (s : State), s.tileUp (g / 4) = true → s.pwr g < 2 → exec (.captureArm g) s = .next s) ∧
  (∀ (g : Clu) (s : State), s.tileUp (g / 4) = true → (s.cap g).running = true → ∃ t, exec (.captureStop g) s = .next t ∧
      t.cluster g = { s.cluster g with cap := { s.cap g with stopAt := (s.cap g).stopAt.or (some (s.tick + 1)) } } ∧ s.cluFrame t g []) ∧
  (∀ (g : Clu) (s : State), s.tileUp (g / 4) = true → (s.cap g).running = true →
    ∃ t, exec (.captureForce g) s = .next t ∧
      t.cluster g = { s.cluster g with cap := { s.cap g with forceFrom := (s.cap g).forceFrom.or (some (s.tick + 2)) } } ∧ s.cluFrame t g []) ∧
  (∀ (g : Clu) (s : State), (s.cap g).running = true → s.capState g = 2 → (s.cap g).after = 0 →
    ∃ t, exec (.captureDone g) s = .next t ∧ t.cluster g = { s.cluster g with cap := {} } ∧ t.capState g = 3 ∧
      t.rd (CLU_INT_STAT g) = fCLU_INT_STAT_CAPTURE.put (s.rd (CLU_INT_STAT g)) 1 ∧
      s.cluFrame t g [CLU_CAP_STAT g, CLU_INT_STAT g])

/-- Range requests (R164, R172, R174). Outside OFF and with none waiting, a current request of a range that is enabled with a full scale
becomes pending; one of a range that is not is refused as INVALID, whatever else holds; one while another waits, or in OFF, is refused. A voltage request is
refused in RUN unless the safe code is applied, and while a current change runs. CANCEL takes a request back that is not due; a request
with CANCEL = 1 does that first.
It states where these commands complete, and in what: rangeRequestI, rangeRequestV, rangeCancel. -/
def Obligations.RangeRequests : Prop :=
  (∀ (n : Ch) (range : Fin 8) (at_ : Bool) (s : State), s.tileUp (n / 128) = true →
    ((s.pwr (n / 32) = 0 ∨ (s.rng n).req ≠ none) → ∃ t, exec (.rangeRequestI n range at_ false) s = .next t ∧
      t.bit (CH_RANGE_STAT n) fCH_RANGE_STAT_REFUSED = true ∧ t.bit (CH_INT_STAT n) fCH_INT_STAT_RANGE = true ∧
      s.regFrame t [CH_RANGE_STAT n, CH_INT_STAT n]) ∧
    ((s.irangeOk n range = false ∨ zeroScale (s.iScale n (s.irange n)) = true) → ∃ t,
      exec (.rangeRequestI n range at_ false) s = .next t ∧ t.bit (CH_RANGE_STAT n) fCH_RANGE_STAT_REFUSED = true ∧
      t.bit (CH_RANGE_STAT n) fCH_RANGE_STAT_INVALID = true ∧ t.bit (CH_INT_STAT n) fCH_INT_STAT_RANGE = true ∧
      s.regFrame t [CH_RANGE_STAT n, CH_INT_STAT n]) ∧
    (s.pwr (n / 32) ≠ 0 → (s.rng n).req = none → s.irangeOk n range = true → zeroScale (s.iScale n (s.irange n)) = false →
      ((s.rng n).prog ≠ none ∨ range.val ≠ s.irange n ∨ s.shuntsPlain n = false) → ∃ t, exec (.rangeRequestI n range at_ false) s = .next t ∧
      t.chan n = { s.chan n with rng := { s.rng n with req := some ⟨false, range, s.sched (s.rangeStamp n at_)⟩ } } ∧
      t.bit (CH_RANGE_STAT n) fCH_RANGE_STAT_PENDING = true ∧
      (s.lateOpt (s.rangeStamp n at_) = true → t.bit (CH_RANGE_STAT n) fCH_RANGE_STAT_LATE = true) ∧
      s.chFrame t n [CH_RANGE_STAT n]) ∧
    (s.pwr (n / 32) ≠ 0 → (s.rng n).req = none → s.irangeOk n range = true → zeroScale (s.iScale n (s.irange n)) = false →
      (s.rng n).prog = none → range.val = s.irange n → s.shuntsPlain n = true →
      exec (.rangeRequestI n range at_ false) s = .next s) ∧
    exec (.rangeRequestI n range at_ true) s = exec (.rangeRequestI n range at_ false) (s.rangeCancel n)) ∧
  (∀ (n : Ch) (range : Fin 4) (at_ : Bool) (s : State), s.tileUp (n / 128) = true →
    ((s.pwr (n / 32) = 0 ∨ (s.rng n).req ≠ none ∨ (s.rng n).prog ≠ none ∨ (s.inRun n = true ∧ s.isHeld n = false)) →
      ∃ t, exec (.rangeRequestV n range at_ false) s = .next t ∧ t.bit (CH_RANGE_STAT n) fCH_RANGE_STAT_REFUSED = true ∧
      t.bit (CH_INT_STAT n) fCH_INT_STAT_RANGE = true ∧ s.regFrame t [CH_RANGE_STAT n, CH_INT_STAT n]) ∧
    (s.pwr (n / 32) ≠ 0 → (s.rng n).req = none → (s.rng n).prog = none → (s.inRun n = false ∨ s.isHeld n = true) →
      zeroScale (s.vScale n range) = false → zeroScale (s.vScale n (s.vrange n)) = false → range.val ≠ s.vrange n → ∃ t,
      exec (.rangeRequestV n range at_ false) s = .next t ∧
      t.chan n = { s.chan n with rng := { s.rng n with req := some ⟨true, range, s.sched (s.rangeStamp n at_)⟩ } } ∧
      t.bit (CH_RANGE_STAT n) fCH_RANGE_STAT_PENDING = true ∧ s.chFrame t n [CH_RANGE_STAT n]) ∧
    ((zeroScale (s.vScale n range) = true ∨ zeroScale (s.vScale n (s.vrange n)) = true) → ∃ t,
      exec (.rangeRequestV n range at_ false) s = .next t ∧ t.bit (CH_RANGE_STAT n) fCH_RANGE_STAT_REFUSED = true ∧
      t.bit (CH_RANGE_STAT n) fCH_RANGE_STAT_INVALID = true ∧ t.bit (CH_INT_STAT n) fCH_INT_STAT_RANGE = true ∧
      s.regFrame t [CH_RANGE_STAT n, CH_INT_STAT n]) ∧
    exec (.rangeRequestV n range at_ true) s = exec (.rangeRequestV n range at_ false) (s.rangeCancel n)) ∧
  (∀ (n : Ch) (r : RangeReq) (s : State), s.tileUp (n / 128) = true → (s.rng n).req = some r →
    (s.due r.due = false → ∃ t, exec (.rangeCancel n) s = .next t ∧
      t.chan n = { s.chan n with rng := { s.rng n with req := none } } ∧ t.bit (CH_RANGE_STAT n) fCH_RANGE_STAT_PENDING = false ∧
      s.chFrame t n [CH_RANGE_STAT n]) ∧
    (s.due r.due = true → exec (.rangeCancel n) s = .next s)) ∧
  (∀ (n : Ch) (s : State), s.tileUp (n / 128) = true → (s.rng n).req = none → exec (.rangeCancel n) s = .next s)

/-- A current range change (R165): at its start tick the make phase begins with both SHUNT bits, at the break tick the old range's bit is gone,
and between them and the range tick lie the live MAKE and BLIND counts, within their bounds. Its range tick and the start of a voltage change
(R168, R169, R172): the new range is in force, the change is over and counted with its stamp, the GUARD timer will load in RUN; values that
are relative to the old full scale, all of Table 07-4 or of R172, are multiplied by the ratio of the two, live and shadow, but under
NORESCALE; in RUN the model's estimates are rescaled (R147); the coefficient bank of the new range is active (R169).
It states where these commands complete, and in what: rangeChangeStart, rangeBreak, rangeTick, voltageRangeStart. -/
def Obligations.RangeChanges : Prop :=
  ((∀ (n : Ch) (r : RangeReq) (s : State), (s.rng n).req = some r → (s.rng n).prog = none → r.volt = false → s.due r.due = true →
     (r.target ≠ s.irange n ∨ s.shuntsPlain n = false) →
     let bl := min 16 (max 2 (s.lfld (CH_RANGE_CTL n) fCH_RANGE_CTL_BLIND))
     let m := min (bl - 1) (max 1 (s.lfld (CH_RANGE_CTL n) fCH_RANGE_CTL_MAKE))
     ∃ t p, exec (.rangeChangeStart n) s = .next t ∧ (t.rng n).prog = some p ∧ p.a = s.irange n ∧ p.b = r.target ∧
       p.j = s.tick + 1 ∧ p.m = m ∧ p.bl = bl ∧ (t.rng n).req = none ∧ (t.rng n).shunts = (s.rng n).shunts ||| 2 ^ r.target ∧
       t.bit (CH_RANGE_STAT n) fCH_RANGE_STAT_IN_PROGRESS = true ∧ t.bit (CH_RANGE_STAT n) fCH_RANGE_STAT_PENDING = false ∧
       t.fld (CH_RANGE_NOW n) fCH_RANGE_NOW_PHASE = 1 ∧ t.irange n = s.irange n ∧
       s.chFrame t n [CH_RANGE_STAT n, CH_RANGE_NOW n, WIN_BLANK_NOW n]) ∧
   (∀ (n : Ch) (p : RangeProg) (s : State), (s.rng n).prog = some p → s.tick + 1 = p.j + p.m →
     ∃ t, exec (.rangeBreak n) s = .next t ∧ t.chan n = { s.chan n with rng := { s.rng n with shunts := 2 ^ p.b } } ∧
       t.rd (CH_RANGE_NOW n) = fCH_RANGE_NOW_PHASE.put (s.rd (CH_RANGE_NOW n)) 2 ∧ s.chFrame t n [CH_RANGE_NOW n]) ∧
   (∀ (n : Ch) (p : RangeProg) (s : State), (s.rng n).prog = some p → s.tick + 1 ≠ p.j + p.m → exec (.rangeBreak n) s = .next s) ∧
   (∀ (n : Ch) (p : RangeProg) (s : State), (s.rng n).prog = some p → s.tick + 1 ≠ p.j + p.bl → exec (.rangeTick n) s = .next s)) ∧
  ((∀ (n : Ch) (p : RangeProg) (s : State), (s.rng n).prog = some p → s.tick + 1 = p.j + p.bl → p.b < 6 →
     let q := ratio (s.iScale n p.a) (s.iScale n p.b)
     let keep := s.lbit (CH_RANGE_CTL n) fCH_RANGE_CTL_NORESCALE
     ∃ t, exec (.rangeTick n) s = .next t ∧ t.irange n = p.b ∧ t.fld (CH_RANGE_NOW n) fCH_RANGE_NOW_PHASE = 0 ∧
       (t.rng n).prog = none ∧ (t.rng n).shunts = 2 ^ p.b ∧ t.bit (CH_RANGE_STAT n) fCH_RANGE_STAT_IN_PROGRESS = false ∧
       t.fld (CH_RANGE_STAT n) fCH_RANGE_STAT_CHANGES = (s.fld (CH_RANGE_STAT n) fCH_RANGE_STAT_CHANGES + 1) % 256 ∧
       t.rd64 (CH_RANGE_STAMP_LO n) = s.nextStamp ∧ (s.inRun n = true → (t.eng n).guardLoad = true) ∧
       (keep = true → ∀ a ∈ [CH_SETPOINT n, PG_AMP n, CH_INJ_AMP n, LOOP_LIMIT n 0, LOOP_LIMIT n 1, LOOP_LIMIT n 2, LOOP_LIMIT n 3,
         CH_MODEL_TH n], t.rd a = s.rd a ∧ t.lv a = s.lv a) ∧
       (keep = false → s.rescaled t n false q) ∧
       (s.inRun n = true → (s.desc n).modelEn = true →
         t.rd (CH_MODEL_G n) = toCoef (scaleX (coefVal (s.rd (CH_MODEL_G n))) q) ∧
         t.rd (CH_MODEL_C n) = toCoef (scaleX (coefVal (s.rd (CH_MODEL_C n))) q)) ∧
       t.coefBank n = (if s.lfld (CH_IRANGE_CFG n p.b) fCH_IRANGE_CFG_BANK = 1 then 0
         else if s.lfld (CH_IRANGE_CFG n p.b) fCH_IRANGE_CFG_BANK = 2 then 1 else s.coefBank n) ∧
       s.chansOnly t [n] ∧ t.tick = s.tick) ∧
   (∀ (n : Ch) (r : RangeReq) (s : State), (s.rng n).req = some r → r.volt = true → s.due r.due = true → r.target < 4 →
     let q := ratio (s.vScale n (s.vrange n)) (s.vScale n r.target)
     let keep := s.lbit (CH_RANGE_CTL n) fCH_RANGE_CTL_NORESCALE
     ∃ t, exec (.voltageRangeStart n) s = .next t ∧ t.vrange n = r.target ∧ t.irange n = s.irange n ∧ (t.rng n).req = none ∧
       t.bit (CH_RANGE_STAT n) fCH_RANGE_STAT_PENDING = false ∧ (s.inRun n = true → (t.eng n).guardLoad = true) ∧
       (keep = false → s.rescaled t n true q) ∧
       (s.inRun n = true → (s.desc n).modelEn = true →
         t.rd (CH_MODEL_G n) = toCoef (scaleX (coefVal (s.rd (CH_MODEL_G n))) (q.2, q.1)) ∧
         t.rd (CH_MODEL_C n) = toCoef (scaleX (coefVal (s.rd (CH_MODEL_C n))) (q.2, q.1))) ∧
       s.chansOnly t [n] ∧ t.tick = s.tick))


/-- Automatic ranging (R173): in RUN, with a count reached and nothing waiting, it asks for the next usable range of its bounds at tick
k+2, and flags the direction; where there is none, or a request, a change or the hold-off stands in the way, only the counts clear. A hold-off that has ended clears the counts.
It states where these commands complete, and in what: autoRangeDecision, autoRangeHoldoffEnd. -/
def Obligations.AutomaticRanging : Prop :=
  (∀ (n : Ch) (s : State),
    let up := max 1 (s.lfld (CH_RANGE_AUTO n) fCH_RANGE_AUTO_N_UP) ≤ (s.rng n).up
    let down := max 1 (s.lfld (CH_RANGE_AUTO n) fCH_RANGE_AUTO_N_DOWN) ≤ (s.rng n).down
    s.autoOn n = true → (up ∨ down) → (s.rng n).req = none → (s.rng n).prog = none → s.inHoldoff n = false →
    (∀ b, s.autoTarget n (decide up) = some b → ∃ t, exec (.autoRangeDecision n) s = .next t ∧
      (t.rng n).req = some ⟨false, b, ⟨s.tick + 2, none⟩⟩ ∧ (t.rng n).up = 0 ∧ (t.rng n).down = 0 ∧
      t.bit (CH_RANGE_STAT n) fCH_RANGE_STAT_PENDING = true ∧
      t.bit (CH_RANGE_STAT n) (if up then fCH_RANGE_STAT_AUTO_UP else fCH_RANGE_STAT_AUTO_DOWN) = true ∧
      s.chFrame t n [CH_RANGE_STAT n]) ∧
    (s.autoTarget n (decide up) = none → ∃ t, exec (.autoRangeDecision n) s = .next t ∧
      t.chan n = { s.chan n with rng := { s.rng n with up := 0, down := 0 } } ∧ s.chFrame t n [])) ∧
  (∀ (n : Ch) (s : State), s.autoOn n = true →
    (max 1 (s.lfld (CH_RANGE_AUTO n) fCH_RANGE_AUTO_N_UP) ≤ (s.rng n).up ∨
      max 1 (s.lfld (CH_RANGE_AUTO n) fCH_RANGE_AUTO_N_DOWN) ≤ (s.rng n).down) →
    ((s.rng n).req ≠ none ∨ (s.rng n).prog ≠ none ∨ s.inHoldoff n = true) → ∃ t, exec (.autoRangeDecision n) s = .next t ∧
      t.chan n = { s.chan n with rng := { s.rng n with up := 0, down := 0 } } ∧ s.chFrame t n []) ∧
  (∀ (n : Ch) (s : State), s.autoOn n = false → exec (.autoRangeDecision n) s = .next s) ∧
  (∀ (n : Ch) (e : Nat) (s : State), (s.rng n).holdEnd = some e → e ≤ s.tick + 1 →
    ∃ t, exec (.autoRangeHoldoffEnd n) s = .next t ∧
      t.chan n = { s.chan n with rng := { s.rng n with holdEnd := none, up := 0, down := 0 } } ∧ s.chFrame t n [])

/-- Aperture runs (R182 to R187): START arms a bound unit of a biased cluster with the live fields, else UNBOUND or REFUSED; STOP ends
the open aperture with the sample of tick m+1, or the run where none is open; an aperture opens at the tick its start is due, and closes
at its end or at a STOP, which ends the run; one of 2^24 samples ends. A closed aperture gives the writer a record unless its FIFO of 64
is full, which counts it as lost (R195). Each sample enters the sums with its weight, in the ranges of the aperture's first (R182, R188, R192);
a record holds the start, the mean sums under one exponent, N, the flags (R190, R191, Table 08-6).
It states where these commands complete, and in what: apertureStartCmd, apertureStop, apertureOpen, apertureClose, apertureCountLimit. -/
def Obligations.ApertureRuns : Prop :=
  (∀ (n : Ch) (at_ : Bool) (s : State), s.tileUp (n / 128) = true →
    ((s.desc n).aptEn = false → ∃ t, exec (.apertureStartCmd n at_) s = .next t ∧
      t.rd (APT_STAT n) = fAPT_STAT_UNBOUND.put (s.rd (APT_STAT n)) 1 ∧ s.regsOnly t [APT_STAT n] ∧ s.onlyRegs t) ∧
    ((s.desc n).aptEn = true → ((s.apt n).cfg ≠ none ∨ s.biased n = false ∨ s.lv64 (APT_LEN_LO n) = 0) →
      ∃ t, exec (.apertureStartCmd n at_) s = .next t ∧
      t.rd (APT_STAT n) = fAPT_STAT_REFUSED.put (s.rd (APT_STAT n)) 1 ∧ s.regsOnly t [APT_STAT n] ∧ s.onlyRegs t) ∧
    ((s.desc n).aptEn = true → (s.apt n).cfg = none → s.biased n = true → s.lv64 (APT_LEN_LO n) ≠ 0 →
      ∃ t c, exec (.apertureStartCmd n at_) s = .next t ∧ (t.apt n).cfg = some c ∧ c.len = s.lv64 (APT_LEN_LO n) ∧
      c.period = max c.len (s.lv64 (APT_PERIOD_LO n)) ∧ c.count = (s.lv (APT_COUNT n)).toNat ∧
      c.base = (s.rd (APT_RING_BASE n)).toNat / 64 * 64 ∧ c.ringLen = (s.rd (APT_RING_LEN n)).toNat / 64 * 64 ∧
      (t.apt n).run = (s.apt n).run + 1 ∧ (t.apt n).wr = 0 ∧ (t.apt n).notBefore = s.tick + 2 ∧ (t.apt n).opened = 0 ∧
      (t.apt n).ap = none ∧ t.rd (APT_RING_WR n) = 0 ∧ t.rd (APT_RING_RD n) = 0 ∧ t.bit (APT_STAT n) fAPT_STAT_ARMED = true ∧
      ((t.apt n).late = true → t.bit (APT_STAT n) fAPT_STAT_LATE = true) ∧
      s.chFrame t n [APT_STAT n, APT_RING_WR n, APT_RING_RD n])) ∧
  (∀ (n : Ch) (s : State), s.tileUp (n / 128) = true → (s.apt n).cfg ≠ none →
    ((s.apt n).ap ≠ none → ∃ t, exec (.apertureStop n) s = .next t ∧
      t.chan n = { s.chan n with apt := { s.apt n with stopAt := (s.apt n).stopAt.or (some (s.tick + 2)) } } ∧ s.chFrame t n []) ∧
    ((s.apt n).ap = none → ∃ t, exec (.apertureStop n) s = .next t ∧
      t.chan n = { s.chan n with apt :=
        { lostBefore := (s.apt n).lostBefore, wr := (s.apt n).wr, run := (s.apt n).run, tails := (s.apt n).tails } } ∧ t.bit (APT_STAT n) fAPT_STAT_ARMED = false ∧
      t.bit (APT_STAT n) fAPT_STAT_TRUNCATED = true ∧ s.chFrame t n [APT_STAT n])) ∧
  (∀ (n : Ch) (c : AptCfg) (x f : Nat) (s : State), (s.apt n).ap = none → (s.apt n).cfg = some c →
    s.aptDueStart n = some (x, f) → atOrAfter s.nextStamp ((x + c.len) % 2 ^ 64) = false →
    ∃ t a, exec (.apertureOpen n) s = .next t ∧ (t.apt n).ap = some a ∧ a.s = x ∧ a.e = (x + c.len) % 2 ^ 64 ∧ a.wPend = f ∧
      a.n = 0 ∧ a.w = 0 ∧ (t.apt n).opened = (s.apt n).opened + 1 ∧ (t.apt n).next = some ((x + c.period) % 2 ^ 64) ∧
      t.bit (APT_STAT n) fAPT_STAT_OPEN = true ∧ t.bit (APT_STAT n) fAPT_STAT_ARMED = false ∧ s.chFrame t n [APT_STAT n]) ∧
  (∀ (n : Ch) (a : Aperture) (s : State), (s.apt n).ap = some a → atOrAfter s.nextStamp a.e = true → (s.apt n).stopAt = none →
    ∃ t, exec (.apertureClose n) s = .next t ∧ (t.apt n).ap = none ∧ t.bit (APT_STAT n) fAPT_STAT_OPEN = false ∧
      (if (s.apt n).more then t.bit (APT_STAT n) fAPT_STAT_ARMED = true
        else (t.apt n).cfg = none ∧ t.bit (APT_STAT n) fAPT_STAT_ARMED = false) ∧
      (a.n ≠ 0 → a.w ≠ 0 → (s.cluster (n / 32)).fifo.length < 64 → ∃ r : RecEntry, (t.cluster (n / 32)).fifo = (s.cluster (n / 32)).fifo ++ [r] ∧
        r.ch = n.val ∧ r.tick = s.tick + 1 ∧ r.run = (s.apt n).run ∧ r.weight = a.w + (a.wPend - s.edgeFrac a.e) ∧
        r.words = s.recordWords n (s.aptFlush n { a with wPend := a.wPend - s.edgeFrac a.e })) ∧
      (a.n ≠ 0 → a.w ≠ 0 → 64 ≤ (s.cluster (n / 32)).fifo.length → (t.apt n).lostBefore = true ∧
        t.bit (APT_STAT n) fAPT_STAT_LOST = true ∧ t.bit (CH_INT_STAT n) fCH_INT_STAT_APT_LOST = true ∧
        (t.cluster (n / 32)).fifo = (s.cluster (n / 32)).fifo) ∧ s.chansOnly t [n] ∧
      s.regsOnly t [APT_STAT n, APT_EMPTY n, APT_LOST n, CH_INT_STAT n, CH_RANGE_STAT (s.aptSrc n)]) ∧
  (∀ (n : Ch) (a : Aperture) (x : Nat) (s : State), (s.apt n).ap = some a → (s.apt n).stopAt = some x → x ≤ s.tick + 1 →
    ∃ t, exec (.apertureClose n) s = .next t ∧ (t.apt n).ap = none ∧ (t.apt n).cfg = none ∧
      t.bit (APT_STAT n) fAPT_STAT_OPEN = false ∧ t.bit (APT_STAT n) fAPT_STAT_ARMED = false ∧
      t.bit (APT_STAT n) fAPT_STAT_TRUNCATED = true ∧ s.chansOnly t [n] ∧
      s.regsOnly t [APT_STAT n, APT_EMPTY n, APT_LOST n, CH_INT_STAT n, CH_RANGE_STAT (s.aptSrc n)]) ∧
  (∀ (n : Ch) (a : Aperture) (s : State), (s.apt n).ap = some a → a.n = 2 ^ 24 - 1 → a.wPend ≠ 0 →
    ∃ t, exec (.apertureCountLimit n) s = .next t ∧ (t.apt n).ap = none ∧ t.bit (APT_STAT n) fAPT_STAT_OPEN = false ∧
      ((s.apt n).stopAt ≠ none → (t.apt n).cfg = none ∧ t.bit (APT_STAT n) fAPT_STAT_TRUNCATED = true) ∧
      s.chansOnly t [n] ∧ s.regsOnly t [APT_STAT n, APT_EMPTY n, APT_LOST n, CH_INT_STAT n, CH_RANGE_STAT (s.aptSrc n)]) ∧
  (∀ (n : Nat) (ap : Aperture) (s : State), ap.wPend ≠ 0 →
    let x := (s.chan (s.aptSrc n)).smp
    let f := s.aptFlush n ap
    let ir := if ap.n = 0 then x.ir else ap.ir
    let vr := if ap.n = 0 then x.vr else ap.vr
    f.n = ap.n + 1 ∧ f.w = ap.w + ap.wPend ∧ f.ir = ir ∧ f.vr = vr ∧
    (x.accVr = vr → f.sumV = ap.sumV + ap.wPend * x.accV) ∧
    (x.accIr = ir → (s.desc n).aptGang = false → f.sumI = ap.sumI + ap.wPend * x.accI) ∧
    (x.bridged = true → f.flags.testBit 6 = true) ∧ (x.holdover = true → f.flags.testBit 0 = true) ∧
    (x.rseq ≠ ap.rseq → ap.n ≠ 0 → f.flags.testBit 5 = true) ∧ f.chopAll = (ap.chopAll && x.chop)) ∧
  (∀ (n : Nat) (ap : Aperture) (s : State), 0 < ap.n → 0 < ap.w →
    let ws := s.recordWords n ap
    let e := recExp (ap.sumV * ((ap.n : Rat) / ap.w)) (ap.sumI * ((ap.n : Rat) / ap.w))
    ws.length = 8 ∧ ws.getD 0 0 = BitVec.ofNat 32 ap.s ∧ ws.getD 1 0 = BitVec.ofNat 32 (ap.s / 2 ^ 32) ∧
    ws.getD 2 0 = wordOf (mantissa (ap.sumV * ((ap.n : Rat) / ap.w)) e) ∧ ws.getD 3 0 = wordOf (mantissa (ap.sumI * ((ap.n : Rat) / ap.w)) e) ∧
    (ws.getD 4 0).toNat % 2 ^ 24 = ap.n % 2 ^ 24 ∧ (ws.getD 4 0).toNat / 2 ^ 24 = (e % 256).toNat ∧
    (ws.getD 5 0).toNat % 2 ^ 11 = ap.flags % 2 ^ 11 ∧ (ap.chopAll = true → (ws.getD 5 0).getLsbD 11 = true) ∧
    (n < 512 → (ws.getD 5 0).toNat / 2 ^ 16 % 2 ^ 9 = n) ∧ ws.getD 7 0 = 0)

/-- A record written (R195 to R197): in a period after its own, and as one of at most four in a period, the oldest record of the cluster's
writer goes to its unit's ring, eight words at the writer's offset, with the ring that START took; the count and the last weight follow,
and APT_RING_WR at the next tick; a record of an earlier run goes to that run's ring and moves no APT_RING_WR (R196). While sequence memory does
not answer the records wait (R31). Where the ring has no room it is lost and counted instead. Every other byte of sequence memory is as
before.
It states where this command completes, and in what: recordWritten. -/
def Obligations.RecordsAreWritten : Prop :=
  (∀ (g : Clu) (r : RecEntry) (rest : List RecEntry) (s : State), (s.cluster g).fifo = r :: rest → r.tick < s.tick → s.recsNow g < 4 →
    s.memUp (g / 4) = true →
    let wr := (s.ringOf r.ch r.run).1
    let rd := (s.ringOf r.ch r.run).2 / 32 * 32
    let full := r.ringLen = 0 ∨ (r.overwrite = false ∧ (rd + r.ringLen - wr % r.ringLen) % r.ringLen = 32)
    (¬full → ∃ t, exec (.recordWritten g) s = .next t ∧ (t.cluster g).fifo = rest ∧ t.recsNow g = s.recsNow g + 1 ∧
      (∀ k, k < 8 → t.seqMem.readLE ((r.base + wr + 4 * k) % 2 ^ 32) 4 =
        ((r.words.getD k 0).toNat ||| (if k = 5 ∧ (s.apt r.ch).lostBefore = true then 2 ^ 12 else 0))) ∧
      (∀ b, (∀ k, k < 8 → b < (r.base + wr + 4 * k) % 2 ^ 32 ∨ (r.base + wr + 4 * k) % 2 ^ 32 + 4 ≤ b) →
        t.seqMem.read b = s.seqMem.read b) ∧
      (r.run = (s.apt r.ch).run → wr = (s.apt r.ch).wr ∧ rd = (s.rd (APT_RING_RD r.ch)).toNat / 32 * 32 ∧
        (t.apt r.ch).wr = (wr + 32) % r.ringLen ∧ t.later = s.later ++ [(s.tick + 1, .ringWr r.ch r.ringLen)]) ∧
      (r.run ≠ (s.apt r.ch).run → (t.apt r.ch).wr = (s.apt r.ch).wr ∧ t.later = s.later ∧
        ∀ x ∈ (s.apt r.ch).tails, x.1 = r.run → (r.run, (wr + 32) % r.ringLen, x.2.2) ∈ (t.apt r.ch).tails) ∧
      t.rd (APT_RECORDS r.ch) = s.rd (APT_RECORDS r.ch) + 1 ∧
      (r.weight < 2 ^ 64 → t.rd64 (APT_LAST_WEIGHT_LO r.ch) = r.weight) ∧ (t.apt r.ch).lostBefore = false ∧
      s.regsOnly t [APT_RECORDS r.ch, APT_LAST_WEIGHT_LO r.ch, APT_LAST_WEIGHT_HI r.ch]) ∧
    (full → ∃ t, exec (.recordWritten g) s = .next t ∧ (t.cluster g).fifo = rest ∧ t.seqMem = s.seqMem ∧
      (t.apt r.ch).lostBefore = true ∧ t.bit (APT_STAT r.ch) fAPT_STAT_LOST = true ∧
      t.rd (CH_INT_STAT r.ch) = fCH_INT_STAT_APT_LOST.put (s.rd (CH_INT_STAT r.ch)) 1 ∧
      s.regsOnly t [APT_LOST r.ch, APT_STAT r.ch, CH_INT_STAT r.ch])) ∧
  (∀ (g : Clu) (s : State), ((s.cluster g).fifo = [] ∨ (∃ r rest, (s.cluster g).fifo = r :: rest ∧ s.tick ≤ r.tick) ∨ 4 ≤ s.recsNow g ∨
    s.memUp (g / 4) = false) → exec (.recordWritten g) s = .next s)

/-- Raw capture (R198, R199): START of an idle bound unit is pending with its live fields; at its tick it runs from WR 0 with the tick and
stamp it began at; STOP ends it after the block of tick m+1, or takes a pending start back; every 64 bytes WR advances, and wraps count; a ring full under
STOP_FULL ends it. What a tick writes of calibrated, undecimated samples: the V word, then the I word (R198).
It states where these commands complete, and in what: rawCaptureStart, rawCaptureBegin, rawCaptureStop, rawWrAdvance. -/
def Obligations.RawCapture : Prop :=
  (∀ (n : Ch) (at_ : Bool) (s : State), s.tileUp (n / 128) = true → (s.raw n).cfg = none → (s.desc n).aptEn = true →
    s.biased n = true →
    let stamp := if at_ then some (s.rd64 (APT_RAW_AT_LO n)) else none
    ∃ t c, exec (.rawCaptureStart n at_) s = .next t ∧ t.chan n = { s.chan n with raw := { cfg := some c, pend := some (s.sched stamp) } } ∧
      c.sel = s.lfld (APT_RAW_CTL n) fAPT_RAW_CTL_SEL ∧ c.decim = min 10 (s.lfld (APT_RAW_CTL n) fAPT_RAW_CTL_DECIM) ∧
      c.base = (s.rd (APT_RAW_BASE n)).toNat / 64 * 64 ∧ c.len = (s.rd (APT_RAW_LEN n)).toNat / 64 * 64 ∧
      t.bit (APT_RAW_STAT n) fAPT_RAW_STAT_PENDING = true ∧
      (s.lateOpt stamp = true → t.bit (APT_RAW_STAT n) fAPT_RAW_STAT_LATE = true) ∧ s.chFrame t n [APT_RAW_STAT n]) ∧
  (∀ (n : Ch) (at_ : Bool) (s : State), s.tileUp (n / 128) = true →
    ((s.raw n).cfg ≠ none ∨ (s.desc n).aptEn = false ∨ s.biased n = false) → exec (.rawCaptureStart n at_) s = .next s) ∧
  (∀ (n : Ch) (d : Sched) (s : State), (s.raw n).pend = some d → s.due d = true → s.tick + 1 < 2 ^ 64 →
    ∃ t, exec (.rawCaptureBegin n) s = .next t ∧ t.chan n = { s.chan n with raw := { s.raw n with pend := none, running := true } } ∧
      t.bit (APT_RAW_STAT n) fAPT_RAW_STAT_RUNNING = true ∧ t.bit (APT_RAW_STAT n) fAPT_RAW_STAT_PENDING = false ∧
      t.fld (APT_RAW_STAT n) fAPT_RAW_STAT_WRAPS = 0 ∧ t.rd (APT_RAW_WR n) = 0 ∧ t.rd64 (APT_RAW_TICK0_LO n) = s.tick + 1 ∧
      t.rd64 (APT_RAW_STAMP0_LO n) = s.nextStamp ∧
      s.chFrame t n [APT_RAW_STAT n, APT_RAW_WR n, APT_RAW_TICK0_LO n, APT_RAW_TICK0_HI n, APT_RAW_STAMP0_LO n,
        APT_RAW_STAMP0_HI n]) ∧
  (∀ (n : Ch) (s : State), s.tileUp (n / 128) = true → (s.raw n).running = true → ∃ t, exec (.rawCaptureStop n) s = .next t ∧
      t.chan n = { s.chan n with raw := { s.raw n with stopAt := (s.raw n).stopAt.or (some (s.tick + 1)) } } ∧ s.chFrame t n []) ∧
  (∀ (n : Ch) (s : State), s.tileUp (n / 128) = true → (s.raw n).running = false → (s.raw n).pend ≠ none → (s.raw n).cfg ≠ none →
    ∃ t, exec (.rawCaptureStop n) s = .next t ∧ t.chan n = { s.chan n with raw := {} } ∧
      t.bit (APT_RAW_STAT n) fAPT_RAW_STAT_PENDING = false ∧ s.chFrame t n [APT_RAW_STAT n]) ∧
  (∀ (n : Ch) (c : RawCfg) (s : State), (s.raw n).running = true → (s.raw n).cfg = some c → c.len ≠ 0 →
    (s.raw n).advanced + 64 ≤ (s.raw n).written → c.stopFull = false → s.memUp (n / 128) = true → (∀ d ∈ s.dma.map (·.1), d < 32) →
    let adv := (s.raw n).advanced + 64
    ∃ t, exec (.rawWrAdvance n) s = .next t ∧ t.chan n = { s.chan n with raw := { s.raw n with advanced := adv } } ∧
      t.rd (APT_RAW_WR n) = BitVec.ofNat 32 (adv % c.len) ∧
      t.fld (APT_RAW_STAT n) fAPT_RAW_STAT_WRAPS =
        (s.fld (APT_RAW_STAT n) fAPT_RAW_STAT_WRAPS + (if adv % c.len = 0 then 1 else 0)) % 65536 ∧
      (∀ a, a ∉ [APT_RAW_WR n, APT_RAW_STAT n] → (∀ k, k < 64 → a ≠ DMA_REQ_TOK k) → (∀ d, d < 32 → a ≠ DMA_CH_STAT d) →
        t.rd a = s.rd a) ∧ s.chansOnly t [n]) ∧
  (∀ (n : Ch) (c : RawCfg) (s : State), (s.raw n).running = true → (s.raw n).cfg = some c → c.len ≠ 0 →
    (s.raw n).advanced + 64 ≤ (s.raw n).written → c.stopFull = true → c.len ≤ (s.raw n).advanced + 64 →
    s.memUp (n / 128) = true → (∀ d ∈ s.dma.map (·.1), d < 32) →
    ∃ t, exec (.rawWrAdvance n) s = .next t ∧ t.chan n = { s.chan n with raw := {} } ∧
      t.rd (APT_RAW_WR n) = BitVec.ofNat 32 ((s.raw n).written % c.len) ∧
      t.bit (APT_RAW_STAT n) fAPT_RAW_STAT_FULL = true ∧ t.bit (APT_RAW_STAT n) fAPT_RAW_STAT_RUNNING = false ∧ s.chansOnly t [n]) ∧
  (∀ (n : Ch) (s : State), (s.raw n).running = true → (s.raw n).written < (s.raw n).advanced + 64 → exec (.rawWrAdvance n) s = .next s) ∧
  (∀ (n : Nat) (c : RawCfg) (s : State), (s.raw n).running = true → (s.raw n).cfg = some c → c.sel = 0 → c.decim = 0 → c.uncal = false →
    c.tag = false → c.stopFull = false → 0 < c.len → c.len % 8 = 0 → c.base + c.len ≤ 2 ^ 32 → (s.raw n).written % 8 = 0 →
    (s.raw n).cnt = 0 → (s.raw n).stopAt = none → s.memUp (n / 128) = true →
    let x := (s.chan (s.rawSrc n c)).smp
    let a := c.base + (s.raw n).written % c.len
    let t := s.rawTick n
    t.seqMem.readLE a 4 = (wordOf (sat32 x.v)).toNat ∧ t.seqMem.readLE (a + 4) 4 = (wordOf (sat32 x.i)).toNat ∧
      (t.raw n).written = (s.raw n).written + 8 ∧ (∀ b, b < a ∨ a + 8 ≤ b → t.seqMem.read b = s.seqMem.read b))

/-- The safe code and FORCE_SAFE (R101, R206, R207): the register takes the enabled bytes at once; the DAC slice's safe code, and the
source FORCE, follow at tick k+2. A supply below its threshold holds the tile's channels at once by source SUPPLY, and takes a
release back that has not reached its tick; its recovery releases them at the next tick (R432). At a tick the code applied is the engine's in
RUN while no source holds, else the safe code, which the slice has from the tick at which it reaches it, and CTRL becomes 6 where it is
substituted (R100, R127, R204, R207); the code of a drive is the nearest step, and the top one above it (R110).
It states where these commands complete, and in what: safeCodeWrite, forceSafeWrite, supplySenseFall, supplySenseRecover. -/
def Obligations.SafeCodeSources : Prop :=
  (∀ (n : Ch) (data : Word) (be : Nat) (s : State), s.tileUp (n / 128) = true → ∃ t, exec (.safeCodeWrite n data be) s = .next t ∧
    (∀ i, i < 32 → (t.rd (CH_SAFE_CODE n)).getLsbD i =
      if be.testBit (i / 8) ∧ i < 20 then data.getLsbD i else (s.rd (CH_SAFE_CODE n)).getLsbD i) ∧
    t.later = s.later ++ [(s.tick + 2, .safeDac n (t.rd (CH_SAFE_CODE n)).toNat)] ∧ s.regsOnly t [CH_SAFE_CODE n] ∧
    t = { s with regs := t.regs, later := t.later }) ∧
  (∀ (n : Ch) (data : Word) (be : Nat) (s : State), s.tileUp (n / 128) = true → ∃ t, exec (.forceSafeWrite n data be) s = .next t ∧
    (∀ i, i < 32 → (t.rd (CH_DAC_CTL n)).getLsbD i =
      if be.testBit 0 ∧ i = 0 then data.getLsbD 0 else (s.rd (CH_DAC_CTL n)).getLsbD i) ∧
    t.later = s.later ++ [(s.tick + 2, .hold n srcForce ((t.rd (CH_DAC_CTL n)).getLsbD 0))] ∧ s.regsOnly t [CH_DAC_CTL n] ∧
    t = { s with regs := t.regs, later := t.later }) ∧
  (∀ (t : Tile) (cyc : Nat) (s : State), ∃ u, exec (.supplySenseFall t cyc) s = .next u ∧
    (∀ n, n / 128 = t.val → u.rd (CH_SAFE_SRC n) =
      (s.rd (CH_SAFE_SRC n) ||| BitVec.ofNat 32 (2 ^ srcSupply) ||| BitVec.ofNat 32 (2 ^ (16 + srcSupply)))) ∧
    (∀ a, (∀ n, n / 128 = t.val → a ≠ CH_SAFE_SRC n ∧ a ≠ CH_DAC_STAT n) → u.rd a = s.rd a) ∧
    u.hub.supplyLow = s.hub.supplyLow ||| 2 ^ t.val ∧
    u.later = s.later.filter (fun x => match x.2 with
      | .hold n b on => !(n / 128 == t.val && b == srcSupply && !on)
      | _ => true) ∧ u = { s with regs := u.regs, hub := u.hub, later := u.later }) ∧
  (∀ (t : Tile) (s : State), ∃ u, exec (.supplySenseRecover t) s = .next u ∧
    u.later = s.later ++ (tileChans t).map (fun n => (s.tick + 1, Later.hold n srcSupply false)) ∧
    u.hub.supplyLow = s.hub.supplyLow &&& (15 - 2 ^ t.val) ∧ u = { s with later := u.later, hub := u.hub }) ∧
  (∀ (n : Ch) (s : State), (s.eng n).sel < 8 → let t := s.applyCode n
    let held := s.isHeld n || !s.inRun n
    t.fld (CH_DAC_CODE n) fCH_DAC_CODE_CODE = (if held then s.fld (CH_SAFE_CODE n) fCH_SAFE_CODE_SAFE else (s.eng n).hold % 2 ^ 20) ∧
    t.bit (CH_DAC_CODE n) fCH_DAC_CODE_SAFE = held ∧ t.dApplied n = driveOf (t.fld (CH_DAC_CODE n) fCH_DAC_CODE_CODE) ∧
    t.chan n = { s.chan n with dac := { s.dac n with last := if held then (s.dac n).safe else (s.eng n).hold } } ∧
    (s.ctrl n = 7 → t.ctrl n = 7) ∧
    (s.ctrl n ≠ 7 → t.ctrl n = (if held || !(s.desc n).en then 6 else (s.eng n).sel) ∧
      ∀ k, k < 4 → t.bit (LOOP_STAT n k) fLOOP_STAT_IN_CTRL = (t.ctrl n == k)) ∧
    (s.biased n = true → (t.dac n).last / 16384 ≠ (s.dac n).last / 16384 → t.bit (CH_DAC_STAT n) fCH_DAC_STAT_DEGLITCH = true) ∧
    s.chFrame t n [CH_DAC_CODE n, CH_DAC_STAT n, CH_LOOP_STAT n, LOOP_STAT n 0, LOOP_STAT n 1, LOOP_STAT n 2, LOOP_STAT n 3]) ∧
  (∀ c : Nat, c < 2 ^ 20 → codeOf (driveOf c) = c) ∧
  (∀ d : Int, codeOf d < 2 ^ 20 ∧ (one - 2 ^ 108 ≤ d → codeOf d = 0xFFFFF) ∧
    (-one ≤ d → d < one - 2 ^ 108 → (driveOf (codeOf d) - d).natAbs ≤ 2 ^ 108))

/-- An output-mode change (R203): eight ticks after its tick t the new mode is in force and the park buffer drives a powered ball; sixteen
ticks after it source MODE_SWITCH releases. A condition of current-mode supervision (R211), raised once in an episode when its count reaches
its N: its sticky, an entry of the event log and the interrupt bit; ACTION's bits give EVENT, a trip, and FAULT at the next tick.
It states where these commands complete, and in what: modeSwitchPark, modeSwitchEnd, supvCondition. -/
def Obligations.ModesAndSupervision : Prop :=
  ((∀ (n : Ch) (x : Nat) (s : State), (s.dac n).modeStart = some x → s.tick + 1 = x + 8 →
     ∃ t, exec (.modeSwitchPark n) s = .next t ∧ t.bit (CH_DAC_STAT n) fCH_DAC_STAT_MODE = (s.dac n).newMode ∧
       t.bit (CH_DAC_STAT n) fCH_DAC_STAT_HIZ = (s.pwr (n / 32) == 0) ∧
       t.bit (CH_DAC_STAT n) fCH_DAC_STAT_PARK = (s.isHeld n && s.pwr (n / 32) != 0) ∧ s.regsOnly t [CH_DAC_STAT n] ∧ s.onlyRegs t) ∧
   (∀ (n : Ch) (x : Nat) (s : State), (s.dac n).modeStart = some x → s.tick + 1 = x + 16 →
     ∃ t, exec (.modeSwitchEnd n) s = .next t ∧ t.chan n = { s.chan n with dac := { s.dac n with modeStart := none } } ∧
       t.bit (CH_DAC_STAT n) fCH_DAC_STAT_SWITCHING = false ∧ t.heldBy n srcModeSwitch = false ∧
       (∀ b, b ≠ srcModeSwitch → t.heldBy n b = s.heldBy n b) ∧ s.chFrame t n [CH_DAC_STAT n, CH_SAFE_SRC n]) ∧
   (∀ (n : Ch) (x : Nat) (s : State), (s.dac n).modeStart = some x →
     (s.tick + 1 ≠ x + 8 → exec (.modeSwitchPark n) s = .next s) ∧ (s.tick + 1 ≠ x + 16 → exec (.modeSwitchEnd n) s = .next s))) ∧
  (∀ (n : Ch) (compl : Bool) (s : State),
     let cnt := s.fld (CH_DAC_STAT n) (if compl then fCH_DAC_STAT_COMPL_CNT else fCH_DAC_STAT_OPEN_CNT)
     let lim := s.lfld (CH_DAC_SUP_CTL n) (if compl then fCH_DAC_SUP_CTL_COMPL_N else fCH_DAC_SUP_CTL_OPEN_N)
     let act := s.lfld (CH_DAC_SUP_CTL n) (if compl then fCH_DAC_SUP_CTL_COMPL_ACT else fCH_DAC_SUP_CTL_OPEN_ACT)
     let raised := if compl then (s.dac n).complRaised else (s.dac n).openRaised
     (lim ≠ 0 → lim ≤ cnt → raised = false → ∃ t, exec (.supvCondition n compl) s = .next t ∧
       t.bit (CH_DAC_STAT n) (if compl then fCH_DAC_STAT_COMPL else fCH_DAC_STAT_OPEN) = true ∧
       t.bit (CH_INT_STAT n) fCH_INT_STAT_SUPV = true ∧
       (if compl then (t.dac n).complRaised = true ∧ (t.dac n).complCond = act.testBit 0
         else (t.dac n).openRaised = true ∧ (t.dac n).openCond = act.testBit 0) ∧
       (act.testBit 1 = true → t.bit (PG_STAT n) fPG_STAT_TRIPPED = true ∧
         (s.bit (PG_STAT n) fPG_STAT_TRIPPED = false → (s.tick + 1, Later.hold n srcTrip true) ∈ t.later)) ∧
       (act.testBit 2 = true → (s.tick + 1, Later.fault 9) ∈ t.later) ∧
       (act.testBit 1 = false → t.newest 1 (if compl then 9 else 8) (CH_DAC_STAT n) n 0 ∧
         s.regsOnly t [CH_DAC_STAT n, CH_INT_STAT n, MBX_EVT_STAT]) ∧ s.chansOnly t [n]) ∧
     ((lim = 0 ∨ cnt < lim ∨ raised = true) → exec (.supvCondition n compl) s = .next s))

/-- An enabled comparator of a powered, settled cluster that is tied to no test level goes OUT (R214, R216, R222): its latch is OUT; a masked window only notes
BLANKED_OUT; an unmasked one acts on its routes: TRIP or QUAD sets the channel's trip latch and holds its safe code at once, QUAD those of
the quad's other channels too, and a first trip records the stamp and the cycle; FAULT asserts FAULT_N at the next tick, once an
episode.
It states where this command completes, and in what: comparatorOut. -/
def Obligations.ComparatorsTrip : Prop :=
  ∀ (n : Ch) (w : Win) (hi : Bool) (cyc : Nat) (s : State), s.pwr (n / 32) ≠ 0 → (s.cluster (n / 32)).settling = false →
    s.cmpEnabled n w hi = true → s.tied n w = false → cyc < 400 →
    (s.winMasked n w (s.inst cyc) = true → ∃ t, exec (.comparatorOut n w hi cyc) s = .next t ∧ t.latchOut n w hi = true ∧
      t.bit (WIN_STAT n (winIx w)) fWIN_STAT_BLANKED_OUT = true ∧
      (∀ a, a ≠ WIN_STAT n 0 → a ≠ WIN_STAT n 1 → (∀ m, m / 4 = n.val / 4 → a ≠ PG_TRIP_SRC m) → t.rd a = s.rd a) ∧ s.onlyRegs t) ∧
    (s.winMasked n w (s.inst cyc) = false → ∃ t, exec (.comparatorOut n w hi cyc) s = .next t ∧ t.latchOut n w hi = true ∧
      t.bit (WIN_STAT n (winIx w)) (if hi then fWIN_STAT_SEEN_HI else fWIN_STAT_SEEN_LO) = true ∧ (t.win n w).episode = true ∧
      (s.route n w % 4 ≠ 0 → t.bit (PG_STAT n) fPG_STAT_TRIPPED = true ∧
        (t.rd (PG_TRIP_SRC n)).getLsbD (16 + 2 * winIx w + if hi then 0 else 1) = true ∧
        (s.bit (PG_STAT n) fPG_STAT_TRIPPED = false → t.heldBy n srcTrip = true ∧ t.rd64 (PG_TRIP_STAMP_LO n) = s.now ∧
          t.fld (PG_TRIP_FINE n) fPG_TRIP_FINE_CYCLE = cyc ∧ (t.chan n).pg.run = none)) ∧
      ((s.route n w).testBit 1 = true → ∀ m, m / 4 = n.val / 4 → t.bit (PG_STAT m) fPG_STAT_TRIPPED = true ∧
        (s.bit (PG_STAT m) fPG_STAT_TRIPPED = false → t.heldBy m srcTrip = true)) ∧
      ((s.route n w).testBit 3 = true → (s.win n w).faulted = false → (s.tick + 1, Later.fault 8) ∈ t.later) ∧
      (s.route n w = 0 → t.heldBy n srcTrip = s.heldBy n srcTrip ∧ t.later = s.later))

/-- A comparator goes INSIDE: with both latches INSIDE the window's episode is over (R214). Settling after OFF ends, and the latches of
tied comparators follow their level (R215). Without an
enabled, powered and settled comparator no latch goes OUT, and a tied one does not see its balls (R226). Blanking (R218, R219): a MANUAL event falls at tick k+2; when the timer has run
out WIN_BLANK_NOW is 0, and a window of a powered cluster that obeys it, is outside and is masked by nothing else acts, as at a comparator's
edge; before, the command is no event.
It states where these commands complete, and in what: comparatorInside, comparatorSettled, manualBlank, blankingEnd. -/
def Obligations.ReturnAndBlanking : Prop :=
  ((∀ (n : Ch) (w : Win) (hi : Bool) (cyc : Nat) (s : State), s.tied n w = false → ∃ t, exec (.comparatorInside n w hi cyc) s = .next t ∧
     t.latchOut n w hi = false ∧ t.latchOut n w (!hi) = s.latchOut n w (!hi) ∧
     (s.latchOut n w (!hi) = false → (t.win n w).episode = false ∧ (t.win n w).faulted = false) ∧
     (∀ a, a ≠ WIN_STAT n 0 → a ≠ WIN_STAT n 1 → (∀ m, m / 4 = n.val / 4 → a ≠ PG_TRIP_SRC m) → t.rd a = s.rd a) ∧
     s.chansOnly t [n] ∧ t = { s with regs := t.regs, ch := t.ch }) ∧
   (∀ (g : Clu) (s : State), ∃ t, exec (.comparatorSettled g) s = .next t ∧
     t.cluster g = { s.cluster g with settling := false } ∧ s.clustersOnly t [g] ∧ t = { s with regs := t.regs, clu := t.clu } ∧
     (∀ a, (∀ n ∈ chansOf g, a ≠ WIN_STAT n 0 ∧ a ≠ WIN_STAT n 1) → t.rd a = s.rd a) ∧
     (∀ n ∈ chansOf g, ∀ w hi, s.pwr g = 0 ∨ s.tieLevel n w = none → t.latchOut n w hi = s.latchOut n w hi) ∧
     (∀ n ∈ chansOf g, ∀ w x, s.pwr g ≠ 0 → s.tieLevel n w = some x →
       let (hi, lo, h) := s.thresholds n w
       t.latchOut n w true = (s.cmpEnabled n w true && (decide (hi + h < x) || (s.latchOut n w true && !decide (x < hi)))) ∧
       t.latchOut n w false = (s.cmpEnabled n w false && (decide (x < lo - h) || (s.latchOut n w false && !decide (lo < x)))))) ∧
   (∀ (n : Ch) (w : Win) (hi : Bool) (cyc : Nat) (s : State),
     s.pwr (n / 32) = 0 ∨ (s.cluster (n / 32)).settling = true ∨ s.cmpEnabled n w hi = false ∨ s.tied n w = true →
     exec (.comparatorOut n w hi cyc) s = .next s) ∧
   (∀ (n : Ch) (w : Win) (hi : Bool) (cyc : Nat) (s : State), s.tied n w = true → exec (.comparatorInside n w hi cyc) s = .next s)) ∧
  ((∀ (n : Ch) (s : State), s.tileUp (n / 128) = true → ∃ t, exec (.manualBlank n) s = .next t ∧
     t.later = s.later ++ [(s.tick + 2, .blank n)] ∧ t = { s with later := t.later }) ∧
   (∀ (n : Ch) (cyc e : Nat) (s : State), (s.chan n).blank.ends = some e → e ≤ s.inst cyc → cyc < 400 →
     ∃ t, exec (.blankingEnd n cyc) s = .next t ∧ (t.chan n).blank.ends = none ∧ t.rd (WIN_BLANK_NOW n) = 0 ∧
       (∀ w, s.lbit (WIN_CTL n (winIx w)) fWIN_CTL_BLANK = true → s.outside n w = true → s.winTesting n w = false →
         s.route n w % 4 ≠ 0 → s.pwr (n / 32) ≠ 0 → t.bit (PG_STAT n) fPG_STAT_TRIPPED = true ∧
         (s.bit (PG_STAT n) fPG_STAT_TRIPPED = false → t.heldBy n srcTrip = true)) ∧
       ((∀ w, s.outside n w = false) → t.later = s.later ∧ t.heldBy n srcTrip = s.heldBy n srcTrip ∧ s.chansOnly t [n])) ∧
   (∀ (n : Ch) (cyc : Nat) (s : State), (∀ e, (s.chan n).blank.ends = some e → s.inst cyc < e) →
     exec (.blankingEnd n cyc) s = .next s))


/-- Self-check of a window (R226, R227): a mode takes effect at tick k+2, and is refused where the other window is in a test or the
cluster is OFF; a step of AUTO ends after eight periods with its result, the comparators start the next one INSIDE at its level, and the
fourth ends the test.
It states where these commands complete, and in what: windowTest, autoTestStepEnd. -/
def Obligations.WindowSelfCheck : Prop :=
  (∀ (n : Ch) (w : Win) (data : Word) (be : Nat) (s : State), s.tileUp (n / 128) = true →
    let a := WIN_TEST n (winIx w)
    let v := (s.rd a &&& ~~~(beMask be &&& 0x0FFF0003)) ||| (data &&& (beMask be &&& 0x0FFF0003))
    let refused := fWIN_TEST_MODE.get v ≠ 0 ∧ (s.inTest n (otherWin w) = true ∨ s.pwr (n / 32) = 0)
    (refused → ∃ t, exec (.windowTest n w data be) s = .next t ∧
      t.rd (WIN_TEST_STAT n (winIx w)) = fWIN_TEST_STAT_REFUSED.put (s.rd (WIN_TEST_STAT n (winIx w))) 1 ∧
      s.regsOnly t [WIN_TEST_STAT n (winIx w)] ∧ s.onlyRegs t) ∧
    (¬refused → ∃ t, exec (.windowTest n w data be) s = .next t ∧ t.rd a = v ∧
      t.later = s.later ++ [(s.tick + 2, .winTest n (winIx w) (fWIN_TEST_MODE.get v))] ∧ s.regsOnly t [a] ∧
      t = { s with regs := t.regs, later := t.later })) ∧
  (∀ (n : Ch) (w : Win) (k : Nat) (s : State), (s.win n w).test = 3 → (s.win n w).step + 1 = k → k ≤ 4 →
    s.tick + 1 = (s.win n w).autoStart + 8 * k →
    let next := if k < 3 ∧ (s.cluster (n / 32)).settling = false then s.autoLevel n w (k + 1) else none
    let (hi, lo, h) := s.thresholds n w
    ∃ t, exec (.autoTestStepEnd n w) s = .next t ∧ t.fld (WIN_TEST_STAT n (winIx w)) ⟨6 + 2 * k, 2⟩ = s.autoResult n w k ∧
      t.latchOut n w true = (s.cmpEnabled n w true && (match next with | some x => decide (hi + h < x) | none => false)) ∧
      t.latchOut n w false = (s.cmpEnabled n w false && (match next with | some x => decide (x < lo - h) | none => false)) ∧
      (s.autoResult n w k = 2 → t.bit (WIN_TEST_STAT n (winIx w)) fWIN_TEST_STAT_FAIL = true ∧
        ((∀ i, i < k - 1 → s.fld (WIN_TEST_STAT n (winIx w)) ⟨8 + 2 * i, 2⟩ ≠ 2) → t.newest 1 17 (WIN_TEST_STAT n (winIx w)) n 0)) ∧
      (k < 4 → (t.win n w).test = 3 ∧ (t.win n w).step = k) ∧
      (k = 4 → (t.win n w).test = 0 ∧ (t.win n w).actFrom = s.tick + 3 ∧
        t.bit (WIN_TEST_STAT n (winIx w)) fWIN_TEST_STAT_DONE = true ∧
        t.bit (WIN_TEST_STAT n (winIx w)) fWIN_TEST_STAT_BUSY = false ∧ t.fld (WIN_TEST n (winIx w)) fWIN_TEST_MODE = 0) ∧
      (∀ a, a ∉ [WIN_TEST_STAT n (winIx w), WIN_STAT n 0, WIN_STAT n 1, WIN_TEST n (winIx w), MBX_EVT_STAT] →
        (∀ m, m / 4 = n.val / 4 → a ≠ PG_TRIP_SRC m) → t.rd a = s.rd a) ∧ s.chansOnly t [n]) ∧
  (∀ (n : Ch) (w : Win) (s : State), ((s.win n w).test ≠ 3 ∨ s.tick + 1 ≠ (s.win n w).autoStart + 8 * ((s.win n w).step + 1)) →
    exec (.autoTestStepEnd n w) s = .next s)

/-- Pulse generator runs (R220, R221): START of an idle generator takes the live PG fields and arms it, else it is REFUSED; T0 is the tick
its start is due, or a marker edge falls, and the run is ACTIVE; STOP ends it at tick m+2. The pulse term of a tick is AMP times the part of the
interval to the next tick that the pulses overlap, in 12.5 ns steps, of 40, to nearest with ties away from zero; in UNIT 0 all or nothing.
It states where these commands complete, and in what: pgStart, pgRunBegin, pgStop. -/
def Obligations.PulseRuns : Prop :=
  (∀ (n : Ch) (at_ : Bool) (s : State), s.tileUp (n / 128) = true → (s.chan n).pg.run = none →
    let marker := s.lfld (PG_CTL n) fPG_CTL_START_SRC != 0
    let stamp := if at_ && !marker then some (s.rd64 (PG_AT_LO n)) else none
    ∃ t r, exec (.pgStart n at_) s = .next t ∧ t.chan n = { s.chan n with pg := { (s.chan n).pg with run := some r } } ∧
      r.amp = (s.lv (PG_AMP n)).toInt ∧ r.marker = marker ∧ r.delay = s.lfld (PG_DELAY n) fPG_DELAY_VALUE ∧
      r.width = s.lfld (PG_WIDTH n) fPG_WIDTH_VALUE ∧ r.period = s.lfld (PG_PERIOD n) fPG_PERIOD_VALUE ∧
      r.count = (s.lv (PG_COUNT n)).toNat ∧ r.rep = s.lbit (PG_CTL n) fPG_CTL_REPEAT ∧ r.due = s.sched stamp ∧ r.t0 = none ∧
      t.bit (PG_STAT n) fPG_STAT_ARMED = true ∧ t.fld (PG_STAT n) fPG_STAT_AUTO_COUNT = 0 ∧
      (s.lateOpt stamp = true → t.bit (PG_STAT n) fPG_STAT_LATE = true) ∧ s.chFrame t n [PG_STAT n]) ∧
  (∀ (n : Ch) (at_ : Bool) (s : State), s.tileUp (n / 128) = true → (s.chan n).pg.run ≠ none →
    ∃ t, exec (.pgStart n at_) s = .next t ∧ t.rd (PG_STAT n) = fPG_STAT_REFUSED.put (s.rd (PG_STAT n)) 1 ∧
      s.regsOnly t [PG_STAT n] ∧ s.onlyRegs t) ∧
  (∀ (n : Ch) (r : PgRun) (s : State), (s.chan n).pg.run = some r → r.t0 = none →
    ((r.marker = false ∧ s.due r.due = true) ∨
      (r.marker = true ∧ r.due.notBefore ≤ s.tick + 1 ∧ s.markerEdge (s.feedTrack n) r.mkr = true)) →
    ∃ t, exec (.pgRunBegin n) s = .next t ∧
      t.chan n = { s.chan n with pg := { (s.chan n).pg with run := some { r with
        t0 := some (s.tick + 1), starts := if r.marker then [r.steps r.delay] else [] } } } ∧
      t.bit (PG_STAT n) fPG_STAT_ARMED = false ∧ t.bit (PG_STAT n) fPG_STAT_ACTIVE = true ∧ s.chFrame t n [PG_STAT n]) ∧
  (∀ (n : Ch) (r : PgRun) (s : State), s.tileUp (n / 128) = true → (s.chan n).pg.run = some r →
    ∃ t, exec (.pgStop n) s = .next t ∧
      t.chan n = { s.chan n with pg := { (s.chan n).pg with run := some { r with stopAt := r.stopAt.or (some (s.tick + 2)) } } } ∧
      s.chFrame t n []) ∧
  (∀ (n : Ch) (s : State), (s.chan n).pg.run = none → exec (.pgRunBegin n) s = .next s ∧
    (s.tileUp (n / 128) = true → exec (.pgStop n) s = .next s)) ∧
  ((∀ (r : PgRun) (x m : Nat), r.marker = false → x + 40 ≤ r.steps r.delay + m * r.dist →
     r.ov x = (((List.range m).filter (fun k => match r.pulses with | some c => decide (k < c) | none => true)).map
       (fun k => min (r.steps r.delay + k * r.dist + r.len) (x + 40) - max (r.steps r.delay + k * r.dist) x)).sum) ∧
   (∀ (r : PgRun) (i : Nat), r.marker = false → r.unit = false → r.ov (40 * i) = 0 ∨ r.ov (40 * i) = 40) ∧
   (∀ (n t0 : Nat) (r : PgRun) (s : State), (s.chan n).pg.run = some r → r.t0 = some t0 → r.marker = false → r.stopAt = none →
     s.pgTerm n = rha (r.amp * r.ov (40 * (s.tick + 1 - t0))) 40) ∧
   (∀ (n : Nat) (s : State), (s.chan n).pg.run = none → s.pgTerm n = 0))

/-- Release of the trip latch (R223, R224): the host's is asked for tick k+2 while no trip input is asserted, refused otherwise, and
nothing where the latch is open; one that comes while another is pending joins it; the automatic one after HOLDOFF quiet periods, unless the automatic releases are exhausted. At the release tick it is refused where a
trip input is asserted then or a synchronous cause was raised in the period before; else the latch opens, source TRIP releases alone, in RUN
the GUARD timer loads, and a host's release clears AUTO_COUNT.
It states where these commands complete, and in what: pgRelease, autoRelease. -/
def Obligations.TripRelease : Prop :=
  (∀ (n : Ch) (s : State), s.tileUp (n / 128) = true →
    (s.bit (PG_STAT n) fPG_STAT_TRIPPED = false → exec (.pgRelease n) s = .next s) ∧
    (s.bit (PG_STAT n) fPG_STAT_TRIPPED = true → (s.chan n).pg.release = none → s.tripInputs n (40 * s.tick) ≠ 0 →
      ∃ t, exec (.pgRelease n) s = .next t ∧
      t.rd (PG_STAT n) = fPG_STAT_RELEASE_REFUSED.put (s.rd (PG_STAT n)) 1 ∧ s.regsOnly t [PG_STAT n] ∧ s.onlyRegs t) ∧
    (s.bit (PG_STAT n) fPG_STAT_TRIPPED = true → ((s.chan n).pg.release ≠ none ∨ s.tripInputs n (40 * s.tick) = 0) →
      ∃ t, exec (.pgRelease n) s = .next t ∧
      t.chan n = { s.chan n with pg := { (s.chan n).pg with release := some (match (s.chan n).pg.release with
        | some (x, _) => (x, true) | none => (s.tick + 2, true)) } } ∧ s.chFrame t n [])) ∧
  (∀ (n : Ch) (s : State), s.lbit (PG_REL_CTL n) fPG_REL_CTL_AUTO = true → s.bit (PG_STAT n) fPG_STAT_TRIPPED = true →
    s.quietNow n (40 * s.tick + 39) = true → max 1 (s.lfld (PG_REL_CTL n) fPG_REL_CTL_HOLDOFF) ≤ (s.chan n).pg.quiet + 1 →
    (s.chan n).pg.exhausted = false → ∃ t, exec (.autoRelease n) s = .next t ∧
      t.chan n = { s.chan n with pg := { (s.chan n).pg with release := some (match (s.chan n).pg.release with
        | some (x, h) => (x, h) | none => (s.tick + 2, false)) } } ∧ s.chFrame t n []) ∧
  (∀ (n : Ch) (s : State), (s.lbit (PG_REL_CTL n) fPG_REL_CTL_AUTO = false ∨ s.bit (PG_STAT n) fPG_STAT_TRIPPED = false ∨
    s.quietNow n (40 * s.tick + 39) = false ∨ (s.chan n).pg.exhausted = true) → exec (.autoRelease n) s = .next s) ∧
  (∀ (n : Nat) (host : Bool) (s : State), (s.chan n).pg.release = some (s.tick, host) →
    let t := s.releaseAt n
    (t.chan n).pg.release = none ∧
    ((s.tripInputs n (40 * s.tick) ≠ 0 ∨ (s.chan n).pg.syncCause = true) →
      t.rd (PG_STAT n) = fPG_STAT_RELEASE_REFUSED.put (s.rd (PG_STAT n)) 1 ∧ s.regsOnly t [PG_STAT n]) ∧
    (s.tripInputs n (40 * s.tick) = 0 → (s.chan n).pg.syncCause = false →
      ((s.lfld (WIN_BLANK_CTL n) fWIN_BLANK_CTL_SRC).testBit 3 = false ∨ s.lfld (WIN_BLANK_LEN n) fWIN_BLANK_LEN_LEN ≠ 0) →
      t.bit (PG_STAT n) fPG_STAT_TRIPPED = false ∧ t.heldBy n srcTrip = false ∧ (∀ b, b ≠ srcTrip → t.heldBy n b = s.heldBy n b) ∧
      (s.inRun n = true → (t.eng n).guardLoad = true) ∧ (host = true → t.fld (PG_STAT n) fPG_STAT_AUTO_COUNT = 0)))

/-- Arming and starting a track (R233, Table 11-3 code 8): ARM of a stopped track in IDLE or RUN takes its table and live control fields,
clears its loop counters and reads the start descriptor where sequence memory serves it, and credits that came before stay (R247); a bad table or ring is refused with code 8, any other state or power state
is refused; staging makes it READY, and does not while sequence memory does not answer (R31); START of a READY track is pending at its stamp or at tick k+2, a stamp in the past is LATE.
It states where these commands complete, and in what: trackArm, trackReady, trackStart. -/
def Obligations.TrackArming : Prop :=
  (∀ (n : Ch) (s : State), s.tileUp (n / 128) = true →
    let ctl := s.lv (SEQ_CTL n)
    let base := (s.rd (SEQ_TABLE_BASE n)).toNat / 64 * 64
    let len := s.fld (SEQ_TABLE_LEN n) fSEQ_TABLE_LEN_TABLE_LEN
    let idx := s.fld (SEQ_START_IDX n) fSEQ_START_IDX_START_IDX
    let first := s.fld (SEQ_RING n) fSEQ_RING_FIRST
    let last := s.fld (SEQ_RING n) fSEQ_RING_LAST
    let stream := fSEQ_CTL_STREAM.get ctl != 0
    let bad := len = 0 ∨ len ≤ idx ∨ 2 ^ 32 < base + 32 * len ∨ (stream = true ∧ (last < first + 2 ∨ len ≤ last))
    ((s.biased n = false ∨ s.trState n ≠ trStopped) → ∃ t, exec (.trackArm n) s = .next t ∧
      t.rd (SEQ_STAT n) = fSEQ_STAT_REFUSED.put (s.rd (SEQ_STAT n)) 1 ∧ s.regsOnly t [SEQ_STAT n] ∧ s.onlyRegs t) ∧
    (s.biased n = true → s.trState n = trStopped → bad → ∃ t, exec (.trackArm n) s = .next t ∧
      t.rd (SEQ_STAT n) = fSEQ_STAT_REFUSED.put (s.rd (SEQ_STAT n)) 1 ∧ t.fld (SEQ_ERR n) fSEQ_ERR_INDEX = idx ∧
      t.fld (SEQ_ERR n) fSEQ_ERR_CODE = 8 ∧ s.regsOnly t [SEQ_STAT n, SEQ_ERR n] ∧ s.onlyRegs t) ∧
    (s.biased n = true → s.trState n = trStopped → ¬bad → ∃ t x, exec (.trackArm n) s = .next t ∧
      t.chan n = { s.chan n with trk := x } ∧ x.base = base ∧ x.len = len ∧ x.startIdx = idx ∧ x.stream = stream ∧ x.first = first ∧
      x.last = last ∧ x.safeMode = (fSEQ_CTL_UR_MODE.get ctl != 0) ∧ x.trgEn = (fSEQ_CTL_TRG_EN.get ctl != 0) ∧
      x.trgSel = fSEQ_CTL_TRG_SEL.get ctl ∧
      x.queued.map (fun g => { g with head := none }) = (if s.seqUp n then [segOf len idx ((List.range 8).map (fun k =>
        s.seqMem.readLE (base + 32 * idx + 4 * k) 4))] else []) ∧ x.startPend = none ∧ x.play = none ∧ x.hostReq = none ∧ x.has = false ∧
      x.hostFlagAt = (s.trk n).hostFlagAt ∧ x.arrivals = (s.trk n).arrivals ∧ x.trgEnd = (s.trk n).trgEnd ∧
      t.trState n = trArming ∧ t.rd (SEQ_LOOP01 n) = 0 ∧ t.rd (SEQ_LOOP23 n) = 0 ∧ t.fld (SEQ_POS n) fSEQ_POS_NEXT = idx ∧
      s.chFrame t n [SEQ_STAT n, SEQ_LOOP01 n, SEQ_LOOP23 n, SEQ_POS n])) ∧
  (∀ (n : Ch) (g : Seg) (s : State), s.trState n = trArming → s.queuedSeg n (s.trk n) (s.trk n).startIdx = some g →
    ∃ t, exec (.trackReady n) s = .next t ∧ t.chan n = { s.chan n with trk := { s.trk n with queued := [g] } } ∧
    t.rd (SEQ_STAT n) = fSEQ_STAT_STATE.put (s.rd (SEQ_STAT n)) trReady ∧ s.chFrame t n [SEQ_STAT n]) ∧
  (∀ (n : Ch) (s : State), s.queuedSeg n (s.trk n) (s.trk n).startIdx = none → exec (.trackReady n) s = .next s) ∧
  (∀ (n : Ch) (at_ : Bool) (s : State), s.tileUp (n / 128) = true →
    let stamp := if at_ then some (s.rd64 (SEQ_AT_LO n)) else none
    let free := s.biased n = true ∧ s.trState n = trReady ∧ (s.trk n).startPend = none
    (free → ∃ t, exec (.trackStart n at_) s = .next t ∧
      t.chan n = { s.chan n with trk := { s.trk n with startPend := some (s.sched stamp) } } ∧
      t.rd (SEQ_STAT n) = (if s.lateOpt stamp then fSEQ_STAT_LATE.put (s.rd (SEQ_STAT n)) 1 else s.rd (SEQ_STAT n)) ∧
      s.chFrame t n [SEQ_STAT n]) ∧
    (¬free → ∃ t, exec (.trackStart n at_) s = .next t ∧
      t.rd (SEQ_STAT n) = fSEQ_STAT_REFUSED.put (s.rd (SEQ_STAT n)) 1 ∧ s.regsOnly t [SEQ_STAT n] ∧ s.onlyRegs t))

/-- The commands of a track that runs (R240, R242, R247, R250): STOP ends it at tick k+2, HOST_EVT sets its flag from period k+2, HOST_JUMP
asks for an entry of its table and is refused outside it or inside the ring, FILL adds credits up to the ring's length, and in under-run pays owed segments
first, then gives the segment at the virtual position one, which may resume the track from tick k+16; a cluster command does the same to every masked track and to no other.
It states where these commands complete, and in what: trackStop, hostEvt, hostJump, trackFill, cluSeqStart, cluSeqStartAt, cluSeqStop,
cluSeqHost. -/
def Obligations.TrackCommands : Prop :=
  (∀ (n : Ch) (s : State), s.tileUp (n / 128) = true →
    (s.trState n = trStopped → exec (.trackStop n) s = .next s) ∧
    (s.trState n ≠ trStopped → ∃ t, exec (.trackStop n) s = .next t ∧
      t.chan n = { s.chan n with trk := { s.trk n with stopAt := (s.trk n).stopAt.or (some (s.tick + 2)) } } ∧ s.chFrame t n [])) ∧
  (∀ (n : Ch) (s : State), s.tileUp (n / 128) = true → ∃ t, exec (.hostEvt n) s = .next t ∧
    t.chan n = { s.chan n with trk := { s.trk n with hostFlagAt := (s.trk n).hostFlagAt ++ [s.tick + 2] } } ∧ s.chFrame t n []) ∧
  (∀ (n : Ch) (target : Nat) (at_ : Bool) (s : State), s.tileUp (n / 128) = true →
    let x := s.trk n
    let active := match x.play with | some p => p.seg.idx | none => 0xFFF
    let stamp := if at_ then some (s.rd64 (SEQ_JUMP_AT_LO n)) else none
    let good := target < x.len ∧ (x.inRing active = false ∨ x.inRing target = false)
    (good → ∃ t, exec (.hostJump n target at_) s = .next t ∧ t.chan n = { s.chan n with trk := { x with
      hostReq := some ⟨target, s.tick + 2, (s.sched stamp).stamp⟩ } } ∧ s.chFrame t n []) ∧
    (¬good → ∃ t, exec (.hostJump n target at_) s = .next t ∧
      t.rd (SEQ_STAT n) = fSEQ_STAT_REFUSED.put (s.rd (SEQ_STAT n)) 1 ∧ s.regsOnly t [SEQ_STAT n] ∧ s.onlyRegs t)) ∧
  (∀ (n : Ch) (add : Nat) (s : State), s.tileUp (n / 128) = true →
    let stream := if s.trState n = trStopped then s.lbit (SEQ_CTL n) fSEQ_CTL_STREAM else (s.trk n).stream
    let ring := if s.trState n = trStopped then s.fld (SEQ_RING n) fSEQ_RING_LAST + 1 - s.fld (SEQ_RING n) fSEQ_RING_FIRST
      else (s.trk n).last + 1 - (s.trk n).first
    let c0 := s.fld (SEQ_CREDIT n) fSEQ_CREDIT_CREDIT
    let owed := s.fld (SEQ_CREDIT n) fSEQ_CREDIT_OWED
    (stream = false → exec (.trackFill n add) s = .next s) ∧
    (stream = true → s.trState n ≠ trUnderrun → ∃ t l, exec (.trackFill n add) s = .next t ∧
      t.chan n = { s.chan n with trk := { s.trk n with arrivals := l } } ∧
      t.rd (SEQ_CREDIT n) = fSEQ_CREDIT_CREDIT.put (s.rd (SEQ_CREDIT n)) (min ring (c0 + add)) ∧
      t.rd (SEQ_STAT n) = (if ring < c0 + add then fSEQ_STAT_FILL_OVER.put (s.rd (SEQ_STAT n)) 1 else s.rd (SEQ_STAT n)) ∧
      s.chFrame t n [SEQ_CREDIT n, SEQ_STAT n]) ∧
    (stream = true → s.trState n = trUnderrun → add ≤ owed → c0 ≤ ring → ∃ t l, exec (.trackFill n add) s = .next t ∧
      t.chan n = { s.chan n with trk := { s.trk n with arrivals := l } } ∧
      t.fld (SEQ_CREDIT n) fSEQ_CREDIT_OWED = owed - add ∧ t.fld (SEQ_CREDIT n) fSEQ_CREDIT_CREDIT = c0 ∧
      s.chFrame t n [SEQ_CREDIT n]) ∧
    (stream = true → s.trState n = trUnderrun → owed < add → (s.trk n).resumeAt = none → (s.trk n).creditFrom = none →
      (s.trk n).paid = false → ∃ t, exec (.trackFill n add) s = .next t ∧ (t.trk n).creditFrom = some (s.tick + 16) ∧
      t.fld (SEQ_CREDIT n) fSEQ_CREDIT_OWED = 0 ∧ t.rd (SEQ_STAT n) = (if ring < c0 + (add - owed - 1) then
        fSEQ_STAT_FILL_OVER.put (s.rd (SEQ_STAT n)) 1 else s.rd (SEQ_STAT n)) ∧
      t.rd (SEQ_CREDIT n) = fSEQ_CREDIT_CREDIT.put (fSEQ_CREDIT_OWED.put (s.rd (SEQ_CREDIT n)) 0) (min ring (c0 + (add - owed - 1))) ∧
      s.chFrame t n [SEQ_CREDIT n, SEQ_STAT n])) ∧
  (∀ (g : Clu) (mask : Word) (at_ : Bool) (s : State), s.tileUp (g / 4) = true →
    let stamp := if at_ then some (s.rd64 (CLU_SEQ_AT_LO g)) else none
    let c := if at_ then Instr.cluSeqStartAt g mask else Instr.cluSeqStart g mask
    ∃ t, exec c s = .next t ∧ (∀ i, i < 32 → mask.getLsbD i = true →
      let n := 32 * g.val + i
      if s.biased n = true ∧ s.trState n = trReady ∧ (s.trk n).startPend = none then
        t.chan n = { s.chan n with trk := { s.trk n with startPend := some (s.sched stamp) } } ∧
        (s.lateOpt stamp = true → t.bit (SEQ_STAT n) fSEQ_STAT_LATE = true)
      else t.rd (SEQ_STAT n) = fSEQ_STAT_REFUSED.put (s.rd (SEQ_STAT n)) 1 ∧ t.chan n = s.chan n) ∧
      (∀ n, (∀ i, i < 32 → mask.getLsbD i = true → n ≠ 32 * g.val + i) → t.chan n = s.chan n ∧ (n < 512 → t.rd (SEQ_STAT n) = s.rd (SEQ_STAT n))) ∧
      s.regsOnly t ((List.range 32).map (fun i => SEQ_STAT (32 * g.val + i))) ∧ ({ s with ch := t.ch } : State).onlyRegs t) ∧
  (∀ (g : Clu) (mask : Word) (host : Bool) (s : State), s.tileUp (g / 4) = true →
    let c := if host then Instr.cluSeqHost g mask else Instr.cluSeqStop g mask
    ∃ t, exec c s = .next t ∧ (∀ i, i < 32 → mask.getLsbD i = true →
      let n := 32 * g.val + i
      let x := s.trk n
      let stop : TrackSt := if s.trState n = trStopped then x else { x with stopAt := x.stopAt.or (some (s.tick + 2)) }
      t.chan n = { s.chan n with trk := if host then { x with hostFlagAt := x.hostFlagAt ++ [s.tick + 2] } else stop }) ∧
      (∀ n, (∀ i, i < 32 → mask.getLsbD i = true → n ≠ 32 * g.val + i) → t.chan n = s.chan n) ∧ t = { s with ch := t.ch })

/-- The events of a track (R233, R234, R239, R243, R244, R246, R248, R249): at its start tick a segment plays, waits for its start point,
goes into under-run where it finds no credit or its first sample cannot be had (R31) or, with a bad descriptor, faults; a segment's end
enters the chosen successor, in under-run where no credit was held, waiting where its start point lies ahead, or holds the last sample at
END; one left unplayed is owed or takes the credit that came too late; recorded jumps are settled, loop counters step, a ring segment left
gives its tokens; a due WAIT starts; nothing begins at a tick at which a STOP acts (R240); samples that come again release source UNDERRUN;
a resume ends an under-run; a staged jump is recorded, for the next segment where the choice is made; a trigger pulse ends. What SAMPLE_TICK
has a playing track supply (R230, R231, R235 to R237, Table 11-2): the next source sample or the four-tap interpolation at the position
that has moved by the rate, at most one sample a tick, a constant, a ramp or a tone, with the markers of that sample; and at the last
sample, what follows. A tone that continues keeps its phase, an interpolated segment takes over its predecessor's overshoot.
It states where these commands complete, and in what: trackStartTick, segmentEnd, segmentWaitStart, underrunResume, stagingComplete,
trgPulseEnd. -/
def Obligations.TrackEvents : Prop :=
  (∀ (n : Ch) (d : Sched) (g : Seg) (s : State), (s.trk n).startPend = some d → s.trState n = trReady → s.due d = true →
    s.queuedSeg n (s.trk n) (s.trk n).startIdx = some g → s.stopsNext n = false →
    let p := s.startPlay g d
    let waits := g.wait && !atOrAfter s.nextStamp p.start
    let short := (s.trk n).inRing g.idx && s.creditAt n (s.tick + 1) == 0
    (g.code ≠ 0 → ∃ t, exec (.trackStartTick n) s = .next t ∧ t.trState n = trFault ∧
      t.fld (SEQ_ERR n) fSEQ_ERR_INDEX = g.idx % 4096 ∧ t.fld (SEQ_ERR n) fSEQ_ERR_CODE = g.code % 16 ∧
      t.bit (SEQ_STAT n) fSEQ_STAT_BAD_DESC = true ∧ (t.trk n).play = none ∧ (t.trk n).startPend = none ∧
      t.newest 1 13 (SEQ_STAT n) n 0 ∧ t.bit (CH_INT_STAT n) fCH_INT_STAT_SEQ_FAULT = true ∧
      s.regsOnly t [SEQ_STAT n, SEQ_ERR n, CH_INT_STAT n, MBX_EVT_STAT] ∧ s.chansOnly t [n]) ∧
    (g.code = 0 → waits = false → short = false → (s.trk n).lost = false →
      ∃ t, exec (.trackStartTick n) s = .next t ∧ t.trState n = trPlaying ∧ (t.trk n).play = some { p with began := true } ∧
      (t.trk n).startPend = none ∧ t.rd64 (SEQ_SEG_STAMP_LO n) = s.nextStamp ∧ t.rd (SEQ_SEGS n) = s.rd (SEQ_SEGS n) + 1 ∧
      t.fld (SEQ_POS n) fSEQ_POS_ACTIVE = g.idx % 4096 ∧
      t.fld (SEQ_CREDIT n) fSEQ_CREDIT_CREDIT = s.fld (SEQ_CREDIT n) fSEQ_CREDIT_CREDIT - ((s.trk n).inRing g.idx).toNat ∧
      (t.trk n).trgEnd = (if g.trg ∧ (s.trk n).trgEn then some (s.tick + 3) else (s.trk n).trgEnd) ∧
      t.later = s.later ++ (if s.heldBy n srcUnderrun then [(s.tick + 1, .hold n srcUnderrun false)] else []) ∧
      ({ s with later := t.later } : State).chFrame t n
        [SEQ_STAT n, SEQ_SEG_STAMP_LO n, SEQ_SEG_STAMP_HI n, SEQ_SEGS n, SEQ_POS n, SEQ_SAMPLE n, SEQ_CREDIT n]) ∧
    (g.code = 0 → waits = false → ((short = true ∧ (s.trk n).resumeAt = none) ∨ (s.trk n).lost = true) →
      ∃ t, exec (.trackStartTick n) s = .next t ∧ t.trState n = trUnderrun ∧
      (t.trk n).play = some { p with began := true } ∧ t.bit (SEQ_STAT n) fSEQ_STAT_UNDERRUN = true ∧
      (t.rd (CLU_SEQ_UR (n / 32))).getLsbD (n % 32) = true ∧
      (t.rd (SEQ_DROPPED n)).toNat = min (2 ^ 32 - 1) ((s.rd (SEQ_DROPPED n)).toNat + 1) ∧
      t.bit (CH_INT_STAT n) fCH_INT_STAT_UNDERRUN = true ∧ s.chansOnly t [n]) ∧
    (g.code = 0 → waits = true → ∃ t, exec (.trackStartTick n) s = .next t ∧
      t.trState n = trWaiting ∧ (t.trk n).play = some p ∧ (t.trk n).startPend = none ∧ s.chFrame t n [SEQ_STAT n])) ∧
  (∀ (n : Ch) (s : State), (s.stopsNext n = true ∨ s.queuedSeg n (s.trk n) (s.trk n).startIdx = none) →
    exec (.trackStartTick n) s = .next s) ∧
  (∀ (n : Ch) (c : Choice) (p : Play) (s : State), (s.trk n).choice = some c → (s.trk n).play = some p → s.stopsNext n = false →
    (∀ d ∈ s.dma.map (·.1), d < 32) → ∃ t, exec (.segmentEnd n) s = .next t ∧ s.chansOnly t [n] ∧
      (c.seg = none → t.trState n = trHeld ∧ (t.trk n).play = none ∧ t.bit (SEQ_STAT n) fSEQ_STAT_DONE = true ∧
        t.bit (CH_INT_STAT n) fCH_INT_STAT_SEQ_END = true) ∧
      (∀ g q, c.seg = some g → c.play = some q → (q.seg.wait = false ∨ atOrAfter s.nextStamp q.start = true) →
        (c.underrun = false → (s.trk n).lost = false → t.trState n = trPlaying ∧ (t.trk n).play = some { q with began := true } ∧
          t.rd64 (SEQ_SEG_STAMP_LO n) = s.nextStamp ∧ t.rd (SEQ_SEGS n) = s.rd (SEQ_SEGS n) + 1 ∧
          t.fld (SEQ_CREDIT n) fSEQ_CREDIT_CREDIT =
            s.fld (SEQ_CREDIT n) fSEQ_CREDIT_CREDIT - ((s.trk n).inRing q.seg.idx).toNat) ∧
        (((c.underrun = true ∧ (s.trk n).resumeAt = none) ∨ (s.trk n).lost = true) → t.trState n = trUnderrun ∧
          (t.trk n).play = some { q with began := true } ∧ t.bit (SEQ_STAT n) fSEQ_STAT_UNDERRUN = true ∧
          (s.bit (SEQ_STAT n) fSEQ_STAT_UNDERRUN = false → t.rd64 (SEQ_UR_STAMP_LO n) = s.nextStamp) ∧
          (t.rd (CLU_SEQ_UR (n / 32))).getLsbD (n % 32) = true ∧
          (t.rd (SEQ_DROPPED n)).toNat = min (2 ^ 32 - 1) ((s.rd (SEQ_DROPPED n)).toNat + 1) ∧
          t.bit (CH_INT_STAT n) fCH_INT_STAT_UNDERRUN = true)) ∧
      (∀ g q, c.seg = some g → c.play = some q → q.seg.wait = true → atOrAfter s.nextStamp q.start = false →
        t.trState n = (if s.trState n = trUnderrun then trUnderrun else trWaiting) ∧ (t.trk n).play = some q ∧
        t.rd (SEQ_SEGS n) = s.rd (SEQ_SEGS n)) ∧
      (∀ g, c.seg = some g → c.play = none → t.trState n = trFault ∧ t.fld (SEQ_ERR n) fSEQ_ERR_INDEX = g.idx % 4096) ∧
      (s.trState n = trUnderrun → (s.trk n).creditFrom.isSome = true → (t.trk n).creditFrom = none) ∧
      t.fld (SEQ_CREDIT n) fSEQ_CREDIT_OWED = (if s.trState n = trUnderrun ∧ (s.trk n).creditFrom = none ∧
          (s.trk n).inRing p.seg.idx = true ∧ (s.trk n).paid = false
        then (s.fld (SEQ_CREDIT n) fSEQ_CREDIT_OWED + 1) % 2 ^ fSEQ_CREDIT_OWED.width else s.fld (SEQ_CREDIT n) fSEQ_CREDIT_OWED) ∧
      (t.trk n).ownRec = (s.trk n).ownRecNew ∧ (t.trk n).hostRecs = (s.trk n).hostRecsNew ∧ (t.trk n).hostRecsNew = [] ∧
      ((∃ r, (s.trk n).ownRec = some r ∧ p.i ≤ r) → t.bit (SEQ_STAT n) fSEQ_STAT_LATE_JUMP = true) ∧
      t.loopCtr n p.seg.loopCtr = (if c.order = 4 then (s.loopCtr n p.seg.loopCtr + 1) % 65536
        else if c.order = 3 ∨ c.order = 5 then 0 else s.loopCtr n p.seg.loopCtr) ∧
      (∀ r, r < 64 → t.fld (DMA_REQ_TOK r) fDMA_REQ_TOK_TOKENS =
        (if (s.trk n).inRing p.seg.idx = true ∧ s.rd (DMA_REQ_CFG r) ≠ 0 ∧ s.fld (DMA_REQ_CFG r) fDMA_REQ_CFG_KIND = 3 ∧
            s.fld (DMA_REQ_CFG r) fDMA_REQ_CFG_INDEX = n.val
          then min 65535 (s.fld (DMA_REQ_TOK r) fDMA_REQ_TOK_TOKENS + p.seg.len / 64) else s.fld (DMA_REQ_TOK r) fDMA_REQ_TOK_TOKENS))) ∧
  (∀ (n : Ch) (s : State), ((s.trk n).choice = none ∨ (s.trk n).play = none) → exec (.segmentEnd n) s = .next s) ∧
  (∀ (n : Ch) (p : Play) (s : State), (s.trk n).play = some p →
    let q := { beginPlay p.seg (s.tick + 1) s.nextStamp p.start (s.edgeFrac p.start) none with began := true }
    let starts := p.began = false ∧ atOrAfter s.nextStamp p.start = true ∧ s.stopsNext n = false ∧
      (s.trState n = trWaiting ∨ s.trState n = trUnderrun)
    let short := (s.trk n).inRing p.seg.idx && s.creditAt n (s.tick + 1) == 0
    (¬starts → exec (.segmentWaitStart n) s = .next s) ∧
    (starts → short = false → (s.trk n).lost = false →
      ∃ t, exec (.segmentWaitStart n) s = .next t ∧ t.trState n = trPlaying ∧ (t.trk n).play = some q ∧
      t.rd64 (SEQ_SEG_STAMP_LO n) = s.nextStamp ∧
      (t.trk n).trgEnd = (if p.seg.trg ∧ (s.trk n).trgEn then some (s.tick + 3) else (s.trk n).trgEnd) ∧
      t.later = s.later ++ (if s.heldBy n srcUnderrun then [(s.tick + 1, .hold n srcUnderrun false)] else []) ∧
      ({ s with later := t.later } : State).chFrame t n
        [SEQ_STAT n, SEQ_SEG_STAMP_LO n, SEQ_SEG_STAMP_HI n, SEQ_SEGS n, SEQ_POS n, SEQ_SAMPLE n, SEQ_CREDIT n]) ∧
    (starts → ((short = true ∧ (s.trk n).resumeAt = none) ∨ (s.trk n).lost = true) →
      ∃ t, exec (.segmentWaitStart n) s = .next t ∧ t.trState n = trUnderrun ∧ (t.trk n).play = some q ∧
      t.bit (SEQ_STAT n) fSEQ_STAT_UNDERRUN = true ∧ t.bit (CH_INT_STAT n) fCH_INT_STAT_UNDERRUN = true ∧ s.chansOnly t [n])) ∧
  (∀ (n : Ch) (g : Nat) (s : State), s.trState n = trUnderrun → (s.trk n).resumeAt = some (s.tick + 1, g) → s.stopsNext n = false →
    ∃ t, exec (.underrunResume n) s = .next t ∧ t.chan n = { s.chan n with trk := { s.trk n with resumeAt := none, paid := true } } ∧
      t.rd (SEQ_STAT n) = fSEQ_STAT_STATE.put (s.rd (SEQ_STAT n)) trPlaying ∧
      t.later = s.later ++ (if s.heldBy n srcUnderrun then [(s.tick + 1, .hold n srcUnderrun false)] else []) ∧
      ({ s with later := t.later } : State).chFrame t n [SEQ_STAT n]) ∧
  (∀ (n : Ch) (h : HostJump) (p : Play) (q : Seg) (s : State), (s.trk n).hostReq = some h → (s.trk n).play = some p →
    h.notBefore ≤ s.tick → (∀ x, h.stamp = some x → atOrAfter s.now x = true) → s.queuedSeg n (s.trk n) h.target = some q →
    ∃ t, exec (.stagingComplete n) s = .next t ∧
      (t.trk n).hostReq = none ∧
      (t.trk n).queued = (if (s.trk n).queued.any (fun x => x.idx == h.target) then (s.trk n).queued else q :: (s.trk n).queued) ∧
      ((s.trk n).choice = none → (t.trk n).hostRecsNew = (s.trk n).hostRecsNew ∧
        (t.trk n).hostRecs = (s.trk n).hostRecs ++ [(h.target, if s.trState n = trWaiting then 0 else p.i)]) ∧
      ((s.trk n).choice ≠ none → (t.trk n).hostRecs = (s.trk n).hostRecs ∧
        (t.trk n).hostRecsNew = (s.trk n).hostRecsNew ++ [(h.target, 0)]) ∧
      t.chan n = { s.chan n with trk := { s.trk n with
        hostReq := none, queued := (t.trk n).queued, hostRecs := (t.trk n).hostRecs, hostRecsNew := (t.trk n).hostRecsNew } } ∧
      s.chFrame t n []) ∧
  (∀ (n : Ch) (s : State), (s.trk n).trgEnd = some (s.tick + 1) → ∃ t, exec (.trgPulseEnd n) s = .next t ∧
    t.chan n = { s.chan n with trk := { s.trk n with trgEnd := none } } ∧ s.chFrame t n []) ∧
  (∀ (n : Ch) (p : Play) (s : State), s.trState n = trPlaying → (s.trk n).play = some p → (s.trk n).stopAt ≠ some (s.tick + 1) →
    s.seqUp n = true →
    let g := p.seg
    let t := s.trackCompute n
    let interp := g.kind = 0 ∧ g.interp = true
    let target := if g.ratePhase then (s.nextStamp + 2 ^ 64 - p.start) % 2 ^ 64 * g.c / 2 ^ 16 - p.lost else p.pos + g.c * 2 ^ 16
    let pos := min target (p.pos + 2 ^ 32)
    let ends := if interp then g.len * 2 ^ 32 ≤ pos else g.len ≤ p.i + 1
    let word (j : Int) : Int := signed 32 (s.seqMem.readLE (g.a + 4 * (clampI 0 (g.len - 1) j).toNat) 4)
    let x : Int := (pos / 2 ^ 32 : Nat)
    let at_ : Nat := if interp then min (pos / 2 ^ 32) (g.len - 1) else p.i + 1
    let nibble := (s.seqMem.read (g.b + at_ / 2)).toNat / 16 ^ (at_ % 2) % 16
    (¬ends → (t.trk n).has = true ∧ (t.trk n).choice = none ∧
      (t.trk n).play = some (if interp then { p with pos, lost := p.lost + (target - pos), i := p.i + 1 } else { p with i := p.i + 1 }) ∧
      t.fld (SEQ_SAMPLE n) fSEQ_SAMPLE_INDEX = (p.i + 1) % 2 ^ fSEQ_SAMPLE_INDEX.width ∧
      (interp → pos < target → t.bit (SEQ_STAT n) fSEQ_STAT_RATE_CLAMP = true) ∧
      (g.kind = 1 → (t.trk n).val = sat32 (signed 32 g.a)) ∧
      (g.kind = 2 → (t.trk n).val = sat32 (signed 32 g.a + signed 32 g.b * (p.i + 1))) ∧
      (g.kind = 3 → (t.trk n).val = sat32 (signed 32 g.a + sineTimes (signed 32 g.b) ((g.c * s.nextStamp + p.ph0) % 2 ^ 48))) ∧
      ((s.trk n).staged = [] → g.head = none → g.kind = 0 → (t.trk n).val = sat32 (if g.interp
          then interpolate (pos % 2 ^ 32 / 2 ^ 26) (word (x - 1)) (word x) (word (x + 1)) (word (x + 2)) else word (p.i + 1))) ∧
      ((g.kind ≠ 0 ∨ g.mkrEn = false) → (t.trk n).marks = g.mkrConst) ∧
      ((s.trk n).staged = [] → g.head = none → g.kind = 0 → g.mkrEn = true → (t.trk n).marks = nibble)) ∧
    (∀ c, ends → s.makeChoice n p (s.tick + 1) s.nextStamp = some c → (t.trk n).play = some p ∧ (t.trk n).choice = some c)) ∧
  (∀ (v a b c d : Int) (k : Nat), interpolate 0 a b c d = b ∧ interpolate k v v v v = v) ∧
  (∀ (g : Seg) (p : Play) (t0 stamp start : Nat), let q := beginPlay g t0 stamp start 0 (some p)
    (g.kind = 3 → p.seg.kind = 3 → g.cont = true → tonePhase g.c q.ph0 stamp = tonePhase p.seg.c p.ph0 stamp) ∧
    (g.kind = 0 → g.interp = true → g.ratePhase = false → g.wait = false → p.seg.kind = 0 → p.seg.interp = true →
      p.seg.ratePhase = false → q.pos = p.pos + p.seg.c * 2 ^ 16 - p.seg.len * 2 ^ 32)) ∧
  (∀ (g : Seg) (stamp : Nat), g.d < 2 ^ 32 → g.skip < 256 → stamp < 2 ^ 64 →
    waitPoint g stamp % 2 ^ 32 = g.d ∧ waitPoint g stamp < 2 ^ 64 ∧ atOrAfter (waitPoint g stamp) stamp = true)

/-- The commands of an event-lane group (R256, R257, R258): ARM of a STOPPED or DONE group in IDLE or RUN takes its live mode, base, length
and cycle, READY stages block 0 where sequence memory serves it (a plane with an uncorrectable error reads as 0 and is reported as one of its memory,
R387), START fixes the first cycle, the next one or the one
named, where that is not past; the first STOP acts at tick k+2; FILL adds block credits up to the length, owed blocks first in under-run.
It states where these commands complete, and in what: evlArm, evlReady, evlStart, evlStop, evlFill. -/
def Obligations.EventLaneCommands : Prop :=
  (∀ (x : Elg) (s : State), s.tileUp (x / 8) = true →
    let len := s.fld (EVL_GRP_LEN (x / 2) (x % 2)) fEVL_GRP_LEN_LEN
    let ok := 2 ≤ s.pwr (x / 2) ∧ (s.grpState x = grStopped ∨ s.grpState x = grDone) ∧ len ≠ 0
    (ok → ∃ t, exec (.evlArm x) s = .next t ∧ t.grp x = { s.grp x with
        mode := s.lfld (EVL_GRP_CTL (x / 2) (x % 2)) fEVL_GRP_CTL_MODE % 3
        base := (s.rd (EVL_GRP_BASE (x / 2) (x % 2))).toNat / 1024 * 1024, len
        atCyc := (s.rd (EVL_GRP_AT (x / 2) (x % 2))).toNat, planes := [], ready := false, c0 := none, fixed := none, v := 0, stopAt := none } ∧
      t.rd (grpStat x) = fEVL_GRP_STAT_STATE.put (s.rd (grpStat x)) grArming ∧ s.regsOnly t [grpStat x] ∧
      (∀ y : Nat, y ≠ x → t.grp y = s.grp y) ∧ t = { s with regs := t.regs, grps := t.grps }) ∧
    (¬ok → ∃ t, exec (.evlArm x) s = .next t ∧ t.rd (grpStat x) = fEVL_GRP_STAT_REFUSED.put (s.rd (grpStat x)) 1 ∧
      s.regsOnly t [grpStat x] ∧ s.onlyRegs t)) ∧
  (∀ (x : Elg) (ue : List PlaneUe) (s : State), s.grpState x = grArming → s.memUp (x / 8) = true →
    let bad := ue.filter (fun p => p.plane < 16)
    ∃ t, exec (.evlReady x ue) s = .next t ∧
    t.grp x = { s.grp x with ready := true, lost := false, planes := (List.range 16).map (fun p => if ue.any (fun q => q.plane == p) then 0
      else s.seqMem.readLE ((s.grp x).base + 64 * p) 64) } ∧ t.grpState x = grReady ∧
    (bad ≠ [] → t.bit (grpStat x) fEVL_GRP_STAT_ECC = true ∧ t.newest 2 13 (grpStat x) (x / 2) 0 ∧
      t.bit HUB_ECC_STAT fHUB_ECC_STAT_UE = true ∧ (bad.all (fun p => !p.staged) = true → t.fld HUB_ECC_STAT fHUB_ECC_STAT_MEM = 5) ∧
      (bad.all (fun p => p.staged) = true → t.fld HUB_ECC_STAT fHUB_ECC_STAT_MEM = 3) ∧
      (t.rd HUB_ECC_UE).toNat = min (2 ^ 32 - 1) ((s.rd HUB_ECC_UE).toNat + bad.length) ∧ (t.rd HUB_FAULT_STAT).getLsbD 13 = true ∧
      s.regsOnly t [grpStat x, HUB_ECC_STAT, HUB_ECC_ADDR, HUB_ECC_UE, HUB_FAULT_STAT, HUB_INT_STAT, MBX_EVT_STAT] ∧
      ({ s with grps := t.grps, faultTick := some s.tick, freeCount := t.freeCount } : State).logged t) ∧
    (bad = [] → s.regsOnly t [grpStat x] ∧ t = { s with grps := t.grps, regs := t.regs }) ∧
    (∀ y : Nat, y ≠ x → t.grp y = s.grp y)) ∧
  (∀ (x : Elg) (ue : List PlaneUe) (s : State), (s.grpState x ≠ grArming ∨ s.memUp (x / 8) = false) →
    exec (.evlReady x ue) s = .next s) ∧
  (∀ (x : Elg) (at_ : Bool) (s : State), s.tileUp (x / 8) = true →
    let first := (s.nextStamp / 2 ^ 32 + 1) % 2 ^ 32
    let late := at_ && s.isLate ((s.grp x).atCyc * 2 ^ 32)
    let c := if at_ && !late then (s.grp x).atCyc else first
    (s.grpState x = grReady → 2 ≤ s.pwr (x / 2) → ∃ t, exec (.evlStart x at_) s = .next t ∧ (t.grp x).c0 = some c ∧ (t.grp x).v = 0 ∧
      t.rd (EVL_GRP_CYCLE0 (x / 2) (x % 2)) = BitVec.ofNat 32 c ∧ t.grpState x = grReady ∧
      (late = true → t.bit (grpStat x) fEVL_GRP_STAT_LATE = true) ∧
      s.regsOnly t [grpStat x, EVL_GRP_CYCLE0 (x / 2) (x % 2)] ∧ (∀ y : Nat, y ≠ x → t.grp y = s.grp y) ∧
      t = { s with regs := t.regs, grps := t.grps }) ∧
    ((s.grpState x ≠ grReady ∨ s.pwr (x / 2) < 2) → ∃ t, exec (.evlStart x at_) s = .next t ∧
      t.rd (grpStat x) = fEVL_GRP_STAT_REFUSED.put (s.rd (grpStat x)) 1 ∧ s.regsOnly t [grpStat x] ∧ s.onlyRegs t)) ∧
  (∀ (x : Elg) (s : State), s.tileUp (x / 8) = true →
    ((s.grpState x = grStopped ∨ (s.grp x).stopAt ≠ none) → exec (.evlStop x) s = .next s) ∧
    (s.grpState x ≠ grStopped → (s.grp x).stopAt = none → ∃ t, exec (.evlStop x) s = .next t ∧ t.grp x = { s.grp x with stopAt := some (s.tick + 2) } ∧
      t.later = s.later ++ [(s.tick + 2, .evlStop x)] ∧ (∀ y : Nat, y ≠ x → t.grp y = s.grp y) ∧
      t = { s with grps := t.grps, later := t.later })) ∧
  (∀ (x : Elg) (add : Nat) (s : State), s.tileUp (x / 8) = true →
    let a := EVL_GRP_CREDIT (x / 2) (x % 2)
    let idle := s.grpState x == grStopped || s.grpState x == grDone
    let mode := if idle then s.lfld (EVL_GRP_CTL (x / 2) (x % 2)) fEVL_GRP_CTL_MODE else (s.grp x).mode
    let len := if idle then s.fld (EVL_GRP_LEN (x / 2) (x % 2)) fEVL_GRP_LEN_LEN else (s.grp x).len
    let pay := if s.grpState x = grUnderrun then min (add % 2 ^ 16) (s.fld a fEVL_GRP_CREDIT_OWED) else 0
    let sum := s.fld a fEVL_GRP_CREDIT_CREDIT + (add % 2 ^ 16 - pay)
    (mode ≠ 2 → exec (.evlFill x add) s = .next s) ∧
    (mode = 2 → ∃ t, exec (.evlFill x add) s = .next t ∧ t.fld a fEVL_GRP_CREDIT_CREDIT = min len sum % 2 ^ 16 ∧
      t.fld a fEVL_GRP_CREDIT_OWED = s.fld a fEVL_GRP_CREDIT_OWED - pay ∧
      t.rd (grpStat x) = (if len < sum then fEVL_GRP_STAT_FILL_OVER.put (s.rd (grpStat x)) 1 else s.rd (grpStat x)) ∧
      s.regsOnly t [a, grpStat x] ∧ (∀ y : Nat, y ≠ x → t.grp y = s.grp y) ∧ t = { s with regs := t.regs, grps := t.grps }))

/-- The events of event lanes (R252, R257 to R263): at a cycle boundary a READY group whose first cycle it is plays, a one-shot group past
its last vector is DONE, a stream without a credit at a block's start is in under-run, lanes' waits that began before end, and a boundary
is taken once; a due edge sets the level of a lane that plays, a strobe presents a condition where the level at that core clock cycle is the one sought, a WINDOW where a change came within it; every change of a ball is kept with its cycle
to the end of its period; an input's selected edge captures the stamp of its cycle.
It states where these commands complete, and in what: evlCycleBoundary, evlEdge, evlInputEdge. -/
def Obligations.EventLaneEvents : Prop :=
  (∀ (x : Elg) (ue : List PlaneUe) (s : State), (∀ d ∈ s.dma.map (·.1), d < 32) →
    let c := s.nextStamp / 2 ^ 32 % 2 ^ 32
    let v := (s.grp x).v + (c + 2 ^ 32 - (s.grp x).cyc) % 2 ^ 32
    (c = s.now / 2 ^ 32 % 2 ^ 32 ∨ s.boundaryTaken x c = true → exec (.evlCycleBoundary x ue) s = .next s) ∧
    (c ≠ s.now / 2 ^ 32 % 2 ^ 32 → s.boundaryTaken x c = false →
      (∃ t, exec (.evlCycleBoundary x ue) s = .next t ∧
        ∀ l ∈ grpLanes x, (t.lane l).swapWait = (s.lane l).swapWait.filter (s.tick < ·)) ∧
      ((s.grp x).c0 = none → ∃ t, exec (.evlCycleBoundary x ue) s = .next t ∧ t = { s with lanes := t.lanes } ∧
        (∀ l ∈ grpLanes x, (t.lane l).safeWait =
          if s.ownerHeld l then (s.lane l).safeWait else (s.lane l).safeWait.filter (s.tick ≤ ·)) ∧
        (∀ l ∈ grpLanes x, (t.lane l).edges = if s.waitEnds l then [] else (s.lane l).edges) ∧
        ∀ l, l ∉ grpLanes x → t.lane l = s.lane l) ∧
      (∀ f, s.grpState x = grReady → (s.grp x).c0 = some c → (s.grp x).mode ≠ 2 → (s.grp x).len ≠ 0 → (s.grp x).lost = false →
        (s.grp x).fixed = some f → f.cycle = c →
        ∃ t, exec (.evlCycleBoundary x ue) s = .next t ∧ t.grpState x = grPlaying ∧ (t.grp x).v = 0 ∧ (t.grp x).cyc = c ∧
        t.fld (EVL_GRP_POS (x / 2) (x % 2)) fEVL_GRP_POS_VECTOR = 0 ∧ t.fld (grpStat x) fEVL_GRP_STAT_TS_NOW = bits f.vec 8 3) ∧
      (∀ c0, s.grpState x = grPlaying → (s.grp x).c0 = some c0 → (s.grp x).mode = 0 → 512 * (s.grp x).len ≤ v →
        ∃ t, exec (.evlCycleBoundary x ue) s = .next t ∧ t.grpState x = grDone ∧ t.bit (grpStat x) fEVL_GRP_STAT_DONE = true ∧
        (t.grp x).c0 = none ∧ (c = ((s.grp x).cyc + 1) % 2 ^ 32 → s.regsOnly t [grpStat x]) ∧ ∀ l ∈ grpLanes x, (t.lane l).edges = []) ∧
      (∀ c0, s.grpState x = grPlaying → (s.grp x).c0 = some c0 → (s.grp x).mode = 2 → c = ((s.grp x).cyc + 1) % 2 ^ 32 →
        (s.grp x).v / 512 ≠ v / 512 →
        s.blockCreditAt x (s.tick + 1) = 0 → ∃ t, exec (.evlCycleBoundary x ue) s = .next t ∧ t.grpState x = grUnderrun ∧
        t.bit (grpStat x) fEVL_GRP_STAT_UNDERRUN = true ∧ (s.bit (grpStat x) fEVL_GRP_STAT_UNDERRUN = false →
          t.rd (EVL_GRP_UR_CYCLE (x / 2) (x % 2)) = BitVec.ofNat 32 c) ∧
        t.fld (EVL_GRP_CREDIT (x / 2) (x % 2)) fEVL_GRP_CREDIT_OWED =
          min 65535 (s.fld (EVL_GRP_CREDIT (x / 2) (x % 2)) fEVL_GRP_CREDIT_OWED + 1)))) ∧
  (∀ (l : Lane) (second : Bool) (e : LaneEdge) (s : State),
    (s.lane l).edges.find? (fun e => e.second == second && atOrAfter s.nextStamp (e.stamp % 2 ^ 64)) = some e →
    s.lanePlays l = true → (∀ m, (s.grp (l / 4)).stopAt = some m → s.tick + 1 < m) →
    let cyc := 400 * s.tick + s.edgeCycle (e.stamp % 2 ^ 64)
    let rest := (s.lane l).edges.erase e
    let lvl := s.evlLevelAt l cyc != s.laneCtl l fEVL_LANE_CTL_INV
    ∃ t, exec (.evlEdge l second) s = .next t ∧ (∀ m : Nat, m ≠ l → t.lane m = s.lane m) ∧
      s.regsOnly t [EVL_LANE_STAT (l / 8) (l % 8)] ∧ t = { s with regs := t.regs, lanes := t.lanes } ∧
      (∀ b, e.kind = .level b → b = (s.lane l).level → t.lane l = { s.lane l with edges := rest }) ∧
      (∀ b, e.kind = .level b → b ≠ (s.lane l).level → t.lane l = { s.lane l with edges := rest, level := b, last := some cyc } ∧
        ((s.lane l).last = some cyc → t.bit (EVL_LANE_STAT (l / 8) (l % 8)) fEVL_LANE_STAT_COLLAPSED = true)) ∧
      (∀ b, e.kind = .strobe b → (lvl = b → (t.lane l).condAt = some (s.tick + 1) ∧
          t.bit (EVL_LANE_STAT (l / 8) (l % 8)) fEVL_LANE_STAT_COND_SEEN = true) ∧
        (lvl ≠ b → t.lane l = { s.lane l with edges := rest })) ∧
      (e.kind = .watchOn → (t.lane l).watch = some cyc ∧ (t.lane l).seen = ((s.lane l).ins.find? (fun y => cyc ≤ y.1)).map (·.1)) ∧
      (e.kind = .watchOff → (t.lane l).watch = none ∧ (t.lane l).seen = none ∧
        (t.lane l).condAt = (if (s.lane l).watch.isSome ∧ (s.lane l).seen.any (· ≤ cyc) = true then some (s.tick + 1)
          else (s.lane l).condAt))) ∧
  (∀ (l : Lane) (second : Bool) (s : State),
    (s.lane l).edges.find? (fun e => e.second == second && atOrAfter s.nextStamp (e.stamp % 2 ^ 64)) = none →
    exec (.evlEdge l second) s = .next s) ∧
  (∀ (l : Lane) (second : Bool) (e : LaneEdge) (s : State),
    (s.lane l).edges.find? (fun e => e.second == second && atOrAfter s.nextStamp (e.stamp % 2 ^ 64)) = some e →
    (s.lanePlays l = false ∨ ∃ m, (s.grp (l / 4)).stopAt = some m ∧ m ≤ s.tick + 1) → ∃ t, exec (.evlEdge l second) s = .next t ∧
      t.lane l = { s.lane l with edges := (s.lane l).edges.erase e } ∧ (∀ m : Nat, m ≠ l → t.lane m = s.lane m) ∧
      t = { s with lanes := t.lanes }) ∧
  (∀ (l : Lane) (rising : Bool) (cyc : Nat) (s : State), cyc < 400 →
    let a := EVL_LANE_STAT (l / 8) (l % 8)
    let live := s.laneOwned l = true ∧ s.laneInput l = true ∧ (s.lane l).swapWait = none ∧ s.pwr (l / 8) ≠ 0
    let sel := (s.lfld (EVL_LANE_CTL (l / 8) (l % 8)) fEVL_LANE_CTL_CAP_EDGE).testBit (if rising then 0 else 1)
    ∃ t, exec (.evlInputEdge l rising cyc) s = .next t ∧ t.laneIn = SMap.set false s.laneIn l rising ∧
      (t.lane l).ins = (s.lane l).ins.filter (fun y => 400 * s.tick ≤ y.1) ++ [(400 * s.tick + cyc, SMap.get false s.laneIn l)] ∧
      t.lane l = { s.lane l with ins := (t.lane l).ins, seen := (t.lane l).seen } ∧ (∀ m : Nat, m ≠ l → t.lane m = s.lane m) ∧
      (¬live → (t.lane l).seen = (s.lane l).seen ∧ t = { s with laneIn := t.laneIn, lanes := t.lanes }) ∧
      (live → (t.lane l).seen = (if (s.lane l).watch.isSome then (s.lane l).seen.or (some (400 * s.tick + cyc)) else (s.lane l).seen) ∧
        (sel = true → t.rd64 (EVL_LANE_CAP_LO (l / 8) (l % 8)) = stampOf ((s.phase.p + cyc * s.phase.delta / 400) % 2 ^ 96) ∧
          t.rd (EVL_LANE_CAP_CNT (l / 8) (l % 8)) = s.rd (EVL_LANE_CAP_CNT (l / 8) (l % 8)) + 1 ∧
          t.bit a fEVL_LANE_STAT_CAP_NEW = true ∧ (s.bit a fEVL_LANE_STAT_CAP_NEW = true → t.bit a fEVL_LANE_STAT_CAP_OVER = true)) ∧
        (sel = false → t.regs = s.regs)))

/-- The commands of a DMA channel (R277, R281, R282): START of a channel that does not run, with the bus not stopped, begins at instruction
0 with loop and code cleared, or stops with code PROG where the program is empty; ABORT stops a channel that runs, with the residue of its
MOVE, a burst in its buffer first going out (R277); RESUME goes on from a stop that allows it, or stops with code PROG where PROG_LEN has been made shorter; KICK counts. A START or
RESUME that is not allowed is refused.
It states where these commands complete, and in what: dmaStart, dmaAbort, dmaResume, dmaKick. -/
def Obligations.DmaCommands : Prop :=
  (∀ (d : Dma) (s : State),
    ((s.dmaActive d = true ∨ s.busStop = true) → ∃ t, exec (.dmaStart d) s = .next t ∧
      t.rd (DMA_CH_STAT d) = fDMA_CH_STAT_REFUSED.put (s.rd (DMA_CH_STAT d)) 1 ∧ s.regsOnly t [DMA_CH_STAT d] ∧ s.onlyRegs t) ∧
    (s.dmaActive d = false → s.busStop = false → 0 < s.fld (DMA_CH_PROG_LEN d) fDMA_CH_PROG_LEN_LEN → ∃ t,
      exec (.dmaStart d) s = .next t ∧ t.dmaState d = dmRunning ∧ t.dmaPc d = 0 ∧ t.fld (DMA_CH_STAT d) fDMA_CH_STAT_CODE = 0 ∧
      t.dmaCh d = {} ∧ s.regsOnly t [DMA_CH_STAT d, DMA_CH_LOOP d, DMA_CH_ITER d] ∧ t.rd (DMA_CH_LOOP d) = 0 ∧
      t.rd (DMA_CH_ITER d) = 0 ∧ (∀ e : Nat, e ≠ d → t.dmaCh e = s.dmaCh e) ∧ t = { s with regs := t.regs, dma := t.dma }) ∧
    (s.dmaActive d = false → s.busStop = false → s.fld (DMA_CH_PROG_LEN d) fDMA_CH_PROG_LEN_LEN = 0 → ∃ t,
      exec (.dmaStart d) s = .next t ∧ t.dmaState d = dmStopped ∧ t.fld (DMA_CH_STAT d) fDMA_CH_STAT_CODE = 0x1A ∧
      t.rd DMA_INT_STAT = (s.rd DMA_INT_STAT ||| BitVec.ofNat 32 (2 ^ d.val)))) ∧
  (∀ (d : Dma) (s : State), (s.dmaActive d = false → exec (.dmaAbort d) s = .next s) ∧
    (∀ m, s.dmaActive d = true → (s.dmaCh d).move = some m → m.buf ≠ [] → ∃ t, exec (.dmaAbort d) s = .next t ∧
      t.dmaCh d = { s.dmaCh d with move := some { m with abort := true } } ∧ (∀ e : Nat, e ≠ d → t.dmaCh e = s.dmaCh e) ∧
      t = { s with dma := t.dma }) ∧
    (s.dmaActive d = true → (∀ m, (s.dmaCh d).move = some m → m.buf = []) → ∃ t, exec (.dmaAbort d) s = .next t ∧
      s.dmaHalted t d 2 (s.dmaLeft d).1.1 ∧
      (t.dmaCh d).move = none ∧ (t.dmaCh d).wait = none ∧ (t.dmaCh d).loop = (s.dmaCh d).loop ∧
      ∀ e : Nat, e ≠ d → t.dmaCh e = s.dmaCh e)) ∧
  (∀ (d : Dma) (s : State),
    let ok := s.dmaState d = dmStopped ∧ s.fld (DMA_CH_STAT d) fDMA_CH_STAT_CODE ∉ [1, 2, 0x1A] ∧ s.busStop = false
    (ok → s.dmaPast d (s.dmaPc d) = false → ∃ t, exec (.dmaResume d) s = .next t ∧ t.dmaState d = dmRunning ∧ t.dmaPc d = s.dmaPc d ∧
      s.regsOnly t [DMA_CH_STAT d] ∧ s.onlyRegs t) ∧
    (ok → s.dmaPast d (s.dmaPc d) = true → ∃ t, exec (.dmaResume d) s = .next t ∧ s.dmaHalted t d 0x1A (s.dmaLeft d).1.1) ∧
    (¬ok → ∃ t, exec (.dmaResume d) s = .next t ∧
      t.rd (DMA_CH_STAT d) = fDMA_CH_STAT_REFUSED.put (s.rd (DMA_CH_STAT d)) 1 ∧ s.regsOnly t [DMA_CH_STAT d] ∧ s.onlyRegs t)) ∧
  (∀ (d : Dma) (s : State), ∃ t, exec (.dmaKick d) s = .next t ∧
    t.fld (DMA_CH_KICKS d) fDMA_CH_KICKS_KICKS = min 65535 (s.fld (DMA_CH_KICKS d) fDMA_CH_KICKS_KICKS + 1) ∧
    s.regsOnly t [DMA_CH_KICKS d] ∧ s.onlyRegs t)

/-- What a DMA channel's instructions do (R266, R268 to R274, R276, R279): a MOVE is checked, then moves its bytes burst by burst and
line by line, here from sequence memory to sequence memory with lines in order, interleaved or transposed (Table 13-5); a burst goes out in
beats of 32 bytes, and what a channel of a higher priority pre-empts stays in its buffer (R275); a MOVE without its token waits, one to or from the host stops
while the link is down, one that the arbitration passes over does not move, one from stacks that have failed is a bus error; loops count and jump; a WAIT waits for its event,
kick or stamp; a SIGNAL has its effect and goes on; END is DONE with its event counter; a bus error stops every channel that runs and is logged by its kind.
It states where these commands complete, and in what: dmaMove, dmaBurst, dmaBarrierDone, dmaLoop, dmaWaitSatisfied, dmaSignalEvent,
dmaSignalTrackFill, dmaSignalGroupFill, dmaSignalRingConsume, dmaEnd, dmaBusError, dmaWaitEvent, dmaWaitKick, dmaWaitStamp. -/
def Obligations.DmaExecutes : Prop :=
  (∀ (d : Dma) (s : State), s.dmaAt d 1 → let m := s.dmaMoveAt d
    (s.dmaCheck d m ≠ 0 → ∃ t, exec (.dmaMove d) s = .next t ∧ s.dmaHalted t d (s.dmaCheck d m) (if s.dmaPast d (s.dmaPc d) then 0 else m.len)) ∧
    (s.dmaCheck d m = 0 → (s.dmaCh d).skip / 64 < m.total → ∃ t, exec (.dmaMove d) s = .next t ∧
      t.dmaCh d = { s.dmaCh d with move := some { m with lines := (s.dmaCh d).skip / 64 }, skip := 0 } ∧
      (∀ e : Nat, e ≠ d → t.dmaCh e = s.dmaCh e) ∧
      (s.tokenWait m = false → t = { s with dma := t.dma }) ∧
      (s.tokenWait m = true → t.dmaState d = dmWaiting ∧ t.bit (DMA_CH_STAT d) fDMA_CH_STAT_TOKEN_WAIT = true ∧
        s.regsOnly t [DMA_CH_STAT d] ∧ t = { s with dma := t.dma, regs := t.regs })) ∧
    (s.dmaCheck d m = 0 → m.total ≤ (s.dmaCh d).skip / 64 → m.barrier = true → m.dsp ≠ 2 → ∃ t, exec (.dmaMove d) s = .next t ∧
      t.dmaState d = dmWaiting ∧ s.regsOnly t [DMA_CH_STAT d])) ∧
  (∀ (d : Dma) (ready beats : Nat) (host : List Byte) (m : MoveSt) (s : State), (s.dmaCh d).move = some m → s.dmaActive d = true →
    m.lines < m.total →
    let c := Instr.dmaBurst d ⟨ready, host, beats⟩
    let far := m.ssp = 2 ∨ m.dsp = 2
    (s.tokenWait m = true → ∃ t, exec c s = .next t ∧
      t.dmaState d = dmWaiting ∧ t.bit (DMA_CH_STAT d) fDMA_CH_STAT_TOKEN_WAIT = true ∧ s.regsOnly t [DMA_CH_STAT d] ∧ s.onlyRegs t) ∧
    (s.tokenWait m = false → far → s.host.linkUp = false → ∃ t, exec c s = .next t ∧ s.dmaHalted t d 4 (s.dmaLeft d).1.1) ∧
    (s.tokenWait m = false → ¬far → s.dmaGranted ready d = false → exec c s = .next s) ∧
    (s.tokenWait m = false → far → s.host.linkUp = true → (s.host.retraining = true ∨ s.host.cfg.busMaster = false ∨
      s.dmaGranted ready d = false) → exec c s = .next s) ∧
    (s.tokenWait m = false → m.dsp ≠ 2 → s.dmaGranted ready d = true → m.ssp = 0 → m.buf = [] → s.hub.stackBad = true →
      ∃ t, exec c s = .next t ∧ t.busStop = true ∧ t.fld DMA_ERR_INFO fDMA_ERR_INFO_KIND = 5 ∧ t.dmaState d = dmStopped ∧
      t.fld (DMA_CH_STAT d) fDMA_CH_STAT_CODE = 3)) ∧
  (∀ (d : Dma) (ready beats : Nat) (host : List Byte) (m : MoveSt) (s : State), (s.dmaCh d).move = some m → s.dmaActive d = true →
    m.lines < m.total → m.reqEn = false → m.ssp = 0 → m.dsp = 0 → m.shuf ≠ 2 → m.buf = [] → m.abort = false → s.hub.stackBad = false →
    s.dmaPc d + 1 < s.fld (DMA_CH_PROG_LEN d) fDMA_CH_PROG_LEN_LEN → s.dmaGranted ready d = true →
    let n := min 4 (m.total - m.lines)
    let k := min beats (2 * n)
    let at_ := m.dst + 64 * m.lines
    ∃ t, exec (.dmaBurst d ⟨ready, host, beats⟩) s = .next t ∧ t.hub.dmaTurn = s.hub.dmaTurn.set (s.dmaPrio d) d ∧
      (∀ b, b < 32 * k → t.seqMem.read (at_ + b) = (m.lineBytes s.seqMem.read (m.lines + b / 64)).getD (b % 64) 0) ∧
      (∀ a, (a < at_ ∨ at_ + 32 * k ≤ a) → t.seqMem.read a = s.seqMem.read a) ∧
      (k < 2 * n → t.dmaState d = dmRunning ∧ ∃ x, (t.dmaCh d).move = some x ∧ x.lines = m.lines + k / 2 ∧ x.buf.length = n - k / 2) ∧
      (k = 2 * n → m.lines + n < m.total → (t.dmaCh d).move = some { m with lines := m.lines + n, block := [] } ∧ t.dmaState d = dmRunning) ∧
      (k = 2 * n → m.lines + n = m.total → (m.barrier = true → t.dmaState d = dmWaiting ∧
        (t.dmaCh d).move = some { m with lines := m.lines + n, block := [] }) ∧ (m.barrier = false → s.dmaNext t d)) ∧
      s.regsOnly t [DMA_CH_STAT d] ∧ (∀ e : Nat, e ≠ d → t.dmaCh e = s.dmaCh e)) ∧
  (∀ (m : MoveSt) (rd : Nat → Byte) (l b : Nat), b < 64 → let x := (m.lineBytes rd l).getD b 0
    let e := (64 * l + b) / m.es
    let plane := l % 16
    let v := (64 * (l % 16) + b) / 2
    (m.shuf = 0 → x = rd (m.src + 64 * l + b)) ∧
    (m.shuf = 1 → x = rd (m.src + e % m.f * m.stride + e / m.f * m.es + (64 * l + b) % m.es)) ∧
    (m.shuf = 3 → ∀ i, i < 8 → x.getLsbD i = (rd (m.src + 1024 * (l / 16) + 2 * (8 * b + i) + plane / 8)).getLsbD (plane % 8)) ∧
    (m.shuf = 4 → ∀ i, i < 8 → x.getLsbD i =
      (rd (m.src + 1024 * (l / 16) + 64 * (8 * (b % 2) + i) + v / 8)).getLsbD (v % 8))) ∧
  (∀ (d : Dma) (m : MoveSt) (s : State), (s.dmaCh d).move = some m → s.dmaActive d = true → m.barrier = true → m.total ≤ m.lines →
    (s.dmaPc d + 1 < s.fld (DMA_CH_PROG_LEN d) fDMA_CH_PROG_LEN_LEN → (m.dsp ≠ 2 ∨ s.host.linkUp = true) →
      ∃ t, exec (.dmaBarrierDone d) s = .next t ∧ s.dmaNext t d ∧ s.regsOnly t [DMA_CH_STAT d]) ∧
    (m.dsp = 2 → s.host.linkUp = false → ∃ t, exec (.dmaBarrierDone d) s = .next t ∧ s.dmaHalted t d 4 (s.dmaLeft d).1.1)) ∧
  (∀ (d : Dma) (s : State), s.dmaAt d 2 → s.dmaPc d < s.fld (DMA_CH_PROG_LEN d) fDMA_CH_PROG_LEN_LEN →
    let target := bits (s.dmaWord d 0) 4 12
    let count := s.dmaWord d 3
    let iter := ((s.rd (DMA_CH_ITER d)).toNat + 1) % 2 ^ 32
    (s.dmaPc d ≤ target → ∃ t, exec (.dmaLoop d) s = .next t ∧ s.dmaHalted t d 0x18 0) ∧
    (target < s.dmaPc d → (s.dmaCh d).loop = none → count ≠ 1 → ∃ t l, exec (.dmaLoop d) s = .next t ∧ t.dmaState d = dmRunning ∧
      t.dmaPc d = target ∧ (t.dmaCh d).loop = some l ∧ l.idx = s.dmaPc d ∧ l.target = target ∧ t.rd (DMA_CH_ITER d) = 1 ∧
      t.bit (DMA_CH_LOOP d) fDMA_CH_LOOP_ACTIVE = true ∧ s.regsOnly t [DMA_CH_STAT d, DMA_CH_LOOP d, DMA_CH_ITER d]) ∧
    (target < s.dmaPc d → (s.dmaCh d).loop = none → count = 1 → ∃ t, exec (.dmaLoop d) s = .next t ∧ (t.dmaCh d).loop = none ∧
      t.rd (DMA_CH_ITER d) = 0 ∧ t.bit (DMA_CH_LOOP d) fDMA_CH_LOOP_ACTIVE = false ∧ t.dmaPc d = (s.dmaPc d + 1) % 4096) ∧
    (∀ l, target < s.dmaPc d → (s.dmaCh d).loop = some l → l.idx ≠ s.dmaPc d → ∃ t, exec (.dmaLoop d) s = .next t ∧
      s.dmaHalted t d 0x19 0) ∧
    (∀ l, target < s.dmaPc d → (s.dmaCh d).loop = some l → l.idx = s.dmaPc d → ∃ t, exec (.dmaLoop d) s = .next t ∧
      ((count = 0 ∨ iter ≠ count) → t.rd (DMA_CH_ITER d) = BitVec.ofNat 32 iter ∧ t.dmaState d = dmRunning ∧ t.dmaPc d = target ∧ t.bit (DMA_CH_LOOP d) fDMA_CH_LOOP_ACTIVE = true) ∧
      (count ≠ 0 → iter = count → (t.dmaCh d).loop = none ∧ t.rd (DMA_CH_ITER d) = 0 ∧ t.bit (DMA_CH_LOOP d) fDMA_CH_LOOP_ACTIVE = false ∧
        t.dmaPc d = (s.dmaPc d + 1) % 4096))) ∧
  (∀ (d : Dma) (k : Fin 3) (s : State), s.dmaAt d 3 → bits (s.dmaWord d 0) 4 2 = k → bits (s.dmaWord d 0) 6 2 = 0 →
    bits (s.dmaWord d 0) 14 18 = 0 → s.dmaWord d 3 = 0 →
    (k ≠ 2 → s.dmaWord d 1 = 0 ∧ s.dmaWord d 2 = 0) →
    let c := if k = 0 then Instr.dmaWaitEvent d else if k = 1 then .dmaWaitKick d else .dmaWaitStamp d
    ∃ t, exec c s = .next t ∧ t.dmaState d = dmWaiting ∧ (t.dmaCh d).wait = some (if k = 0 then .event (bits (s.dmaWord d 0) 8 6)
      else if k = 1 then .kick else .stamp (s.dmaWord d 1 + 2 ^ 32 * s.dmaWord d 2)) ∧ s.regsOnly t [DMA_CH_STAT d]) ∧
  (∀ (d : Dma) (w : WaitFor) (s : State), (s.dmaCh d).wait = some w →
    s.dmaPc d + 1 < s.fld (DMA_CH_PROG_LEN d) fDMA_CH_PROG_LEN_LEN →
    (∀ e, w = .event e → s.fld (DMA_EVT_CNT e) fDMA_EVT_CNT_COUNT ≠ 0 → (∀ x < d.val, (s.dmaCh x).wait ≠ some (.event e)) → e < 64 →
      ∃ t, exec (.dmaWaitSatisfied d) s = .next t ∧ s.dmaNext t d ∧
        t.fld (DMA_EVT_CNT e) fDMA_EVT_CNT_COUNT = s.fld (DMA_EVT_CNT e) fDMA_EVT_CNT_COUNT - 1 ∧
        s.regsOnly t [DMA_CH_STAT d, DMA_EVT_CNT e]) ∧
    (w = .kick → s.fld (DMA_CH_KICKS d) fDMA_CH_KICKS_KICKS ≠ 0 → ∃ t, exec (.dmaWaitSatisfied d) s = .next t ∧ s.dmaNext t d ∧
      t.fld (DMA_CH_KICKS d) fDMA_CH_KICKS_KICKS = s.fld (DMA_CH_KICKS d) fDMA_CH_KICKS_KICKS - 1) ∧
    (∀ x, w = .stamp x → atOrAfter s.now x = true → ∃ t, exec (.dmaWaitSatisfied d) s = .next t ∧ s.dmaNext t d ∧
      s.regsOnly t [DMA_CH_STAT d])) ∧
  (∀ (d : Dma) (s : State), s.dmaAt d 4 → bits (s.dmaWord d 0) 8 8 = 0 → bits (s.dmaWord d 0) 25 7 = 0 → s.dmaWord d 2 = 0 →
    s.dmaWord d 3 = 0 → s.dmaPc d + 1 < s.fld (DMA_CH_PROG_LEN d) fDMA_CH_PROG_LEN_LEN →
    let kind := bits (s.dmaWord d 0) 4 4
    let target := bits (s.dmaWord d 0) 16 9
    let v := max 1 (s.dmaWord d 1)
    (kind = 0 → target < 64 → ∃ t, exec (.dmaSignalEvent d) s = .next t ∧ s.dmaNext t d ∧
      t.fld (DMA_EVT_CNT target) fDMA_EVT_CNT_COUNT = min 65535 (s.fld (DMA_EVT_CNT target) fDMA_EVT_CNT_COUNT + v) ∧
      s.regsOnly t [DMA_CH_STAT d, DMA_EVT_CNT target]) ∧
    (∀ n : Ch, kind = 1 → target = n.val → s.tileUp (n / 128) = true → ∃ t u, exec (.dmaSignalTrackFill d) s = .next t ∧ s.dmaNext t d ∧
      exec (.trackFill n v) s = .next u ∧ t.chan n = u.chan n ∧ t.rd (SEQ_CREDIT n) = u.rd (SEQ_CREDIT n) ∧
      s.regsOnly t [DMA_CH_STAT d, SEQ_CREDIT n, SEQ_STAT n]) ∧
    (∀ x : Elg, kind = 2 → target = x.val → s.tileUp (x / 8) = true → v < 65536 → ∃ t u, exec (.dmaSignalGroupFill d) s = .next t ∧
      s.dmaNext t d ∧ exec (.evlFill x v) s = .next u ∧ t.grp x = u.grp x ∧
      t.rd (EVL_GRP_CREDIT (x / 2) (x % 2)) = u.rd (EVL_GRP_CREDIT (x / 2) (x % 2)) ∧
      s.regsOnly t [DMA_CH_STAT d, EVL_GRP_CREDIT (x / 2) (x % 2), grpStat x]) ∧
    (kind = 3 → s.tileUp (target / 128) = true → 64 ≤ (s.rd (APT_RING_LEN target)).toNat → ∃ t, exec (.dmaSignalRingConsume d) s = .next t ∧ s.dmaNext t d ∧
      t.rd (APT_RING_RD target) = BitVec.ofNat 32 (((s.rd (APT_RING_RD target)).toNat + v / 32 * 32) %
        ((s.rd (APT_RING_LEN target)).toNat / 64 * 64)) ∧ s.regsOnly t [DMA_CH_STAT d, APT_RING_RD target])) ∧
  (∀ (d : Dma) (s : State), s.dmaAt d 15 → bits (s.dmaWord d 0) 4 28 = 0 → s.dmaWord d 1 = 0 → s.dmaWord d 2 = 0 → s.dmaWord d 3 = 0 →
    ∃ t, exec (.dmaEnd d) s = .next t ∧ t.dmaState d = dmDone ∧ t.fld (DMA_CH_STAT d) fDMA_CH_STAT_CODE = 1 ∧
      t.rd (DMA_CH_RESIDUE d) = 0 ∧ t.fld (DMA_EVT_CNT (32 + d)) fDMA_EVT_CNT_COUNT =
        min 65535 (s.fld (DMA_EVT_CNT (32 + d)) fDMA_EVT_CNT_COUNT + 1) ∧
      s.regsOnly t [DMA_CH_STAT d, DMA_CH_RESIDUE d, DMA_CH_PART d, DMA_EVT_CNT (32 + d)] ∧ s.onlyRegs t) ∧
  (∀ (space : Fin 3) (kind addr : Nat) (s : State), kind < 8 → addr < 2 ^ 64 →
    ∃ t, exec (.dmaBusError space kind addr []) s = .next t ∧ t.busStop = true ∧ t.rd64 DMA_ERR_ADDR_LO = addr ∧
      t.fld DMA_ERR_INFO fDMA_ERR_INFO_SPACE = space ∧ t.fld DMA_ERR_INFO fDMA_ERR_INFO_KIND = kind ∧
      (∀ c, (kind, c) ∈ [(1, 0xF), (2, 0xF), (3, 7), (4, 9)] →
        (t.rd (PCI_ELOG ((t.fld PCI_ELOG_STAT fPCI_ELOG_STAT_NEXT + 63) % 64) 0)).toNat % 256 = c) ∧
      (kind = 5 → t.bit HUB_ECC_STAT fHUB_ECC_STAT_UE = true ∧ t.fld HUB_ECC_STAT fHUB_ECC_STAT_MEM = 5) ∧
      ∀ d : Dma, (s.dmaActive d = true → t.dmaState d = dmStopped ∧ t.fld (DMA_CH_STAT d) fDMA_CH_STAT_CODE = 3 ∧
          t.dmaPc d = s.dmaPc d ∧ (t.rd DMA_INT_STAT).getLsbD d = true) ∧
        (s.dmaActive d = false → t.dmaCh d = s.dmaCh d ∧ t.rd (DMA_CH_STAT d) = s.rd (DMA_CH_STAT d)))

/-- Reference sessions, window trims, ramps and permanent service (R286 to R289, R300 to R304): a session starts where none runs and the
references are given, aborts at once, and at a tile's end takes each cell's mean, accepted where the two halves, the old value and the
production value allow it; the six balls of the standards are in high impedance but for the current that the tile under measurement drives
between REFR_F and REFR_RF in the last four of each half's twelve readings; a trim borrows a powered window that nothing tests and takes its taps where they are plausible; a ramp steps once
in its period; a slice taken out of service is marked, logged and served by a free Welt slice, and restored by command,
a restore in its own lane's step only for a later step.
It states where these commands complete, and in what: calSessionStart, calSessionAbort, sessionTileDone, sliceTake, sliceRestore,
windowTrim, windowTrimEnd, correctionRampStep. -/
def Obligations.CalibrationSessions : Prop :=
  (∀ (tiles : Fin 16) (force : Bool) (s : State), tiles ≠ 0 →
    let free := s.inSession = false ∧ s.rd CAL_REFV ≠ 0 ∧ s.rd CAL_REFR ≠ 0 ∧ s.wtrim = none
    (free → ∃ t, exec (.calSessionStart tiles force) s = .next t ∧
      t.sess = { s.sess with tiles := tiles, force := force, quad := none, bad := false, any := false } ∧
      t.fld CAL_SESS_STAT fCAL_SESS_STAT_STATE = 1 ∧ s.regsOnly t [CAL_SESS_STAT] ∧ t = { s with regs := t.regs, sess := t.sess }) ∧
    (¬free → ∃ t, exec (.calSessionStart tiles force) s = .next t ∧
      t.rd CAL_SESS_STAT = fCAL_SESS_STAT_REFUSED.put (s.rd CAL_SESS_STAT) 1 ∧ s.regFrame t [CAL_SESS_STAT])) ∧
  (∀ (force : Bool) (s : State), exec (.calSessionStart 0 force) s = .next s) ∧
  (∀ s : State, (s.inSession = false → exec .calSessionAbort s = .next s) ∧
    (s.inSession = true → ∃ t, exec .calSessionAbort s = .next t ∧ t.sess.tiles = 0 ∧ t.sess.quad = none ∧
      t.inSession = false ∧ t.bit CAL_SESS_STAT fCAL_SESS_STAT_ABORTED = true ∧ (s.sess.any = true →
        t.fld CAL_SESS_INFO fCAL_SESS_INFO_GEN = (s.fld CAL_SESS_INFO fCAL_SESS_INFO_GEN + 1) % 65536 ∧
        t.fld CAL_SESS_INFO fCAL_SESS_INFO_AGE = 0 ∧ t.sess.cert = s.rd CAL_CERT ∧ t.sess.refv = s.rd CAL_REFV ∧
        t.sess.refr = s.rd CAL_REFR) ∧ (s.sess.any = false → t.rd CAL_SESS_INFO = s.rd CAL_SESS_INFO) ∧ s.regsOnly t [CAL_SESS_STAT, CAL_SESS_INFO])) ∧
  (∀ (a b : List Int) (s : State), (s.stepPos ≠ 0 ∨ s.sess.quad = none) → exec (.sessionTileDone a b) s = .next s) ∧
  (∀ (a b : List Int) (q : Nat) (s : State), s.stepPos = 0 → s.sess.quad = some q →
    let tile := s.fld CAL_SESS_STAT fCAL_SESS_STAT_TILE
    ∃ t, exec (.sessionTileDone a b) s = .next t ∧ t.sess.quad = none ∧
      (s.sess.tiles &&& (15 - 2 ^ tile) = 0 → t.sess.tiles = 0 ∧ t.inSession = false ∧
        t.bit CAL_SESS_STAT fCAL_SESS_STAT_DONE = true) ∧
      (s.sess.tiles &&& (15 - 2 ^ tile) ≠ 0 → t.sess.tiles = s.sess.tiles &&& (15 - 2 ^ tile)) ∧
      (s.sess.bad = true → s.regsOnly t [CAL_SESS_STAT, CAL_SESS_INFO]) ∧
      (s.sess.bad = false → ∀ (k : Nat) (x y : Rat), k < 4 →
        halfCell (s.rd CAL_REFV).toNat (s.rd CAL_REFR).toNat a k = some x →
        halfCell (s.rd CAL_REFV).toNat (s.rd CAL_REFR).toNat b k = some y →
        let m := wordOf (roundQ ((x + y) / 2))
        let ok := [a.getD 0 0, a.getD 7 0, b.getD 0 0, b.getD 7 0].all refvOk &&
          cellOk s.sess.force k x y (s.rd (TILE_CELL tile k)) (Config.prodCell (4 * tile + k))
        t.rd (TILE_CELL_MEAS tile k) = m ∧ t.rd (TILE_CELL tile k) = (if ok then m else s.rd (TILE_CELL tile k)) ∧
        (t.rd (TILE_CAL_STAT tile)).getLsbD k = ok ∧
        (ok = true → t.bit (TILE_CAL_STAT tile) fTILE_CAL_STAT_PROD = false ∧ ∀ r ∈ t.ramps, r.addr ≠ TILE_CELL tile k) ∧
        (ok = false → (t.rd (TILE_CAL_STAT tile)).getLsbD (4 + k) = true ∧ t.bit CAL_SESS_STAT fCAL_SESS_STAT_REJECT = true))) ∧
  (∀ s : State, match s.sessionReading with
    | some r => s.stdBall .refvP = none ∧ s.stdBall .refvN = none ∧ s.stdBall .refrS = none ∧ s.stdBall .refrRs = none ∧
        let tile := s.fld CAL_SESS_STAT fCAL_SESS_STAT_TILE
        s.stdBall .refrF = (if r % 12 < 8 then none else some (tile, decide (r % 12 = 8 ∨ r % 12 = 11))) ∧
        s.stdBall .refrRf = (if r % 12 < 8 then none else some (tile, decide (r % 12 = 9 ∨ r % 12 = 10)))
    | none => ∀ b : StdBall, s.stdBall b = none) ∧
  (∀ (n : Ch) (v c : Bool) (s : State),
    let free := s.pwr (n / 32) ≠ 0 ∧ s.inTest n .v = false ∧ s.inTest n .i = false ∧ s.inSession = false ∧ s.wtrim = none
    (¬free → ∃ t, exec (.windowTrim n v c) s = .next t ∧
      t.rd CAL_WTRIM_STAT = fCAL_WTRIM_STAT_REFUSED.put (s.rd CAL_WTRIM_STAT) 1 ∧ s.regFrame t [CAL_WTRIM_STAT]) ∧
    (free → v = false → c = false → exec (.windowTrim n v c) s = .next s) ∧
    (free → (v = true ∨ c = true) → let w := if v then 0 else 1
      ∃ t, exec (.windowTrim n v c) s = .next t ∧ t.wtrim = some ⟨n, w, s.tick + 2, v && c⟩ ∧
      t.rd CAL_WTRIM_STAT = fCAL_WTRIM_STAT_BUSY.put (s.rd CAL_WTRIM_STAT) 1 ∧ t.later = s.later ++ [(s.tick + 2, .trim n w)] ∧
      s.regsOnly t [CAL_WTRIM_STAT] ∧ t = { s with regs := t.regs, wtrim := t.wtrim, later := t.later })) ∧
  (∀ (m : TrimMeas) (x : WTrimSt) (s : State), s.wtrim = some x → s.tick + 1 = x.start + 256 → x.win < 2 → x.ch < 512 →
    let lim : Int × Int × Int × Int := (4, 24, -32, 31)
    let good (hi : Bool) (v : Int × Int) : Bool :=
      s.tapOk lim (winTap x.ch x.win hi 0) v.1 && s.tapOk lim (winTap x.ch x.win hi 1) v.2
    ∃ t, exec (.windowTrimEnd m) s = .next t ∧
      (x.more = true → t.wtrim = some { x with win := 1, start := s.tick + 1, more := false }) ∧
      (x.more = false → t.wtrim = none ∧ t.bit CAL_WTRIM_STAT fCAL_WTRIM_STAT_BUSY = false ∧
        t.bit CAL_WTRIM_STAT fCAL_WTRIM_STAT_DONE = true) ∧
      (∀ hi : Bool, let v := if hi then m.hi else m.lo
        (good hi v = true → t.tap (winTap x.ch x.win hi 0) = v.1 ∧ t.tap (winTap x.ch x.win hi 1) = v.2 ∧
          let res := if hi then m.resHi else m.resLo
          t.fld (CAL_QUAL_WIN x.ch) ⟨16 * x.win + (if hi then 0 else 8), 8⟩ = (if 254 ≤ res then 255 else res)) ∧
        (good hi v = false → t.tap (winTap x.ch x.win hi 0) = s.tap (winTap x.ch x.win hi 0) ∧
          t.bit CAL_WTRIM_STAT fCAL_WTRIM_STAT_REJECT = true))) ∧
  (∀ s : State, (∀ r ∈ s.ramps, s.tick + 1 < r.next) → exec .correctionRampStep s = .next s) ∧
  (∀ (r : Ramp) (s : State), s.ramps = [r] → r.next ≤ s.tick + 1 →
    let r' : Ramp := { r with k := r.k + 1, next := r.next + s.rampPeriod }
    let board := CAL_BOARD_GAIN 0 0 ≤ r.addr ∧ r.addr < CAL_BOARD_GAIN 512 0
    ∃ t, exec .correctionRampStep s = .next t ∧ t.ramps = (if r.k + 1 < 256 then [r'] else []) ∧
      (board → t.regs = s.regs) ∧ (¬board → t.rd r.addr = r'.word ∧ s.regsOnly t [r.addr]) ∧
      t = { s with regs := t.regs, ramps := t.ramps }) ∧
  (∀ (q : Quad) (kind lane : Fin 4) (s : State), s.tileUp (q / 32) = true →
    let sl := 3 * lane.val + kind.val
    (kind = 3 → exec (.sliceTake q kind lane) s = .next s ∧ exec (.sliceRestore q kind lane) s = .next s) ∧
    (kind ≠ 3 → (∃ t, exec (.sliceTake q kind lane) s = .next t ∧ t.sliceFailed q sl = true ∧
        t.rd (QUAD_SLICE_FAIL q) = (s.rd (QUAD_SLICE_FAIL q) ||| BitVec.ofNat 32 (2 ^ sl)) ∧
        (t.rd HUB_FAULT_STAT).getLsbD 11 = true ∧ t.newest 3 sl (QUAD_SLICE_FAIL q) q sl ∧
        (s.perm q kind = 4 → s.sliceFailed q (12 + kind) = false → t.perm q kind = lane.val) ∧
        (s.perm q kind = lane.val → t.perm q kind = lane.val ∧ (t.quadSt q).passed.testBit kind = false)) ∧
      (∃ t, exec (.sliceRestore q kind lane) s = .next t ∧ t.sliceFailed q sl = false ∧
        t.fld (QUAD_SL_QUAL q sl) fQUAD_SL_QUAL_FAILS = 0 ∧ (t.rd (QUAD_SLICE_FAIL q)).getLsbD sl = false ∧
        t.perm q kind = s.perm q kind ∧ t.quadSt q = { s.quadSt q with restored := (if s.tick / 4000000 % 4 = lane.val
          then (s.quadSt q).restored ||| 2 ^ kind.val else (s.quadSt q).restored) } ∧ (∀ y : Nat, y ≠ q → t.quadSt y = s.quadSt y) ∧
        s.regsOnly t [QUAD_SLICE_FAIL q, QUAD_SL_QUAL q sl] ∧ t = { s with regs := t.regs, quad := t.quad })))

/-- The rotation (R290 to R299): at a step boundary each quad rotates that ROT_EN, its WELT_EN and its power state allow, and PHASE shows
TAKEOVER; CAL, HANDBACK and WELT begin at their places in the step; at a decision a calibrated slice whose measurement passes takes gain
and offset, one that does not pass keeps its values, counts a failure and sets CAL_FAIL, and the third in a row, an end code or a bad weight
fails it (R302), which in a period of its calibration it does at once (R396). At any
other place these rows are no event. Where a clause names a list of quads it is that of the quads with state of their own.
It states where these commands complete, and in what: weltStepBoundary, weltCalStart, weltHandbackStart, weltPhaseStart, weltCalDecision,
weltPhaseDecision. -/
def Obligations.WeltRotation : Prop :=
  (∀ (r : List SliceMeas) (s : State), (s.stepPos ≠ 0 → exec .weltStepBoundary s = .next s) ∧
    (s.stepPos ≠ 256 → exec .weltCalStart s = .next s) ∧ (s.stepPos ≠ 3200000 → exec (.weltCalDecision r) s = .next s) ∧
    (s.stepPos ≠ 3200256 → exec .weltHandbackStart s = .next s) ∧ (s.stepPos ≠ 3200512 → exec .weltPhaseStart s = .next s) ∧
    (s.stepPos ≠ 3200512 + (if s.stepLane % 2 = 0 then 500000 else 299936) → exec (.weltPhaseDecision r) s = .next s)) ∧
  (∀ (qs : List Quad) (s : State), s.quad.map (·.1) = qs.map (·.val) → s.stepPos = 0 → s.inSession = false → s.sess.quad = none →
    ∃ t, exec .weltStepBoundary s = .next t ∧
    ∀ q, q < 128 → let rot := s.bit CAL_CTL fCAL_CTL_ROT_EN && s.weltEn q && s.biased (4 * q)
      (t.quadSt q).rotating = rot ∧ t.fld (QUAD_WELT_STAT q) fQUAD_WELT_STAT_PHASE = 0 ∧
      t.fld (QUAD_WELT_STAT q) fQUAD_WELT_STAT_LANE = s.stepLane ∧ t.bit (QUAD_WELT_STAT q) fQUAD_WELT_STAT_ACTIVE = rot) ∧
  (∀ (qs : List Quad) (s : State), s.quad.map (·.1) = qs.map (·.val) → s.stepPos = 256 → ∃ t, exec .weltCalStart s = .next t ∧
    (∀ q, q < 128 → t.fld (QUAD_WELT_STAT q) fQUAD_WELT_STAT_PHASE = 1) ∧
    (s.sess.quad.isSome = true → t.fld CAL_SESS_STAT fCAL_SESS_STAT_STATE = 2)) ∧
  (∀ (qs : List Quad) (s : State), s.quad.map (·.1) = qs.map (·.val) → s.stepPos = 3200256 → ∃ t, exec .weltHandbackStart s = .next t ∧
    (∀ q, q < 128 → t.fld (QUAD_WELT_STAT q) fQUAD_WELT_STAT_PHASE = 2)) ∧
  (∀ s : State, s.stepPos = 3200512 → ∃ t, exec .weltPhaseStart s = .next t ∧
    (∀ q, q < 128 → t.fld (QUAD_WELT_STAT q) fQUAD_WELT_STAT_PHASE = 3)) ∧
  (∀ (welt : Bool) (r : List SliceMeas) (q : Quad) (k : Fin 3) (m : SliceMeas) (s : State),
    (if welt then s.weltQuads else s.rotatingQuads) = [q.val] →
    let sl := if welt then 12 + k.val else 3 * s.stepLane + k.val
    let c := if welt then Instr.weltPhaseDecision r else .weltCalDecision r
    (if welt then s.stepPos = 3200512 + (if s.stepLane % 2 = 0 then 500000 else 299936) ∧ (k.val = 0 ↔ s.stepLane % 2 = 1) ∧
        s.kindRotates q k = true
      else s.stepPos = 3200000 ∧ ((s.quadSt q).kind k).serve = s.stepLane ∧ s.sliceFailed q sl = false ∧
        (s.quadSt q).restored.testBit k = false) →
    r.find? (fun x => x.quad == q.val && x.slice == sl) = some m →
    let g := rhe (m.gainA + m.gainB) 2
    let o := rhe (m.ofsA + m.ofsB) 2
    ∃ t, exec c s = .next t ∧
      (let ends := m.endCode = true ∨ m.badWeight = true
       let fails := min 15 (s.fld (QUAD_SL_QUAL q sl) fQUAD_SL_QUAL_FAILS + 1)
       (¬ends → s.measOk m g o = true → t.rd (QUAD_SL_GAIN q sl) = wordOf g ∧
        t.rd (QUAD_SL_OFS q sl) = wordOf o ∧ t.fld (QUAD_SL_QUAL q sl) fQUAD_SL_QUAL_AGE = 0 ∧
        t.fld (QUAD_SL_QUAL q sl) fQUAD_SL_QUAL_FAILS = 0 ∧ t.fld (QUAD_SL_QUAL q sl) fQUAD_SL_QUAL_RES = min 255 m.res) ∧
       ((ends ∨ s.measOk m g o = false) → t.rd (QUAD_SL_GAIN q sl) = s.rd (QUAD_SL_GAIN q sl) ∧
        t.rd (QUAD_SL_OFS q sl) = s.rd (QUAD_SL_OFS q sl) ∧ t.fld (QUAD_SL_QUAL q sl) fQUAD_SL_QUAL_FAILS = fails ∧
        (t.rd CAL_FAIL_SUM).getLsbD (fCAL_FAIL_SUM_CAL_FAIL.lsb + q / 32) = true ∧
        ((ends ∨ fails = 3) → t.sliceFailed q sl = true)))) ∧
  (∀ (q : Quad) (sl : Nat) (s : State), sl < 15 → s.calibrating q sl = true → (s.sliceFails [(q.val, sl)]).sliceFailed q sl = true)

/-- A channel whose program counter reaches PROG_LEN without executing END stops with code PROG (R268): in dmaGo, by which every
instruction and START move the program counter, and in each command that goes on past a program's last instruction or starts an empty
program. -/
def Obligations.ProgramEnds : Prop :=
  (∀ (d : Dma) (pc : Nat) (s : State), s.fld (DMA_CH_PROG_LEN d) fDMA_CH_PROG_LEN_LEN ≤ pc →
    (s.dmaGo d pc).dmaState d = dmStopped ∧ (s.dmaGo d pc).fld (DMA_CH_STAT d) fDMA_CH_STAT_CODE = 0x1A) ∧
  (∀ (d : Dma) (s : State), s.dmaActive d = false → s.busStop = false → s.fld (DMA_CH_PROG_LEN d) fDMA_CH_PROG_LEN_LEN = 0 →
    ∃ t, exec (.dmaStart d) s = .next t ∧ t.dmaState d = dmStopped ∧ t.fld (DMA_CH_STAT d) fDMA_CH_STAT_CODE = 0x1A) ∧
  (∀ (d : Dma) (s : State), s.fld (DMA_CH_PROG_LEN d) fDMA_CH_PROG_LEN_LEN ≤ s.dmaPc d + 1 →
    let ends (c : Instr) : Prop := ∃ t, exec c s = .next t ∧ t.dmaState d = dmStopped ∧ t.fld (DMA_CH_STAT d) fDMA_CH_STAT_CODE = 0x1A
    (∀ m, (s.dmaCh d).move = some m → s.dmaActive d = true → m.barrier = true → m.total ≤ m.lines → ends (.dmaBarrierDone d)) ∧
    (∀ (m : MoveSt) (ready beats : Nat) (host : List Byte), 8 ≤ beats → m.buf = [] → m.abort = false → s.hub.stackBad = false → s.dmaGranted ready d = true → (s.dmaCh d).move = some m → s.dmaActive d = true → m.lines < m.total → m.total ≤ m.lines + 4 →
      m.reqEn = false → m.barrier = false → m.ssp = 0 → m.dsp = 0 → ends (.dmaBurst d ⟨ready, host, beats⟩)) ∧
    (s.dmaAt d 2 → bits (s.dmaWord d 0) 4 12 < s.dmaPc d → (s.dmaCh d).loop = none → s.dmaWord d 3 = 1 → ends (.dmaLoop d)) ∧
    ((s.dmaCh d).wait = some .kick → s.fld (DMA_CH_KICKS d) fDMA_CH_KICKS_KICKS ≠ 0 → ends (.dmaWaitSatisfied d)) ∧
    (∀ x, (s.dmaCh d).wait = some (.stamp x) → atOrAfter s.now x = true → ends (.dmaWaitSatisfied d)) ∧
    (∀ e, (s.dmaCh d).wait = some (.event e) → e < 64 → s.fld (DMA_EVT_CNT e) fDMA_EVT_CNT_COUNT ≠ 0 →
      (∀ x < d.val, (s.dmaCh x).wait ≠ some (.event e)) → ends (.dmaWaitSatisfied d)) ∧
    (s.dmaAt d 4 → bits (s.dmaWord d 0) 8 8 = 0 → bits (s.dmaWord d 0) 25 7 = 0 → s.dmaWord d 2 = 0 → s.dmaWord d 3 = 0 →
      let kind := bits (s.dmaWord d 0) 4 4
      let target := bits (s.dmaWord d 0) 16 9
      (kind = 0 → target < 64 → ends (.dmaSignalEvent d)) ∧ (kind = 1 → ends (.dmaSignalTrackFill d)) ∧
      (kind = 2 → target < 32 → ends (.dmaSignalGroupFill d)) ∧ (kind = 3 → ends (.dmaSignalRingConsume d))))

/-- Halts and the link (R320 to R322, R325, R328 to R331, R280): an accepted doorbell, and HALT_N going low, latch a halt at once: source
HALT holds every channel, its latch and SEEN bit, the stamp and the interrupt bit are set, the chain is told where asked; a doorbell undoes a
release that has not acted. A release acts at tick k+2, and is refused where HALT_N is low at its write or at that tick. A lane declared
failed leaves LANE_OK and starts Recovery; Recovery ends at the widest width of the working lanes and the partner, or takes the link down;
WIDEN offers every lane; training completes where PERST_N is high; a configuration request takes what it writes, is answered, and lets
pending messages go.
It states where these commands complete, and in what: haltDoorbell, haltNAssert, haltRelease, laneDeclaredFailed, widthChangeDone, widen,
dlDown, configurationRequest, linkUp. -/
def Obligations.HaltsAndLink : Prop :=
  (∀ (chain : Bool) (cyc : Nat) (rq : Req) (s : State),
    let open_ := s.host.linkUp = true ∧ s.host.retraining = false ∧ s.host.memEnable = true ∧ s.host.dstate ≠ .d3hot
    (¬open_ → exec (.haltDoorbell chain cyc rq) s = .next s) ∧
    (open_ → ∃ t, exec (.haltDoorbell chain cyc rq) s = .next t ∧ t.halted = true ∧ (∀ n, n < 512 → t.heldBy n srcHalt = true) ∧
      (t.rd HUB_HALT_STAT).getLsbD 1 = true ∧ (t.rd HUB_HALT_STAT).getLsbD 8 = true ∧ t.rd64 HUB_HALT_STAMP_LO = s.now ∧
      t.bit HUB_INT_STAT fHUB_INT_STAT_HALT = true ∧ (∀ x ∈ t.later, x.2 ≠ .haltRelease) ∧
      (s.elogRepeats 0x24 rq.hdr = false → s.elogEntry t 0x24 rq.vc rq.hdr HUB_HALT) ∧
      t.skl.out = s.skl.out ++ (if chain && s.part && !s.hubTest then [⟨false, s.pos, 0, false, .haltSet s.pos⟩, ⟨true, s.pos, 0, false, .haltSet s.pos⟩]
        else []))) ∧
  (∀ (cyc : Nat) (s : State), ∃ t, exec (.haltNAssert true cyc) s = .next t ∧ t.halted = true ∧
    (∀ n, n < 512 → t.heldBy n srcHalt = true) ∧ (t.rd HUB_HALT_STAT).getLsbD 2 = true ∧ (t.rd HUB_HALT_STAT).getLsbD 9 = true ∧
    t.bit HUB_HALT_STAT fHUB_HALT_STAT_BALL_LOW = true ∧ t.rd64 HUB_HALT_STAMP_LO = s.now ∧
    t.bit HUB_INT_STAT fHUB_INT_STAT_HALT = true ∧ t.newest 0xC 9 HUB_HALT_STAT 0 0 ∧ t.later = s.later ∧
    t.skl.out = s.skl.out ++ (if s.bit HUB_HALT_CTL fHUB_HALT_CTL_BALL_TO_CHAIN && s.part && !s.hubTest then
      [⟨false, s.pos, 0, false, .haltSet s.pos⟩, ⟨true, s.pos, 0, false, .haltSet s.pos⟩] else [])) ∧
  (∀ (cyc : Nat) (s : State), ∃ t, exec (.haltNAssert false cyc) s = .next t ∧
    t.rd HUB_HALT_STAT = fHUB_HALT_STAT_BALL_LOW.put (s.rd HUB_HALT_STAT) 0 ∧ s.regsOnly t [HUB_HALT_STAT] ∧ s.onlyRegs t) ∧
  (∀ s : State, (s.bit HUB_HALT_STAT fHUB_HALT_STAT_BALL_LOW = true → ∃ t, exec .haltRelease s = .next t ∧
      t.rd HUB_HALT_STAT = fHUB_HALT_STAT_RELEASE_REFUSED.put (s.rd HUB_HALT_STAT) 1 ∧ s.regsOnly t [HUB_HALT_STAT] ∧ s.onlyRegs t) ∧
    (s.bit HUB_HALT_STAT fHUB_HALT_STAT_BALL_LOW = false →
      exec .haltRelease s = .next { s with later := s.later ++ [(s.tick + 2, .haltRelease)] })) ∧
  (∀ s : State, let t := s.laterAct .haltRelease
    (s.bit HUB_HALT_STAT fHUB_HALT_STAT_BALL_LOW = true → t = s.raise HUB_HALT_STAT fHUB_HALT_STAT_RELEASE_REFUSED ∧
      (s.later = [(s.tick, .haltRelease)] → (s.drain false).bit HUB_HALT_STAT fHUB_HALT_STAT_RELEASE_REFUSED = true)) ∧
    (s.bit HUB_HALT_STAT fHUB_HALT_STAT_BALL_LOW = false → (t.rd HUB_HALT_STAT).getLsbD 1 = false ∧
      (t.rd HUB_HALT_STAT).getLsbD 2 = false ∧ (t.rd HUB_HALT_STAT).getLsbD 3 = (s.rd HUB_HALT_STAT).getLsbD 3 ∧
      ((s.rd HUB_HALT_STAT).getLsbD 1 = true ∨ (s.rd HUB_HALT_STAT).getLsbD 2 = true → (s.rd HUB_HALT_STAT).getLsbD 3 = false →
        t.halted = false ∧ ∀ n, n < 512 → s.wired n = false → t.heldBy n srcHalt = false))) ∧
  (∀ (lane : Fin 4) (lock : Bool) (s : State),
    let fails := s.bit PCI_LANE_CFG fPCI_LANE_CFG_AUTO_NARROW = true ∧
      (s.rd PCI_LINK_STAT).getLsbD (6 + lane) = true ∧
      (lock = true ∨ s.fld PCI_LANE_CFG fPCI_LANE_CFG_ERR_LIMIT < s.laneErrors lane)
    (¬fails → exec (.laneDeclaredFailed lane lock) s = .next s) ∧
    (fails → ∃ t, exec (.laneDeclaredFailed lane lock) s = .next t ∧ t.host.retraining = true ∧
      t.fld PCI_LINK_STAT fPCI_LINK_STAT_LANE_OK = s.fld PCI_LINK_STAT fPCI_LINK_STAT_LANE_OK &&& (15 - 2 ^ lane.val) ∧
      (t.rd HUB_FAULT_STAT).getLsbD 16 = true ∧
      (s.host.retraining = false → t.bit PCI_LINK_STAT fPCI_LINK_STAT_RETRAINED = true ∧ t.bit PCI_INT_STAT fPCI_INT_STAT_LINK = true) ∧
      t.fld PCI_LINK_STAT fPCI_LINK_STAT_RETRAINS = (let n := s.fld PCI_LINK_STAT fPCI_LINK_STAT_RETRAINS
        if s.host.retraining then n else min (2 ^ fPCI_LINK_STAT_RETRAINS.width - 1) (n + 1)) ∧
      (s.elogRepeats 0x23 Tlp.zero = false → (t.rd PCI_ELOG_SEEN_HI).getLsbD 3 = true))) ∧
  (∀ s : State, (s.host.retraining = false → exec .widthChangeDone s = .next s) ∧
    (s.host.retraining = true →
      let w := min (widthOf (s.fld PCI_LINK_STAT fPCI_LINK_STAT_LANE_OK)).1 s.host.partner
      ∃ t, exec .widthChangeDone s = .next t ∧ t.host.retraining = false ∧ t.fld PCI_LINK_STAT fPCI_LINK_STAT_WIDTH = w ∧
      (w = 0 → t.host.linkUp = false ∧ t.bit PCI_LINK_STAT fPCI_LINK_STAT_LINK_DOWN = true) ∧
      (w ≠ 0 → t.host.linkUp = s.host.linkUp ∧
        t.bit PCI_LINK_STAT fPCI_LINK_STAT_REVERSED = (widthOf (s.fld PCI_LINK_STAT fPCI_LINK_STAT_LANE_OK)).2 ∧
        (w < s.fld PCI_LINK_STAT fPCI_LINK_STAT_WIDTH → t.bit PCI_LINK_STAT fPCI_LINK_STAT_DOWNSIZED = true) ∧
        s.regsOnly t [PCI_LINK_STAT, PCI_INT_STAT]))) ∧
  (∀ s : State, (s.host.linkUp = false → exec .widen s = .next s ∧ exec .dlDown s = .next s) ∧
    (s.host.linkUp = true → (∃ t, exec .widen s = .next t ∧ t.fld PCI_LINK_STAT fPCI_LINK_STAT_LANE_OK = 15 ∧
        t.host.retraining = true ∧ t.host.errTicks = [] ∧ t.bit PCI_LINK_STAT fPCI_LINK_STAT_RETRAINED = true ∧
        s.regsOnly t [PCI_LINK_STAT, PCI_INT_STAT]) ∧
      (∃ t, exec .dlDown s = .next t ∧ t.host.linkUp = false ∧ t.fld PCI_LINK_STAT fPCI_LINK_STAT_WIDTH = 0 ∧
        t.fld PCI_LINK_STAT fPCI_LINK_STAT_SPEED = 0 ∧ t.bit PCI_LINK_STAT fPCI_LINK_STAT_LINK_DOWN = true ∧
        (s.bit HUB_HALT_CTL fHUB_HALT_CTL_DOWN_HALT = true → t.halted = true ∧ ∀ n, n < 512 → t.heldBy n srcHalt = true) ∧
        ∀ (d : Dma) (m : MoveSt), (s.dmaCh d).move = some m → s.dmaActive d = true →
          ((m.ssp = 2 ∨ m.dsp = 2) ∧ m.lines < m.total ∧ s.tokenWait m = false ∨ m.dsp = 2 ∧ m.barrier = true ∧ m.total ≤ m.lines) →
          t.dmaState d = dmStopped ∧ t.fld (DMA_CH_STAT d) fDMA_CH_STAT_CODE = 4))) ∧
  (∀ (partner speed : Nat) (s : State), 1 ≤ partner → partner ≤ 4 → 1 ≤ speed → speed ≤ 4 →
    let p := if partner = 4 then 4 else if 2 ≤ partner then 2 else 1
    let w := min (widthOf (s.fld PCI_LINK_STAT fPCI_LINK_STAT_LANE_OK)).1 p
    ((s.host.linkUp = true ∨ w = 0 ∨ s.hubTest = true ∨ s.hub.perstLow = true) → exec (.linkUp partner speed) s = .next s) ∧
    (s.host.linkUp = false → w ≠ 0 → s.hubTest = false → s.hub.perstLow = false → ∃ t, exec (.linkUp partner speed) s = .next t ∧
      t.fld PCI_LINK_STAT fPCI_LINK_STAT_WIDTH = w ∧ t.fld PCI_LINK_STAT fPCI_LINK_STAT_SPEED = speed ∧
      t.host = { s.host with linkUp := true, retraining := false, partner := p } ∧ s.regsOnly t [PCI_LINK_STAT] ∧
      t = { s with regs := t.regs, host := t.host })) ∧
  (∀ (mem msix mask d3hot : Bool) (limits : Fin 6 × Fin 6) (bar : Option (Fin 6 × Word)) (regs : CfgRegs) (clear : Word × Word)
    (rq : Req) (s : State), ∃ t,
    exec (.configurationRequest mem msix mask ⟨d3hot, limits, bar, regs, clear, rq⟩) s = .next t ∧
    t.host.cfg = regs ∧ t.host.aerUnc = (s.host.aerUnc &&& ~~~clear.1) ∧ t.host.aerCor = (s.host.aerCor &&& ~~~clear.2) ∧
    (∃ l, t.host.ready = s.host.ready ++
      ⟨.completion 0 false 4, rq.hdr.h0.toNat / 2 ^ 20 % 8, rq.vc % 2, false, false, regs.ecrcGen⟩ :: l) ∧
    t.host.memEnable = mem ∧ t.host.msixEnable = msix ∧ t.host.funcMask = mask ∧
    t.host.dstate = (if d3hot then .d3hot else .d0) ∧ t = { s with host := t.host } ∧ t.host.limits = (limits.1.val, limits.2.val) ∧
    (bar = none → t.host.bars = s.host.bars) ∧
    (∀ i w, bar = some (i, w) → t.host.bars = s.host.bars.set i (w &&& barMask i) ∧
      (i < s.host.bars.length → t.barWord i = (w &&& barMask i) ||| barType i)) ∧
    ∀ v, v < 40 → s.host.pba.testBit v = true → (s.msixWord v 3).getLsbD 0 = false → s.vecCond v = true →
      s.host.shut = true → msix = true → mask = false → d3hot = false → regs.busMaster = true →
      t.host.pba.testBit v = false ∧ SMap.get 0 t.host.sent v = SMap.get 0 s.host.sent v + 1)

/-- Positions and ports of the chain (R335, R337, R339 to R342, R346): enabling takes the strapped position, or position 0 where nothing is
above; position 0 below another device is a conflict; disabling leaves the chain; a port that goes up sends ENUM on both ports, one that goes down shows it, and its loss may
halt; a missing TIME frame ends ALIGNED and counts in CHAIN, the fourth in a row there enters holdover; ENUM goes out every 4,096 periods and a position not heard of for
8,192 leaves SKL_CHAIN; halt and fault sets act at once and are sent on; a release acts at tick k+2, beside those that wait, and may go to all. An own frame goes out before own
frames of a later type that wait (R336).
It states where these commands complete, and in what: sklEnable, sklPortUp, sklPortDown, timeFrameMiss, enumSend, sklHaltSet, sklFaultSet,
sklHaltRelease, sklPresentExpiry. -/
def Obligations.SkidlinePorts : Prop :=
  (∀ (en : Bool) (s : State), s.bit SKL_CTL fSKL_CTL_EN = en → exec (.sklEnable en) s = .next s) ∧
  (∀ s : State, s.bit SKL_CTL fSKL_CTL_EN = false →
    let p := s.fld SKL_STAT fSKL_STAT_STRAPS
    ∃ t, exec (.sklEnable true) s = .next t ∧ t.bit SKL_CTL fSKL_CTL_EN = true ∧
      (s.bit SKL_CTL fSKL_CTL_POS_SRC = true → t.pos = p ∧ t.bit SKL_STAT fSKL_STAT_STRAP = true ∧
        (p = 0 ∧ s.portUp false = true → t.part = false ∧ t.bit SKL_STAT fSKL_STAT_POS_CONFLICT = true) ∧
        (p ≠ 0 ∨ s.portUp false = false → t.part = true ∧ t.bit SKL_STAT fSKL_STAT_MASTER = (p == 0))) ∧
      (s.bit SKL_CTL fSKL_CTL_POS_SRC = false → s.portUp false = false → t.part = true ∧ t.pos = 0 ∧
        t.bit SKL_STAT fSKL_STAT_MASTER = true ∧ t.bit SKL_STAT fSKL_STAT_STRAP = false) ∧
      (s.bit SKL_CTL fSKL_CTL_POS_SRC = false → s.portUp false = true → t.rd SKL_STAT = s.rd SKL_STAT ∧
        t.skl = { s.skl with upSeen := false, barred := false, lenKnown := false })) ∧
  (∀ s : State, s.bit SKL_CTL fSKL_CTL_EN = true → ∃ t, exec (.sklEnable false) s = .next t ∧ t.part = false ∧ t.pos = 0 ∧
    t.bit SKL_STAT fSKL_STAT_MASTER = false ∧ t.bit SKL_STAT fSKL_STAT_ALIGNED = false ∧ t.chained = false ∧
    (s.chained = true → t.phState = (if s.phMode = 0 then phFree else phAcquire))) ∧
  (∀ (dn : Bool) (s : State), (s.portUp dn = true ∨ s.hubTest = true → exec (.sklPortUp dn) s = .next s) ∧
    (s.portUp dn = false → s.hubTest = false → ∃ t, exec (.sklPortUp dn) s = .next t ∧ t.portUp dn = true ∧
      (if dn then t.skl.rxDn else t.skl.rxUp) = none ∧
      (dn = false ∧ s.placed = true ∧ s.pos = 0 → t.part = false ∧ t.bit SKL_STAT fSKL_STAT_POS_CONFLICT = true ∧ t.skl.out = s.skl.out) ∧
      (¬(dn = false ∧ s.placed = true ∧ s.pos = 0) → s.sentBoth t (.enum t.enumOf)) ∧
      s.regsOnly t [SKL_STAT, SKL_INT_STAT])) ∧
  (∀ (dn : Bool) (s : State), (s.portUp dn = false → exec (.sklPortDown dn) s = .next s) ∧
    (s.portUp dn = true → ∃ t, exec (.sklPortDown dn) s = .next t ∧ t.portUp dn = false ∧
      t.bit SKL_STAT (if dn then fSKL_STAT_DN_LOST else fSKL_STAT_UP_LOST) = true ∧ t.bit SKL_INT_STAT fSKL_INT_STAT_LINK = true ∧
      (dn = true ∧ s.placed = true → t.fld SKL_STAT fSKL_STAT_LEN = s.pos) ∧
      (dn = false → s.bit SKL_CTL fSKL_CTL_EN = true → s.bit SKL_CTL fSKL_CTL_BREAK_HALT = true → s.haltedBy t 3))) ∧
  (∀ s : State, ((s.part = true ∧ s.pos = 0) ∨ s.chained = false ∨ s.phase.chainNext.isSome = true →
      exec .timeFrameMiss s = .next s) ∧
    ((s.part = true → s.pos ≠ 0) → s.chained = true → s.phase.chainNext = none → ∃ t, exec .timeFrameMiss s = .next t ∧
      t.skl.missRun = s.skl.missRun + 1 ∧ t.skl.timeRun = 0 ∧ t.skl.master = none ∧ t.bit SKL_STAT fSKL_STAT_ALIGNED = false ∧
      (s.phState ≠ phChain → t.phState = s.phState ∧ s.regsOnly t [SKL_STAT]) ∧
      (s.phState = phChain → (t.rd SKL_TIME_MISS).toNat = min (2 ^ 32 - 1) ((s.rd SKL_TIME_MISS).toNat + 1)) ∧
      (s.phState = phChain → 3 ≤ s.skl.missRun → t.phState = phHoldover ∧ t.skl.lost = true ∧
        t.bit SKL_STAT fSKL_STAT_CHAIN_LOST = true ∧
        t.bit SKL_INT_STAT fSKL_INT_STAT_LINK = true) ∧
      (s.skl.missRun < 3 → t.phState = s.phState ∧ s.regsOnly t [SKL_TIME_MISS, SKL_STAT]))) ∧
  (∀ s : State, ((s.tick + 1) % 4096 ≠ 0 → exec .enumSend s = .next s) ∧ ((s.tick + 1) % 4096 = 0 → ∃ t, exec .enumSend s = .next t ∧
    s.sentBoth t (.enum s.enumOf) ∧ t = { s with skl := t.skl })) ∧
  (∀ s : State, ∃ t, exec .sklPresentExpiry s = .next t ∧ (∀ p, p < 8 → (t.rd SKL_CHAIN).getLsbD p =
      ((s.rd SKL_CHAIN).getLsbD p && !(SMap.get 0 s.skl.enumAt p != 0 && SMap.get 0 s.skl.enumAt p + 8192 ≤ s.tick + 1))) ∧
    s.regsOnly t [SKL_CHAIN] ∧ t = { s with regs := t.regs, skl := t.skl }) ∧
  (∀ (dn : Bool) (origin : Fin 8) (cyc : Nat) (s : State),
    (s.part = false ∨ s.portUp dn = false → exec (.sklHaltSet dn origin cyc) s = .next s ∧ exec (.sklFaultSet dn origin) s = .next s) ∧
    (s.part = true → s.portUp dn = true →
      (∃ t, exec (.sklHaltSet dn origin cyc) s = .next t ∧ s.haltedBy t 3 ∧ t.skl.release = [] ∧
        t.skl.out = s.skl.out ++ (if s.hubTest then [] else [⟨!dn, origin, 0, false, .haltSet origin⟩])) ∧
      (∃ t, exec (.sklFaultSet dn origin) s = .next t ∧ (t.rd SKL_FAULT_SEEN).getLsbD origin = true ∧
        t.bit SKL_INT_STAT fSKL_INT_STAT_FAULT = true ∧ t.skl.out = s.skl.out ++ (if s.hubTest then [] else [⟨!dn, origin, 0, false, .faultSet origin⟩]) ∧
        (s.bit SKL_CTL fSKL_CTL_FAULT_PIN = true → (t.rd HUB_FAULT_STAT).getLsbD 12 = true) ∧
        (s.bit SKL_CTL fSKL_CTL_FAULT_PIN = false → s.regsOnly t [SKL_FAULT_SEEN, SKL_INT_STAT])))) ∧
  (∀ (all : Bool) (s : State), ∃ t, exec (.sklHaltRelease all) s = .next t ∧ t.skl.release = s.skl.release ++ [⟨s.tick + 2, none⟩] ∧
    (if all then s.sentBoth t (.release s.stampAfterNext) else t.skl.out = s.skl.out) ∧ t = { s with skl := t.skl })

/-- Frames (R336 to R338, R341, R343, R345): on a port that is down they are nothing; a good frame is sent on and gives its shares, its
partial sums, its release or its time, or counts as late; an ENUM shows its position and gives the next one to a device that has none, unless a conflict bars it, and one from UP that contradicts
a position is a conflict; a device that takes part sends, in the period SAMPLE_TICK begins, the master's time with the P of the tick after the coming one, its leaders' shares
and its partial sums; a frame with a violation counts by its kind, raises ERR and gives nothing.
It states where these commands complete, and in what: timeFrame, shareFrame, sumFrame, nackFrame, enumFrame, releaseFrame. -/
def Obligations.SkidlineFrames : Prop :=
  (∀ (h : SklHdr) (s : State), s.portUp h.dn = false → (∀ e l, exec (.shareFrame h e l) s = .next s) ∧
    (∀ e l, exec (.sumFrame h e l) s = .next s) ∧ exec (.nackFrame h) s = .next s ∧ (∀ e, exec (.enumFrame h e) s = .next s) ∧
    (∀ x, exec (.releaseFrame h x) s = .next s) ∧ (∀ p o m c, exec (.timeFrame h p o m c) s = .next s)) ∧
  (∀ (h : SklHdr) (e : List SklShare) (s : State), s.sklGood h → ∃ t u, exec (.shareFrame h e false) s = .next t ∧
    t.shares = s.shares ++ (if s.part then e.map (fun x => ⟨x.gang, h.src, x.leader, x.range, x.sample⟩) else []) ∧
    t.skl.out = s.skl.out ++ s.sentOn h (.share e) ∧ (if h.dn then t.skl.rxDn else t.skl.rxUp) = some (h.seq % 256) ∧
    t = { s with skl := t.skl, shares := t.shares } ∧ exec (.shareFrame h e true) s = .next u ∧
    (u.rd SKL_LATE_CNT).toNat = min (2 ^ 32 - 1) ((s.rd SKL_LATE_CNT).toNat + 1) ∧ u.bit SKL_INT_STAT fSKL_INT_STAT_LATE = true ∧
    u.shares = s.shares ∧ s.regsOnly u [SKL_LATE_CNT, SKL_INT_STAT]) ∧
  (∀ (h : SklHdr) (e : List SklSum) (s : State), s.sklGood h → ∃ t u, exec (.sumFrame h e false) s = .next t ∧
    t.sums = s.sums ++ (if s.part then e.map (fun x => (x.gang, x.sum, x.count)) else []) ∧
    t.skl.out = s.skl.out ++ s.sentOn h (.sum e) ∧ t = { s with skl := t.skl, sums := t.sums } ∧
    exec (.sumFrame h e true) s = .next u ∧ u.bit SKL_INT_STAT fSKL_INT_STAT_LATE = true ∧ u.sums = s.sums ∧
    s.regsOnly u [SKL_LATE_CNT, SKL_INT_STAT]) ∧
  (∀ (h : SklHdr) (s : State), s.sklGood h → ∃ t, exec (.nackFrame h) s = .next t ∧
    (t.rd SKL_NACK_CNT).toNat = min (2 ^ 32 - 1) ((s.rd SKL_NACK_CNT).toNat + 1) ∧ t.skl.out = s.skl.out ∧
    s.regsOnly t [SKL_NACK_CNT] ∧ t = { s with regs := t.regs, skl := t.skl }) ∧
  (∀ (h : SklHdr) (x : Nat) (s : State), s.sklGood h → s.part = true → x < 2 ^ 64 → ∃ t, exec (.releaseFrame h x) s = .next t ∧
    t.skl.release = s.skl.release ++ [s.sched (some x)] ∧ (s.isLate x = true → t.bit SKL_STAT fSKL_STAT_LATE = true) ∧
    t.skl.out = s.skl.out ++ s.sentOn h (.release x) ∧ s.regsOnly t [SKL_STAT]) ∧
  (∀ (h : SklHdr) (p offset mstate cyc : Nat) (s : State), s.sklGood h → s.part = true → h.dn = false → 32 ≤ offset → s.pos ≠ 0 →
    p < 2 ^ 96 → ∃ t, exec (.timeFrame h p offset mstate cyc) s = .next t ∧ t.phase.chainNext = some p ∧ t.skl.master = some p ∧
      t.skl.missRun = 0 ∧ t.skl.timeRun = s.skl.timeRun + 1 ∧
      (s.phState = phChain ∨ s.skl.lost = false ∨ 15 ≤ s.skl.timeRun → t.phState = phChain) ∧
      (s.phState ≠ phChain → s.skl.lost = true → s.skl.timeRun < 15 → t.phState = s.phState ∧ t.skl.lost = true) ∧
      (s.phState = phChain → s.skl.master ≠ some s.nextP → t.bit SKL_STAT fSKL_STAT_ALIGNED = false) ∧
      (s.phState = phChain → s.skl.master = some s.nextP → t.bit SKL_STAT fSKL_STAT_ALIGNED =
        (decide (399 ≤ cyc + offset ∧ cyc + offset ≤ 401) || s.bit SKL_STAT fSKL_STAT_ALIGNED)) ∧
      t.skl.out = s.skl.out ++ s.sentOn h (.time p (offset - 32) mstate) ∧ s.regsOnly t [PHB_STAT, SKL_STAT]) ∧
  (∀ (h : SklHdr) (e : SklEnum) (s : State), s.sklGood h → e.pos < 8 →
    (s.part = true → (h.dn = true → s.pos < e.pos) → (h.dn = false → e.pos < s.pos ∧ (s.skl.upSeen = true ∨ e.pos + 1 = s.pos)) →
      ∃ t, exec (.enumFrame h e) s = .next t ∧ (t.rd SKL_CHAIN).getLsbD e.pos = true ∧ t.part = true ∧ t.pos = s.pos ∧
      (e.last = true → t.fld SKL_STAT fSKL_STAT_LEN = e.pos) ∧ SMap.get 0 t.skl.enumAt e.pos = s.tick + 1 ∧
      t.skl.out = s.skl.out ++ s.sentOn h (.enum e) ∧ s.regsOnly t [SKL_CHAIN, SKL_STAT]) ∧
    (s.part = false → s.skl.barred = true → s.enumClash h e = false → ∃ t, exec (.enumFrame h e) s = .next t ∧ t.part = false ∧
      (t.rd SKL_CHAIN).getLsbD e.pos = true) ∧
    (h.dn = false → s.placed = true → (s.pos ≤ e.pos ∨ (s.skl.upSeen = false ∧ e.pos + 1 ≠ s.pos)) → ∃ t, exec (.enumFrame h e) s = .next t ∧
      t.part = false ∧ t.pos = s.pos ∧ t.bit SKL_STAT fSKL_STAT_POS_CONFLICT = true ∧ t.bit SKL_INT_STAT fSKL_INT_STAT_ERR = true ∧
      t.fld SKL_ERR_UP ⟨24, 4⟩ = min 15 (s.fld SKL_ERR_UP ⟨24, 4⟩ + 1) ∧ t.rd SKL_CHAIN = s.rd SKL_CHAIN) ∧
    (s.part = false → s.skl.barred = false → h.dn = false → s.skl.upSeen = false → s.bit SKL_CTL fSKL_CTL_EN = true →
      s.bit SKL_CTL fSKL_CTL_POS_SRC = false → ∃ t, exec (.enumFrame h e) s = .next t ∧ (t.rd SKL_CHAIN).getLsbD e.pos = true ∧
      (e.pos < 7 → t.part = true ∧ t.pos = e.pos + 1 ∧ t.bit SKL_STAT fSKL_STAT_MASTER = false) ∧
      (e.pos = 7 → t.part = false ∧ t.bit SKL_STAT fSKL_STAT_OVERLONG = true))) ∧
  (∀ (h : SklHdr) (e : List SklShare) (late : Bool) (s : State), s.portUp h.dn = true → h.stomped = false → 1 ≤ h.viol → h.viol ≤ 4 →
    let a := if h.dn then SKL_ERR_DN else SKL_ERR_UP
    ∃ t, exec (.shareFrame h e late) s = .next t ∧ t.fld a ⟨4 * (h.viol - 1), 4⟩ = min 15 (s.fld a ⟨4 * (h.viol - 1), 4⟩ + 1) ∧
      t.bit SKL_INT_STAT fSKL_INT_STAT_ERR = true ∧ t.shares = s.shares ∧ s.regsOnly t [a, SKL_INT_STAT, MBX_EVT_STAT]) ∧
  (∀ s : State, s.part = true → s.hubTest = false → s.skl.out = [] → ∀ dn : Bool,
    ((s.tickChain.portOut dn).map (·.msg)) = (if dn && s.pos == 0 then [.time s.pAfterNext 376 s.phState] else []) ++
      (pairUp (s.shareEntries dn)).map .share ++ (pairUp (s.sumEntries dn)).map .sum)

/-- The mailbox (R349 to R366, Tables 17-6 and 17-7): a write of the request area lands unless firmware runs (R356); while BUSY every command is
OVERRUN; a command runs to its answer, refused ones change nothing but the answer, and one that meets an uncorrectable error reports it (R387); GET_INFO, GET_SENSORS and LOG_READ give their data;
thresholds, ENV, structures, keys, policy, firmware, safe values, calibration and the subsystem word change as their command says, and the
stores are in NOR.
It states where these commands complete, and in what: getInfo, getSensors, setThresh, envRelease, logRead, sealedLoad, structStore,
getNonce, keyEnrol, keyRevoke, setPolicy, fwUpdate, coreSwitch, calRestore, setSubsys, mailboxRequestWrite, safeStore, calStore. -/
def Obligations.MailboxCommands : Prop :=
  (∀ (addr be : Nat) (data : Word) (s : State), s.memOn = true → let a := addr / 4 * 4
    ((a < 0x100 ∨ 0x1100 ≤ a) → exec (.mailboxRequestWrite addr data be) s = .next s) ∧
    (0x100 ≤ a → a < 0x1100 → s.busy = true → ∃ t, exec (.mailboxRequestWrite addr data be) s = .next t ∧
      t.rd MBX_STAT = fMBX_STAT_OVERRUN.put (s.rd MBX_STAT) 1 ∧ s.regsOnly t [MBX_STAT] ∧ s.onlyRegs t) ∧
    (0x100 ≤ a → a < 0x1100 → s.busy = false → ∃ t, exec (.mailboxRequestWrite addr data be) s = .next t ∧
      (∀ i, i < 4 → t.cob.req.read (a - 0x100 + i) = (if be.testBit i then BitVec.ofNat 8 (data.toNat / 256 ^ i)
        else s.cob.req.read (a - 0x100 + i))) ∧
      (∀ b, (b < a - 0x100 ∨ a - 0x100 + 4 ≤ b) → t.cob.req.read b = s.cob.req.read b) ∧
      t = { s with cob := { s.cob with req := t.cob.req } })) ∧
  (∀ (f : MbxFault) (x : Instr × Nat) (s : State), x ∈ mailboxRows f →
    (s.busy = true → ∃ t, exec x.1 s = .next t ∧ t.rd MBX_STAT = fMBX_STAT_OVERRUN.put (s.rd MBX_STAT) 1 ∧ s.regsOnly t [MBX_STAT] ∧
      s.onlyRegs t) ∧
    (s.busy = false → s.reqWord 0 % 2 ^ 16 ≠ x.2 → exec x.1 s = .next s)) ∧
  (∀ s : State, s.mbxReq 1 0 → ∃ t, exec .getInfo s = .next t ∧ s.answered t 0 (leBytes (fwWord 0 (s.fwSlot 0)) 4 ++
    leBytes (fwWord 1 (s.fwSlot 1)) 4 ++ leBytes s.rollbackFloor 4 ++ leBytes (s.rd MBX_CORE).toNat 4 ++ leBytes s.hours 4) ∧
    s.onlyAnswered t) ∧
  (∀ s : State, s.mbxReq 2 0 → ∃ t data, exec .getSensors s = .next t ∧ s.answered t 0 data ∧ s.onlyAnswered t ∧
    data.length = 132 ∧ ∀ i, i < 44 → data.getD (88 + i) 0 = BitVec.ofNat 8 ((s.sensor i).warn.toNat + 2 * (s.sensor i).alarm.toNat)) ∧
  (∀ s : State, s.mbxReq 3 12 →
    let i := s.arg 0 % 256
    ((44 ≤ i ∨ 512 ≤ s.arg 0) → ∃ t, exec .setThresh s = .next t ∧ s.answered t 3 [] ∧ s.onlyAnswered t) ∧
    (20 ≤ i → i < 44 → s.arg 0 < 512 → ∃ t, exec .setThresh s = .next t ∧ s.answered t 0 [] ∧
      (t.sensor i).act = (s.arg 0).testBit 8 ∧ (t.sensor i).warnLo = (s.arg 1 % 65536 : Nat) ∧
      (t.sensor i).warnHi = (s.arg 1 / 65536 % 65536 : Nat) ∧ (t.sensor i).alarmLo = (s.arg 2 % 65536 : Nat) ∧
      (t.sensor i).alarmHi = (s.arg 2 / 65536 % 65536 : Nat) ∧ s.regsOnly t [MBX_STAT, MBX_ENV])) ∧
  (∀ s : State, s.mbxReq 4 4 → s.arg 0 < 65536 →
    let alarmed := s.fld MBX_ENV fMBX_ENV_ALARMED
    let go := s.arg 0 &&& s.fld MBX_ENV fMBX_ENV_HELD &&& (0xFFFF - alarmed)
    ∃ t, exec .envRelease s = .next t ∧ s.answered t (if s.arg 0 &&& alarmed = 0 then 0 else 0xF) (leBytes go 4) ∧
      t.fld MBX_ENV fMBX_ENV_HELD = s.fld MBX_ENV fMBX_ENV_HELD &&& (0xFFFF - go) ∧
      (∀ n, n < 512 → go.testBit (n / 32) = true → (s.tick + 1, Later.hold n srcEnv false) ∈ t.later)) ∧
  (∀ s : State, s.mbxReq 0x10 12 → s.arg 0 < 2 → 1 ≤ s.arg 2 → s.arg 2 < 256 →
    let ring := if s.arg 0 = 0 then s.log.ring else s.log.nor
    let es := (ring.reverse.filter (fun e => decide (s.arg 1 ≤ e.seq))).take (s.arg 2)
    ∃ t, exec .logRead s = .next t ∧ s.answered t 0 (es.flatMap LogEntry.bytes) ∧ t.log.ring = s.log.ring ∧ t.log.nor = s.log.nor ∧
      s.regsOnly t [MBX_STAT]) ∧
  (∀ s : State, s.mbxReq 0x28 0 → ∃ t n, exec .getNonce s = .next t ∧ n.length = 16 ∧
    t.cob.nonce = some (n, s.tick + 120000000) ∧ s.answered t 0 n ∧ s.regsOnly t [MBX_STAT]) ∧
  (∀ (f : MbxFault) (s : State), s.mbxReq 0x20 12 → s.arg 2 < 65536 →
    let bad := s.arg 0 % 64 ≠ 0 ∨ 2 ^ 32 < s.arg 0 + s.arg 1
    let bs := s.areaBytes (s.arg 0) (s.arg 1)
    (bad → ∃ t, exec (.sealedLoad f) s = .next t ∧ s.answered t 4 [] ∧ s.onlyAnswered t) ∧
    (¬bad → f = .ecc → ∃ t, exec (.sealedLoad f) s = .next t ∧ s.answered t 5 [] ∧ t.banks = s.banks ∧
      t.bit HUB_ECC_STAT fHUB_ECC_STAT_UE = true ∧ t.fld HUB_ECC_STAT fHUB_ECC_STAT_MEM = 5 ∧ (t.rd HUB_FAULT_STAT).getLsbD 13 = true ∧
      s.regsOnly t [MBX_STAT, HUB_ECC_STAT, HUB_ECC_ADDR, HUB_ECC_UE, HUB_FAULT_STAT, HUB_INT_STAT, MBX_EVT_STAT]) ∧
    (¬bad → f ≠ .ecc → s.fileCheck s.polSigned bs = 6 → ∃ t, exec (.sealedLoad f) s = .next t ∧ s.answered t 6 [] ∧
      s.onlyAnswered t) ∧
    (¬bad → f ≠ .ecc → s.fileCheck s.polSigned bs = 7 → ∃ t, exec (.sealedLoad f) s = .next t ∧ s.answered t 7 [] ∧
      t.banks = s.banks ∧ ∀ g : Clu, (s.arg 2).testBit g = true → s.tileGone (g / 4) = false →
        t.fld (CLU_BANK_STAT g) fCLU_BANK_STAT_CODE = 0x1D) ∧
    (¬bad → f ≠ .ecc → s.fileCheck s.polSigned bs = 0 → ∃ t data, exec (.sealedLoad f) s = .next t ∧ s.answered t 0 data ∧
      data.length = 16 ∧ (∀ g, g < 16 → (s.arg 2).testBit g = false → data.getD g 0 = 0xFF) ∧
      ∀ g, g < 16 → (s.arg 2).testBit g = true → s.tileGone (g / 4) = true →
        ((fileSections bs).any (fun x => x.1.testBit g)) = true → data.getD g 0 = 0xFD)) ∧
  (∀ (f : MbxFault) (s : State), s.mbxReq 0x21 8 → s.arg 0 % 64 = 0 → s.arg 0 + s.arg 1 ≤ 2 ^ 32 → s.arg 1 ≤ 2 ^ 23 →
    f ≠ .ecc →
    let bs := s.areaBytes (s.arg 0) (s.arg 1)
    s.fileCheck s.polSigned bs = 0 → ∃ t, exec (.structStore f) s = .next t ∧
      (f = .flash → s.answered t 0xB [] ∧ t.nor = s.nor) ∧
      (f = .none → s.answered t 0 [] ∧ (∃ c, (t.nor.struct_.1 = some c ∨ t.nor.struct_.2 = some c) ∧ c.bytes = bs) ∧
        t.newest 0xA 0 0 0x21 0)) ∧
  (∀ s : State, s.mbxReq 0x29 100 → s.polSigned = false →
    let key := (s.args.drop 4).take 96
    let point := keyPoint key
    s.arg 0 < 4 → onCurve point.1 point.2 = true → ((s.userKey (s.arg 0)).isSome = true → ∃ t, exec (.keyEnrol .none) s = .next t ∧
        s.answered t 8 [] ∧ s.onlyAnswered t) ∧
      (s.userKey (s.arg 0) = none → ∃ t, exec (.keyEnrol .none) s = .next t ∧ s.answered t 0 [] ∧
        SMap.get none t.cob.keys (s.arg 0) = some key ∧ SMap.get none t.nor.keys (s.arg 0) = some key ∧
        ∀ i, i ≠ s.arg 0 → SMap.get none t.cob.keys i = SMap.get none s.cob.keys i)) ∧
  (∀ s : State, s.mbxReq 0x2A 104 → s.arg 0 < 4 → s.tailSlot < 4 → (s.userKey (s.arg 0)).isSome = true →
    (s.tailSlot = s.arg 0 → s.keySlots.length = 1) → (s.polSigned = true → s.keySlots.length ≠ 1) →
    (s.tailCheck = 0 → ∃ t, exec (.keyRevoke .none) s = .next t ∧ s.answered t 0 [] ∧ SMap.get none t.cob.keys (s.arg 0) = none ∧
      SMap.get none t.nor.keys (s.arg 0) = none) ∧
    (s.tailCheck ≠ 0 → ∃ t, exec (.keyRevoke .none) s = .next t ∧ s.answered t s.tailCheck [] ∧ s.onlyAnswered t)) ∧
  (∀ s : State, s.mbxReq 0x2B 4 → (s.arg 0 = 1 → s.keySlots = [] → ∃ t, exec (.setPolicy .none) s = .next t ∧ s.answered t 0xD [] ∧
      s.onlyAnswered t) ∧
    (s.arg 0 = 1 → s.keySlots ≠ [] → ∃ t, exec (.setPolicy .none) s = .next t ∧ s.answered t 0 [] ∧ t.polSigned = true ∧
      t.nor.polSigned = true) ∧
    (s.arg 0 = 0 → s.polSigned = true → ∃ t, exec (.setPolicy .none) s = .next t ∧ s.answered t 7 [] ∧ s.onlyAnswered t) ∧
    (s.arg 0 = 0 → s.polSigned = false → ∃ t, exec (.setPolicy .none) s = .next t ∧ s.answered t 0 [] ∧ t.polSigned = false ∧
      t.nor.polSigned = false) ∧
    (2 ≤ s.arg 0 → ∃ t, exec (.setPolicy .none) s = .next t ∧ s.answered t 3 [] ∧ s.onlyAnswered t)) ∧
  (∀ s : State, s.mbxReq 0x2B 104 → s.arg 0 = 0 → s.polSigned = true → s.tailSlot < 4 →
    (s.tailCheck = 0 → ∃ t, exec (.setPolicy .none) s = .next t ∧ s.answered t 0 [] ∧ t.polSigned = false ∧ t.nor.polSigned = false) ∧
    (s.tailCheck ≠ 0 → ∃ t, exec (.setPolicy .none) s = .next t ∧ s.answered t s.tailCheck [] ∧ s.onlyAnswered t)) ∧
  (∀ s : State, s.mbxReq 0x30 12 → s.arg 2 = 0 → s.arg 0 % 64 = 0 → s.arg 0 + s.arg 1 ≤ 2 ^ 32 →
    let r := fwCheck s.rollbackFloor (s.areaBytes (s.arg 0) (s.arg 1))
    ∃ t, exec (.fwUpdate .none) s = .next t ∧ s.answered t r.2 [] ∧ t.newest 0xA 0 0 0x30 r.2 ∧
      (r.2 ≠ 0 → t.nor = s.nor) ∧
      (r.2 = 0 → (if s.runImage = 1 then t.nor.fw = (some r.1, s.nor.fw.2)
        else s.runImage = 0 → t.nor.fw = (s.nor.fw.1, some r.1)) ∧ t.nor.fwDefault = s.nor.fwDefault)) ∧
  (∀ s : State, s.mbxReq 0x31 0 → (s.stby ≠ 1 → ∃ t, exec .coreSwitch s = .next t ∧ s.answered t 0xC [] ∧ s.onlyAnswered t) ∧
    (s.stby = 1 → ∃ t, exec .coreSwitch s = .next t ∧ s.answered t 0 [] ∧
      t.fld MBX_CORE fMBX_CORE_ACTIVE = 1 - s.fld MBX_CORE fMBX_CORE_ACTIVE ∧ t.stby = 0 ∧
      t.fld MBX_CORE fMBX_CORE_TAKEOVERS = min 65535 (s.fld MBX_CORE fMBX_CORE_TAKEOVERS + 1) ∧
      t.bit MBX_EVT_STAT fMBX_EVT_STAT_TAKEOVER = true ∧ t.rd HUB_FAULT_STAT = s.rd HUB_FAULT_STAT)) ∧
  (∀ (f : MbxFault) (cal : Bool) (s : State), s.mbxReq (if cal then 0x41 else 0x40) 0 →
    let c := if cal then Instr.calStore f else .safeStore f
    (f = .flash → ∃ t, exec c s = .next t ∧ s.answered t 0xB [] ∧ s.onlyAnswered t) ∧
    (f ≠ .flash → ∃ t gen, exec c s = .next t ∧ s.answered t 0 (leBytes gen 4) ∧ t.newest 0xA 0 0 (if cal then 0x41 else 0x40) 0 ∧
      (cal = false → (∀ x, s.nor.safeTable = some x → gen = (x.gen + 1) % 2 ^ 32) ∧
        ∃ x, (t.nor.safe.1 = some x ∨ t.nor.safe.2 = some x) ∧ x.gen = gen ∧ x.valid = true ∧ x.entries.length = 512 ∧
          ∀ n, n < 512 → s.tileGone (n / 128) = false → x.entries.getD n 0 = s.safeEntry n) ∧
      (cal = true → (∀ x, s.nor.calTable = some x → gen = (x.gen + 1) % 2 ^ 32) ∧
        ∃ x, (t.nor.cal.1 = some x ∨ t.nor.cal.2 = some x) ∧ x.gen = gen ∧ x.valid = true ∧ x.cert = s.sess.cert))) ∧
  (∀ s : State, s.mbxReq 0x42 4 → let w := s.arg 0
    let c := if w = 0 then s.nor.calTable else if w = 1 then s.nor.calCopies.1 else s.nor.calCopies.2
    (3 ≤ w → ∃ t, exec .calRestore s = .next t ∧ s.answered t 3 [] ∧ s.onlyAnswered t) ∧
    (w < 3 → c = none → ∃ t, exec .calRestore s = .next t ∧ s.answered t 6 [] ∧ s.onlyAnswered t) ∧
    (∀ x, w < 3 → c = some x → ∃ t, exec .calRestore s = .next t ∧ s.answered t 0 (leBytes x.gen 4) ∧
      t.nor = { s.nor with restored := some x })) ∧
  (∀ s : State, s.mbxReq 0x50 4 → ∃ t, exec (.setSubsys .none) s = .next t ∧ s.answered t 0 [] ∧
    t.nor = { s.nor with subsys := BitVec.ofNat 32 (s.arg 0) } ∧ t.newest 0xA 0 0 0x50 0)

/-- What Cobbler does on its own (R308, R347 to R354, R361, R365): a lost core is replaced by a READY standby, with FAULT_N, a running
command ending ABANDONED, in the log too where it had begun to change NOR, and the NOR copy it had begun left invalid, or leaves BUSY; a
probation ends with the old core reloaded; a conversion reads every sensor, with no core only for its alarms; each threshold has a level,
entered after four readings beyond it and left after four inside it by the margin, and a new alarm with ACT holds its scope; the event log
goes to NOR as the rate allows, entries that it does not allow are counted, and an entry that says so goes first, once the rate allows both; a
nonce expires; calibration is stored every 24 hours; a loading standby becomes READY or FAILED.
It states where these commands complete, and in what: probationEnd, sensorConversion, logMirror, nonceExpiry, calAutostore, standbyReady,
heartbeatMiss, coreException. -/
def Obligations.CobblerEvents : Prop :=
  (∀ (ex : Bool) (work : CoreWork) (s : State), let c := if ex then Instr.coreException work else .heartbeatMiss work
    (s.cob.up = false → exec c s = .next s) ∧
    (s.cob.up = true → s.stby ≠ 1 → ∃ t, exec c s = .next t ∧ t.cob = { s.cob with up := false } ∧ t.busy = true ∧
      s.regsOnly t [MBX_STAT] ∧ t.nor = (if work = .store then s.tearStore.nor else s.nor) ∧
      t = { s with regs := t.regs, cob := t.cob, nor := t.nor }) ∧
    (s.cob.up = true → s.stby = 1 → ∃ t, exec c s = .next t ∧ t.cob.up = true ∧
      t.fld MBX_CORE fMBX_CORE_ACTIVE = 1 - s.fld MBX_CORE fMBX_CORE_ACTIVE ∧ t.stby = 0 ∧
      t.fld MBX_CORE fMBX_CORE_TAKEOVERS = min 65535 (s.fld MBX_CORE fMBX_CORE_TAKEOVERS + 1) ∧
      t.bit MBX_EVT_STAT fMBX_EVT_STAT_TAKEOVER = true ∧ (t.rd HUB_FAULT_STAT).getLsbD 15 = true ∧
      t.bit HUB_FAULT_STAT fHUB_FAULT_STAT_ASSERTED = true ∧ (work ≠ .idle → s.answered t 0xE []) ∧
      ((work = .store ∨ (work = .command ∧ s.reqWord 0 % 2 ^ 16 = 0x30)) → t.newest 0xA 0 0 (s.reqWord 0 % 2 ^ 16) 0xE))) ∧
  (∀ s : State, ((s.cob.probation = none ∨ ∃ e, s.cob.probation = some e ∧ s.tick + 1 < e) → exec .probationEnd s = .next s) ∧
    (∀ e, s.cob.probation = some e → e ≤ s.tick + 1 → ∃ t, exec .probationEnd s = .next t ∧
      t.cob = { s.cob with probation := none, stbyImage := s.runImage } ∧ t.stby = 1 ∧
      t.bit MBX_CORE fMBX_CORE_PROBATION = false ∧ s.regsOnly t [MBX_CORE])) ∧
  (∀ (l : LevelSt) (beyond inside : Bool), let m := l.read beyond inside
    m.out = (if beyond then min 4 (l.out + 1) else 0) ∧ m.back = (if inside then min 4 (l.back + 1) else 0) ∧
    (l.on = false → (m.on = true ↔ m.out = 4)) ∧ (l.on = true → (m.on = false ↔ m.back = 4))) ∧
  (∀ (x : SensorSt) (i : Nat) (r : Int), let z := x.read i r
    let margin : Int := if i < 20 then 16 else railNominal i / 100
    z.reading = r ∧ z.wHi = x.wHi.read (x.warnHi < r) (r ≤ x.warnHi - margin) ∧ z.wLo = x.wLo.read (r < x.warnLo) (x.warnLo + margin ≤ r) ∧
    z.aHi = x.aHi.read (x.alarmHi < r) (r ≤ x.alarmHi - margin) ∧ z.aLo = x.aLo.read (r < x.alarmLo) (x.alarmLo + margin ≤ r) ∧
    z.warnHi = x.warnHi ∧ z.warnLo = x.warnLo ∧ z.alarmHi = x.alarmHi ∧ z.alarmLo = x.alarmLo ∧ z.act = x.act) ∧
  (∀ (r : List (Nat × Int)) (s : State), ((s.tick + 1) % 2000 ≠ 0 → exec (.sensorConversion r) s = .next s) ∧
    ((s.tick + 1) % 2000 = 0 → ∃ t, exec (.sensorConversion r) s = .next t ∧ ∀ i, i < 44 →
      let x := s.sensor i
      let z := x.read i (((r.find? (fun e => e.1 == i)).map (·.2)).getD x.reading)
      let y := if s.cob.up then z else { z with reading := x.reading, wHi := x.wHi, wLo := x.wLo }
      let enters (was now : LevelSt) : Bool := now.on && !was.on
      t.sensor i = y ∧ ((enters x.wHi y.wHi || enters x.wLo y.wLo) = true → t.bit MBX_EVT_STAT fMBX_EVT_STAT_WARN = true) ∧
      ((enters x.aHi y.aHi || enters x.aLo y.aLo) = true → t.bit MBX_EVT_STAT fMBX_EVT_STAT_ALARM = true ∧
        (x.act = true → ∀ g, g < 16 → (sensorScope i).testBit g = true → (t.fld MBX_ENV fMBX_ENV_HELD).testBit g = true ∧
          ∀ n ∈ chansOf g, (s.tick + 1, Later.hold n srcEnv true) ∈ t.later)))) ∧
  (∀ s : State, let credit := min 64000000 (s.cob.credit + (s.tick - s.cob.creditAt))
    ((s.cob.up = false ∨ s.log.unmirrored = 0) → exec .logMirror s = .next s) ∧
    (s.cob.up = true → s.log.unmirrored ≠ 0 → s.log.skipped ≠ 0 → s.log.unmirrored ≤ s.log.ring.length → credit < 250000 →
      exec .logMirror s = .next { s with
        log := { s.log with unmirrored := 0, skipped := s.log.skipped + s.log.unmirrored }
        cob := { s.cob with credit, creditAt := s.tick } }) ∧
    (s.cob.up = true → s.log.unmirrored ≠ 0 → s.log.skipped ≠ 0 → s.log.unmirrored ≤ s.log.ring.length →
      125000 * (s.log.unmirrored + 1) ≤ credit → s.log.nor.length + s.log.unmirrored + 1 ≤ 131072 → ∃ t e, exec .logMirror s = .next t ∧
        t.log.ring.head? = some e ∧ e.src = 0xA ∧ e.bit = 1 ∧ e.d0 = s.log.skipped ∧
        t.log.nor = s.log.ring.take s.log.unmirrored ++ e :: s.log.nor ∧ t.log.unmirrored = 0 ∧ t.log.skipped = 0 ∧
        t.cob.credit = credit - 125000 * (s.log.unmirrored + 1)) ∧
    (s.cob.up = true → s.log.unmirrored ≠ 0 → s.log.skipped = 0 → s.log.unmirrored ≤ s.log.ring.length →
      125000 * s.log.unmirrored ≤ credit →
      s.log.nor.length + s.log.unmirrored ≤ 131072 → ∃ t, exec .logMirror s = .next t ∧
        t.log.nor = s.log.ring.take s.log.unmirrored ++ s.log.nor ∧ t.log.unmirrored = 0 ∧ t.log.skipped = 0 ∧
        t.log.ring = s.log.ring ∧ t = { s with log := t.log, cob := t.cob })) ∧
  (∀ s : State, (∀ n e, s.cob.nonce = some (n, e) → e ≤ s.tick + 1 →
      exec .nonceExpiry s = .next { s with cob := { s.cob with nonce := none } }) ∧
    (∀ n e, s.cob.nonce = some (n, e) → s.tick + 1 < e → exec .nonceExpiry s = .next s) ∧
    (s.cob.nonce = none → exec .nonceExpiry s = .next s)) ∧
  (∀ s : State, let due := s.cob.up = true ∧ s.bit CAL_CTL fCAL_CTL_AUTOSTORE = true ∧ s.hours % 24 = 0 ∧ s.hours ≠ s.cob.storeHours
    (¬due → exec .calAutostore s = .next s) ∧
    (due → ∃ t x, exec .calAutostore s = .next t ∧ (t.nor.cal.1 = some x ∨ t.nor.cal.2 = some x) ∧
      (∀ y, s.nor.calTable = some y → x.gen = (y.gen + 1) % 2 ^ 32) ∧ t.cob = { s.cob with storeHours := s.hours } ∧
      t.regs = s.regs)) ∧
  (∀ (ok : Bool) (s : State), (s.cob.up = true → s.stby = 0 → ∃ t, exec (.standbyReady ok) s = .next t ∧
      t.rd MBX_CORE = fMBX_CORE_STBY_STATE.put (s.rd MBX_CORE) (if ok then 1 else 2) ∧ s.regsOnly t [MBX_CORE] ∧ s.onlyRegs t) ∧
    ((s.cob.up = false ∨ s.stby ≠ 0) → exec (.standbyReady ok) s = .next s))

/-- Power (R367 to R375, R404): a command for a cluster is pending to its tick, refused with its reason where a test holds the cluster, the
tile is away, the structure is missing or a passage goes on below the target, and a lower target cancels a passage, which ends in the state
reached unless the target is below it; OFF goes to PARK, PARK to
IDLE, IDLE to RUN and back step by step; a tile comes up or stays DOWN, and goes down at a tick (the coming one: log entry 38), only with its clusters OFF; the DRAM changes state in
its time and loses its contents in OFF.
It states where these commands complete, and in what: clusterPowerCmd, powerTransitionStart, parkSettled, idleReached, tileUp, tileUpDone,
tileDown, dramCmd, dramTransitionDone. -/
def Obligations.PowerCommands : Prop :=
  (∀ (m : Fin 65536) (target : Fin 4) (at_ : Bool) (s : State), ∃ t, exec (.clusterPowerCmd m target at_) s = .next t ∧
    let stamp := if at_ then some (s.rd64 PWR_CLU_AT_LO) else none
    ∀ g : Clu, (m.val.testBit g = false → t.rd (PWR_CLU_STAT g) = s.rd (PWR_CLU_STAT g) ∧ t.pwrSt g = s.pwrSt g) ∧
      (m.val.testBit g = true → s.jtag.test.testBit g = true → target ≠ 0 → t.bit (PWR_CLU_STAT g) fPWR_CLU_STAT_REFUSED = true ∧
        t.bit TST_STAT fTST_STAT_PWR_REFUSED = true ∧ t.pwrSt g = s.pwrSt g ∧
        (s.tileGone (g / 4) = true → t.bit (PWR_CLU_STAT g) fPWR_CLU_STAT_TILE_DOWN = true)) ∧
      (m.val.testBit g = true → ¬(s.jtag.test.testBit g = true ∧ target ≠ 0) →
        (s.tileGone (g / 4) = true → t.bit (PWR_CLU_STAT g) fPWR_CLU_STAT_REFUSED = true ∧
          t.bit (PWR_CLU_STAT g) fPWR_CLU_STAT_TILE_DOWN = true ∧ t.pwrSt g = s.pwrSt g) ∧
        (s.tileGone (g / 4) = false → target = 3 → s.activeValid g = false →
          t.bit (PWR_CLU_STAT g) fPWR_CLU_STAT_REFUSED = true ∧ t.bit (PWR_CLU_STAT g) fPWR_CLU_STAT_NO_STRUCT = true ∧
          t.pwrSt g = s.pwrSt g) ∧
        (s.tileGone (g / 4) = false → (target = 3 → s.activeValid g = true) →
          let moving := s.transit g = true ∨ ∃ x, (s.pwrSt g).goal = some x ∧ s.pwr g < x
          let cur := (s.pwrSt g).goal.getD (s.pwr g)
          let there := s.pwr g = target ∧ (s.pwrSt g).goal = none
          (∀ q, (s.pwrSt g).pend = some q →
            (q.target ≤ target → t.bit (PWR_CLU_STAT g) fPWR_CLU_STAT_REFUSED = true ∧ t.pwrSt g = s.pwrSt g) ∧
            (target < q.target → t.bit (PWR_CLU_STAT g) fPWR_CLU_STAT_CANCELLED = true ∧
              t.fld (PWR_CLU_STAT g) fPWR_CLU_STAT_TARGET = target ∧ (there → (t.pwrSt g).pend = none) ∧
              (¬there → (t.pwrSt g).pend = some ⟨target, s.sched stamp⟩))) ∧
          ((s.pwrSt g).pend = none → ¬moving → t.fld (PWR_CLU_STAT g) fPWR_CLU_STAT_TARGET = target ∧
            (there → t.pwrSt g = s.pwrSt g) ∧ (¬there → t.pwrSt g = { s.pwrSt g with pend := some ⟨target, s.sched stamp⟩ })) ∧
          ((s.pwrSt g).pend = none → moving →
            (cur < target → t.bit (PWR_CLU_STAT g) fPWR_CLU_STAT_REFUSED = true ∧ t.pwrSt g = s.pwrSt g) ∧
            (target = cur → t.rd (PWR_CLU_STAT g) = s.rd (PWR_CLU_STAT g) ∧ t.pwrSt g = s.pwrSt g) ∧
            (target.val < cur → t.bit (PWR_CLU_STAT g) fPWR_CLU_STAT_CANCELLED = true ∧ (t.pwrSt g).goal = none ∧
              t.fld (PWR_CLU_STAT g) fPWR_CLU_STAT_TARGET = target ∧
              (t.pwrSt g).pend = if target.val < s.pwr g then some ⟨target, s.sched stamp⟩ else none))))) ∧
  (∀ (g : Clu) (p : PwrPend) (s : State), (s.pwrSt g).pend = some p → s.due p.due = true →
    (s.pwr g = 0 → p.target ≠ 0 → ∃ t, exec (.powerTransitionStart g) s = .next t ∧ t.pwr g = 1 ∧ t.transit g = true ∧
      (t.pwrSt g).pend = none ∧ ∀ n ∈ chansOf g, t.heldBy n srcState = true) ∧
    (s.pwr g = 2 → p.target = 3 → (s.pwrSt g).entered + 2 ≤ s.tick + 1 → ∃ t, exec (.powerTransitionStart g) s = .next t ∧
      t.pwr g = 3 ∧ (t.pwrSt g).pend = none ∧ t.fld (PWR_CLU_STAT g) fPWR_CLU_STAT_RUN_ENTRIES =
        (s.fld (PWR_CLU_STAT g) fPWR_CLU_STAT_RUN_ENTRIES + 1) % 65536 ∧ ∀ n ∈ chansOf g, t.heldBy n srcState = false) ∧
    (p.target < s.pwr g → ∃ t, exec (.powerTransitionStart g) s = .next t ∧ t.pwr g = s.pwr g - 1 ∧ (t.pwrSt g).pend = none ∧
      (s.pwr g = 3 → ∀ n ∈ chansOf g, t.heldBy n srcState = true))) ∧
  (∀ (g : Clu) (s : State), s.pwr g = 1 → s.transit g = true → (s.pwrSt g).next = (s.pwrSt g).entered + 40 →
    (s.pwrSt g).next ≤ s.tick + 1 → (s.pwrSt g).goal = none → ∃ t, exec (.parkSettled g) s = .next t ∧ t.transit g = false ∧
      t.pwr g = 1 ∧ s.regsOnly t [PWR_CLU_STAT g] ∧ s.onlyRegs t) ∧
  (∀ (g : Clu) (x : Nat) (s : State), s.pwr g = 1 → s.transit g = true → (s.pwrSt g).next = (s.pwrSt g).entered + 200 →
    (s.pwrSt g).next ≤ s.tick + 1 → (s.pwrSt g).goal = some x → ∃ t, exec (.idleReached g) s = .next t ∧ t.pwr g = 2 ∧
      t.transit g = false ∧ (t.pwrSt g).goal = (if x = 3 then some 3 else none) ∧ s.regsOnly t [PWR_CLU_STAT g]) ∧
  (∀ (tiles : Fin 16) (s : State), (∃ t, exec (.tileUp tiles) s = .next t ∧ s.regsOnly t [PWR_TILE_STAT] ∧ s.onlyRegs t ∧
      ∀ k, k < 4 → (t.rd PWR_TILE_STAT).getLsbD (4 + k) =
        ((s.rd PWR_TILE_STAT).getLsbD (4 + k) || (tiles.val.testBit k && !s.tileOn k)) ∧ t.tileOn k = s.tileOn k) ∧
    (∃ t, exec (.tileDown tiles) s = .next t ∧ s.regsOnly t [PWR_TILE_STAT] ∧ ∀ k : Tile, t.tileOn k = s.tileOn k ∧
      (tiles.val.testBit k = true → s.tileOn k = true →
        ((∀ c, c < 4 → s.pwr (4 * k + c) = 0 ∧ s.jtag.test.testBit (4 * k + c) = false) →
          (t.rd PWR_TILE_STAT).getLsbD (4 + k) = true ∧ (s.tick + 1, Later.tileDown k) ∈ t.later) ∧
        ((∃ c, c < 4 ∧ (s.pwr (4 * k + c) ≠ 0 ∨ s.jtag.test.testBit (4 * k + c) = true)) →
          t.bit PWR_TILE_STAT fPWR_TILE_STAT_REFUSED = true)))) ∧
  (∀ (k : Tile) (s : State), let t := s.laterAct (.tileDown k)
    (t.rd PWR_TILE_STAT).getLsbD (4 + k) = false ∧
    (s.tileOn k = true → (∀ c, c < 4 → s.pwr (4 * k + c) = 0 ∧ s.jtag.test.testBit (4 * k + c) = false) → t.tileOn k = false ∧
      (s.halted = false → (∀ c, c < 4 → (s.fld MBX_ENV fMBX_ENV_HELD).testBit (4 * k + c) = false) → s.hub.supplyLow.testBit k = false →
        ∀ a, inTile k a = true → t.rd a = regReset a)) ∧
    (s.tileOn k = true → (∃ c, c < 4 ∧ (s.pwr (4 * k + c) ≠ 0 ∨ s.jtag.test.testBit (4 * k + c) = true)) → t.tileOn k = true ∧
      t.bit PWR_TILE_STAT fPWR_TILE_STAT_REFUSED = true)) ∧
  (∀ (k : Tile) (ok : Bool) (suspect : List (Fin 32)) (s : State),
    (((s.rd PWR_TILE_STAT).getLsbD (4 + k) = false ∨ s.tileOn k = true) → exec (.tileUpDone k ok suspect) s = .next s) ∧
    ((s.rd PWR_TILE_STAT).getLsbD (4 + k) = true → s.tileOn k = false → s.fld (PWR_STEP 9) fPWR_STEP_OUTCOME ≠ 3 →
      ∃ t, exec (.tileUpDone k false suspect) s = .next t ∧ t.tileOn k = false ∧
      (t.rd PWR_TILE_STAT).getLsbD (4 + k) = false ∧ s.regsOnly t [PWR_TILE_STAT] ∧ s.onlyRegs t)) ∧
  (∀ (k : Tile) (ok : Bool) (suspect : List (Fin 32)) (s : State), (s.rd PWR_TILE_STAT).getLsbD (4 + k) = true → s.tileOn k = false →
    (ok = true ∨ s.fld (PWR_STEP 9) fPWR_STEP_OUTCOME = 3) →
    ∃ t, exec (.tileUpDone k ok suspect) s = .next t ∧ t.tileOn k = true ∧ (t.rd PWR_TILE_STAT).getLsbD (4 + k) = false ∧
      t.isolated k = false ∧ t.nor = s.nor) ∧
  (∀ (target : Fin 4) (s : State), let st := s.fld PWR_DRAM_STAT fPWR_DRAM_STAT_STATE
    let barred := s.hub.dramGoal.isSome = true ∨ (st = 2 ∧ target ≠ 2 ∧ s.dramInUse = true)
    (target = 3 → exec (.dramCmd target) s = .next s) ∧
    (target ≠ 3 → barred → ∃ t, exec (.dramCmd target) s = .next t ∧
      t.rd PWR_DRAM_STAT = fPWR_DRAM_STAT_REFUSED.put (s.rd PWR_DRAM_STAT) 1 ∧ s.regsOnly t [PWR_DRAM_STAT] ∧ s.onlyRegs t) ∧
    (target ≠ 3 → ¬barred → st = target.val → exec (.dramCmd target) s = .next s) ∧
    (target ≠ 3 → ¬barred → st ≠ target.val → ∃ t, exec (.dramCmd target) s = .next t ∧ t.hub = { s.hub with dramGoal := some target.val } ∧
      t.rd PWR_DRAM_STAT = fPWR_DRAM_STAT_BUSY.put (s.rd PWR_DRAM_STAT) 1 ∧ s.regsOnly t [PWR_DRAM_STAT])) ∧
  (∀ (ok : Bool) (v : Nat) (s : State), s.hub.dramGoal = some v → v < 3 →
    let st := if s.fld PWR_DRAM_STAT fPWR_DRAM_STAT_STATE = 0 ∧ ok = false then 0 else v
    ∃ t, exec (.dramTransitionDone ok) s = .next t ∧ t.fld PWR_DRAM_STAT fPWR_DRAM_STAT_STATE = st ∧
      t.bit PWR_DRAM_STAT fPWR_DRAM_STAT_BUSY = false ∧ t.hub.dramGoal = none ∧ t.seqMem = (if st = 0 then [] else s.seqMem) ∧
      s.regsOnly t [PWR_DRAM_STAT])

/-- Resets, boot and the Tally (R8, R376 to R384, R410, R413): power-on puts every register at its reset value, the straps in SKL_STAT, and
keeps the flash; PERST_N, Hot Reset and the reset command reset what their scope names: the endpoint with its link down (WIDTH and SPEED then
read 0; log entry 33), and with PERST_N the PCI_ELOG registers and PCI_ELOG_STAT, no other register, host transfers of the engine ending with
LINK_DOWN (R280); or the device, 20 microseconds later with every channel held and the test port in Test-Logic-Reset; a method that takes
longer than its step's limit ends with TIMEOUT, one that takes twice as long hangs the boot at its step; a boot that does not hang is done; it
shows the method each step takes next; the watchdog starts a hung boot again; a Tally record that passes its CRC is read back newest first; a
Tally clear is pending until firmware has recorded it.
It states where these commands complete, and in what: powerOn, perstN, pwrRstCmd, boot, bootWatchdog, tallyClear, tallyClearRecord,
hotReset. -/
def Obligations.ResetsAndBoot : Prop :=
  (∀ (straps : Fin 8) (s : State), ∃ t, exec (.powerOn straps) s = .next t ∧ t.hub.boot = .pending ∧ t.hub.straps = straps ∧
    t.hub.perstLow = false ∧ t.hub.resetAt = none ∧ t.nor = s.nor ∧ t.hours = s.hours ∧ t.seqMem = [] ∧ t.banks = [] ∧ t.capMem = [] ∧
    t.live = [] ∧ t.later = [] ∧ t.dma = [] ∧ t.log.ring = [] ∧ t.rd PWR_RST_CAUSE = 1 ∧ t.fld SKL_STAT fSKL_STAT_STRAPS = straps ∧
    (s.hub.supplyLow = 0 → ∀ a, a ∉ [PWR_RST_CAUSE, HUB_HALT_STAT, SKL_STAT] → t.rd a = regReset a)) ∧
  (∀ s : State, exec (.perstN false) s =
      .next { s with hub := { s.hub with perstLow := false, bootMs := 0, relTick := s.tick } } ∧
    (s.bit PWR_RST_CTL fPWR_RST_CTL_PERST_SCOPE = true → ∃ t, exec (.perstN true) s = .next t ∧
      t.hub = { s.hub with perstLow := true, resetAt := some (s.tick + 40, 2) } ∧ (∀ n, n < 512 → t.heldBy n srcHalt = true) ∧
      t.fld TST_STAT fTST_STAT_IR = 1 ∧ t.jtag.test = 0 ∧ t.jtag.dr = idcodeWord)) ∧
  (∀ (perst : Bool) (s : State), (perst = true → s.bit PWR_RST_CTL fPWR_RST_CTL_PERST_SCOPE = false) →
    let cut (d : Nat) : Bool := match (s.dmaCh d).move with
      | some m => s.dmaActive d && (((m.ssp == 2 || m.dsp == 2) && decide (m.lines < m.total) && !s.tokenWait m) ||
          (m.dsp == 2 && m.barrier && decide (m.total ≤ m.lines)))
      | none => false
    let gone (a : Nat) : Prop := perst = true ∧ PCI_ELOG_STAT ≤ a ∧ a < 0x40000
    ∃ t, exec (if perst then .perstN true else .hotReset) s = .next t ∧
      (∀ a, gone a → t.rd a = regReset a) ∧
      t.rd PCI_LINK_STAT = fPCI_LINK_STAT_SPEED.put (fPCI_LINK_STAT_WIDTH.put (s.rd PCI_LINK_STAT) 0) 0 ∧
      (∀ a, ¬gone a → a ≠ PCI_LINK_STAT → a ≠ DMA_INT_STAT →
        (∀ d, d < 32 → a ≠ DMA_CH_STAT d ∧ a ≠ DMA_CH_RESIDUE d ∧ a ≠ DMA_CH_PART d) → t.rd a = s.rd a) ∧
      t.elogCount = (if perst then 0 else s.elogCount) ∧
      t.host = { mem := s.host.mem, sent := s.host.sent, subsys := s.host.subsys, pba := t.host.pba } ∧
      t.hub = { s.hub with perstLow := perst || s.hub.perstLow } ∧
      (∀ d, d < 32 → cut d = true → t.dmaState d = dmStopped ∧ t.fld (DMA_CH_STAT d) fDMA_CH_STAT_CODE = 4 ∧
        (t.rd DMA_INT_STAT).getLsbD d = true) ∧
      (∀ d, d < 32 → cut d = false → t.dmaCh d = s.dmaCh d ∧ ∀ a ∈ [DMA_CH_STAT d, DMA_CH_RESIDUE d, DMA_CH_PART d], t.rd a = s.rd a) ∧
      ((∀ d, d < 32 → cut d = false) → t.rd DMA_INT_STAT = s.rd DMA_INT_STAT ∧
        t = { s with regs := t.regs, host := t.host, hub := t.hub, elogCount := t.elogCount })) ∧
  (∀ (key : Fin 256) (s : State), ∃ t, exec (.pwrRstCmd key) s = .next t ∧
    t.hub.rstKey = (if key = 0x5A then some s.tick else none) ∧
    ((∃ x, key = 0xA5 ∧ s.hub.rstKey = some x ∧ s.tick ≤ x + 2000) → t.hub.resetAt = some (s.tick + 40, 4) ∧
      (∀ n, n < 512 → t.heldBy n srcHalt = true) ∧ t.fld TST_STAT fTST_STAT_IR = 1 ∧ t.jtag.test = 0) ∧
    (¬(∃ x, key = 0xA5 ∧ s.hub.rstKey = some x ∧ s.tick ≤ x + 2000) → t = { s with hub := { s.hub with rstKey := t.hub.rstKey } })) ∧
  (∀ (inp : BootIn) (s : State), ((s.hub.boot ≠ .pending ∨ s.hub.perstLow = true ∨ s.hub.resetAt.isSome = true) →
      exec (.boot inp) s = .next s) ∧
    (s.hub.boot = .pending → s.hub.perstLow = false → s.hub.resetAt = none → ∃ t, exec (.boot inp) s = .next t ∧
      (∀ n, n < 16 → t.fld (PWR_STEP n) fPWR_STEP_NEXT = stepMethod t.nor.tallyAll n) ∧
      (t.hub.boot = .done ∨ ∃ n, n < 16 ∧ t.hub.boot = .hung n ∧ t.fld (PWR_STEP n) fPWR_STEP_OUTCOME = 4 ∧
        ∃ alt, 2 * stepLimit n < bootTime inp n alt) ∧
      ((∀ n alt, n < 16 → bootTime inp n alt ≤ 2 * stepLimit n) → t.hub.boot = .done))) ∧
  (∀ (b : BootRun) (inp : BootIn) (n : Nat) (alt : Bool), stepLimit n < bootTime inp n alt → b.tries inp n alt = some 1) ∧
  (∀ (x : NorSt) (r : TallyRec), x.tally.length < 4096 →
    (x.tallyAdd r).tallyAll = if r.bad then x.tallyAll else r :: x.tallyAll) ∧
  (∀ s : State, (∀ n, s.hub.boot = .hung n → ∃ t, exec .bootWatchdog s = .next t ∧ t.hub = { s.hub with boot := .pending } ∧
      t.cob = { s.cob with up := false } ∧ t.rd PWR_RST_CAUSE = 8 ∧ t.rd PWR_BOOT_COUNT = 0 ∧ t.busy = true ∧ t.host = s.host ∧
      s.regsOnly t [PWR_RST_CAUSE, PWR_BOOT_COUNT, MBX_STAT]) ∧
    ((∀ n, s.hub.boot ≠ .hung n) → exec .bootWatchdog s = .next s)) ∧
  (∀ s : State, (∃ t, exec .tallyClear s = .next t ∧ t.rd PWR_BOOT = fPWR_BOOT_CLEAR_PENDING.put (s.rd PWR_BOOT) 1 ∧
      s.regsOnly t [PWR_BOOT] ∧ s.onlyRegs t) ∧
    (s.bit PWR_BOOT fPWR_BOOT_CLEAR_PENDING = true → s.cob.up = true → ∃ t r, exec .tallyClearRecord s = .next t ∧
      t.nor.tallyAll.head? = some r ∧ r.kind = .clear ∧ (∀ n, stepMethod t.nor.tallyAll n = 0) ∧
      t.bit PWR_BOOT fPWR_BOOT_CLEAR_PENDING = false ∧ t.bit PWR_BOOT fPWR_BOOT_CLEARED = true ∧ s.regsOnly t [PWR_BOOT]) ∧
    ((s.bit PWR_BOOT fPWR_BOOT_CLEAR_PENDING = false ∨ s.cob.up = false) → exec .tallyClearRecord s = .next s))

/-- FAULT_N, isolation, reference clocks and scrubbing (R387 to R392): a clear is decided at tick k+2; the two keys of an isolation, for the
same tiles within 1 ms, hold the tiles' channels and isolate them 20 microseconds later, a tile on its way keeping its time; a lost clock
moves the device to the other input, or to its oscillator, and is a cause of FAULT_N, at the end of the switch where it was in use; it moves
back only by command (a slew onto an input that is lost is given up: log entry 40); a scrubbed error is counted, an uncorrectable one logged with
its memory and address; one in Cobbler's SRAM also loads keys and policy from the flash again.
It states where these commands complete, and in what: faultClear, tileIsolate, isolationComplete, refclkLost, refclkGood, clockSelect,
clockSwitchDone, scrub. -/
def Obligations.FaultsAndClocks : Prop :=
  (∀ s : State, exec .faultClear s = .next { s with later := s.later ++ [(s.tick + 2, .faultClear)] }) ∧
  (∀ (key : Fin 256) (tiles : Fin 16) (s : State),
    let armed := ∃ x, s.hub.isoKey = some (x, tiles.val) ∧ s.tick ≤ x + 2000
    ∃ t, exec (.tileIsolate key tiles) s = .next t ∧ t.hub.isoKey = (if key = 0xC3 then some (s.tick, tiles.val) else none) ∧
      (¬(key = 0x3C ∧ armed) → t = { s with hub := { s.hub with isoKey := t.hub.isoKey } }) ∧
      (key = 0x3C ∧ armed → ∀ k : Tile, tiles.val.testBit k = true → s.isolated k = false →
        t.hub.isoAt.filter (fun x => x.1 == k.val) =
          (if s.hub.isoAt.any (fun x => x.1 == k.val) then s.hub.isoAt.filter (fun x => x.1 == k.val) else [(k.val, s.tick + 40)]) ∧
        (s.hub.isoAt.any (fun x => x.1 == k.val) = false → s.tileOn k = true → ∀ n, n / 128 = k.val → t.heldBy n srcHalt = true))) ∧
  (∀ (k : Tile) (s : State), s.hub.isoAt = [(k.val, s.tick + 1)] → ∃ t, exec .isolationComplete s = .next t ∧ t.hub.isoAt = [] ∧
    t.isolated k = true ∧ t.tileOn k = false ∧ (∀ c, c < 4 → t.pwr (4 * k + c) = 0) ∧
    ∀ j : Tile, j ≠ k → t.isolated j = s.isolated j ∧ t.tileOn j = s.tileOn j) ∧
  (∀ s : State, (∀ x ∈ s.hub.isoAt, s.tick + 1 < x.2) → exec .isolationComplete s = .next s) ∧
  (∀ (b : Bool) (s : State), (s.clkOk b = false → exec (.refclkLost b) s = .next s) ∧
    (s.clkOk b = true → ∃ t, exec (.refclkLost b) s = .next t ∧ t.clkOk b = false ∧
      (s.clkInt = true → t.clkInt = true ∧ t.clkActive = s.clkActive ∧ t.bit HUB_CLK_STAT (fClkLost b) = true ∧
        (t.rd HUB_FAULT_STAT).getLsbD 14 = true ∧ t.hub.clkGoal = (if s.hub.clkGoal = some b.toNat then none else s.hub.clkGoal)) ∧
      (s.clkInt = false → s.clkOk (!b) = false → t.clkInt = true ∧ t.hub.clkGoal = none ∧
        t.bit HUB_CLK_STAT fHUB_CLK_STAT_SWITCHING = false ∧ t.bit HUB_CLK_STAT fHUB_CLK_STAT_A_LOST = true ∧
        t.bit HUB_CLK_STAT fHUB_CLK_STAT_B_LOST = true ∧ (t.rd HUB_FAULT_STAT).getLsbD 14 = true) ∧
      (s.clkInt = false → s.clkOk (!b) = true → s.clkActive = b →
        t.hub = { s.hub with clkGoal := some (!b).toNat, clkLost := true } ∧
        t.bit HUB_CLK_STAT fHUB_CLK_STAT_SWITCHING = true ∧ t.clkActive = b ∧ s.regsOnly t [HUB_CLK_STAT]) ∧
      (s.clkInt = false → s.clkOk (!b) = true → s.clkActive ≠ b → t.bit HUB_CLK_STAT (fClkLost b) = true ∧
        (t.rd HUB_FAULT_STAT).getLsbD 14 = true ∧ t.clkActive = s.clkActive ∧
        (s.hub.clkGoal ≠ some b.toNat → t.hub = s.hub) ∧
        (s.hub.clkGoal = some b.toNat → t.hub = { s.hub with clkGoal := none, clkLost := false } ∧
          (s.hub.clkLost = true → t.bit HUB_CLK_STAT (fClkLost (!b)) = true)))) ∧
    (∃ t, exec (.refclkGood b) s = .next t ∧ t.clkOk b = true ∧ t.clkActive = s.clkActive ∧ s.regsOnly t [HUB_CLK_STAT] ∧
      s.onlyRegs t)) ∧
  (∀ (b : Bool) (s : State),
    let may := (s.clkActive ≠ b ∨ s.clkInt = true) ∧ s.clkOk b = true
    (¬may → exec (.clockSelect b) s = .next s) ∧
    (may → ∃ t, exec (.clockSelect b) s = .next t ∧ t.bit HUB_CLK_CTL fHUB_CLK_CTL_SEL = b ∧ t.hub = { s.hub with clkGoal := some b.toNat } ∧
      t.bit HUB_CLK_STAT fHUB_CLK_STAT_SWITCHING = true ∧ s.regsOnly t [HUB_CLK_CTL, HUB_CLK_STAT])) ∧
  (∀ s : State, (s.hub.clkGoal = none → exec .clockSwitchDone s = .next s) ∧
    (∀ b : Bool, s.hub.clkGoal = some b.toNat → ∃ t, exec .clockSwitchDone s = .next t ∧ t.clkActive = b ∧
      t.hub = { s.hub with clkGoal := none, clkLost := false } ∧
      t.bit HUB_CLK_STAT fHUB_CLK_STAT_SWITCHING = false ∧ t.clkInt = false ∧
      t.bit HUB_CLK_STAT fHUB_CLK_STAT_SWITCHED = true ∧ t.fld HUB_CLK_STAT fHUB_CLK_STAT_SWITCHES =
        min 255 (s.fld HUB_CLK_STAT fHUB_CLK_STAT_SWITCHES + 1) ∧
      (s.hub.clkLost = false → s.regsOnly t [HUB_CLK_STAT]) ∧
      (s.hub.clkLost = true →
        t.bit HUB_CLK_STAT (fClkLost (!b)) = true ∧ (t.rd HUB_FAULT_STAT).getLsbD 14 = true))) ∧
  (∀ (mem : Fin 7) (g : Clu) (addr : Nat) (ue : Bool) (s : State),
    let known := mem.val ∈ [1, 2, 5, 6]
    (¬known → exec (.scrub mem g addr ue) s = .next s) ∧
    (known → ue = false → ∃ t, exec (.scrub mem g addr ue) s = .next t ∧ t.bit HUB_ECC_STAT fHUB_ECC_STAT_CE = true ∧
      (t.rd HUB_ECC_CE).toNat = min (2 ^ 32 - 1) ((s.rd HUB_ECC_CE).toNat + 1) ∧ s.regsOnly t [HUB_ECC_STAT, HUB_ECC_CE] ∧
      s.onlyRegs t) ∧
    (known → ue = true → mem ≠ 6 → addr < 2 ^ 32 → ∃ t, exec (.scrub mem g addr ue) s = .next t ∧
      t.bit HUB_ECC_STAT fHUB_ECC_STAT_UE = true ∧ t.fld HUB_ECC_STAT fHUB_ECC_STAT_MEM = mem ∧
      t.fld HUB_ECC_STAT fHUB_ECC_STAT_CLUSTER = (if mem = 1 ∨ mem = 2 then g.val else 0) ∧
      t.rd HUB_ECC_ADDR = BitVec.ofNat 32 addr ∧ (t.rd HUB_FAULT_STAT).getLsbD 13 = true ∧ t.newest 0xC 9 HUB_ECC_STAT 0 0 ∧
      (∀ h b, mem = 2 → bankOf addr = some (h, b) → (b = s.activeBank h → (t.cluster h).bankBad = true) ∧
        (b ≠ s.activeBank h → t.fld (CLU_BANK_STAT h) fCLU_BANK_STAT_STBY_VALID = 0)) ∧
      (mem = 1 → t.coefBad.any (fun e => e.1 == addr / 4 * 4) = true ∧
        ∀ e, (s.coefBad ++ s.coefOld).find? (fun e => e.1 == addr / 4 * 4) = some e → (addr / 4 * 4, e.2) ∈ t.coefBad)) ∧
    (mem = 6 → ue = true → ∃ t, exec (.scrub mem g addr ue) s = .next t ∧ t.bit HUB_ECC_STAT fHUB_ECC_STAT_UE = true ∧
      t.fld HUB_ECC_STAT fHUB_ECC_STAT_MEM = 6 ∧ (t.rd HUB_FAULT_STAT).getLsbD 13 = true ∧ t.cob.keys = s.nor.keys ∧
      t.polSigned = s.nor.polSigned))

/-- The test access port (R398 to R403, R405 to R407): Test-Logic-Reset selects IDCODE and every segment and ends test mode, and TRST_N low
holds the port there; an instruction is shown in IR and selects its data register; a test-mode instruction puts the segments included in test
mode, those of clusters out of OFF or isolated being excluded, the hub's taking the link and the ports down; locked, it does not; a scan
captures each cell and loads it with what then stands there, shifted; a ball of a segment in test mode follows its cell, high impedance where
its control cell is 0; under HIGHZ none is driven; SEGSEL loads the segment select register.
It states where these commands complete, and in what: idcode, samplePreload, highz, ecidcode, segsel, bypass, testLock, tapReset, trstN,
extest, clamp, extestPulse, extestTrain. -/
def Obligations.BoundaryScan : Prop :=
  (∀ (trst : Bool) (s : State), ∃ t, exec (if trst then .trstN else .tapReset) s = .next t ∧ t.fld TST_STAT fTST_STAT_IR = 1 ∧
    t.rd TST_SEG_SEL = 0x1FFFF ∧ t.jtag.test = 0 ∧ t.bit TST_STAT fTST_STAT_TEST_MODE = false ∧ t.jtag.dr = idcodeWord ∧
    t.jtag.len = 32 ∧ t.jtag.trst = (trst || s.jtag.trst) ∧ s.regsOnly t [TST_STAT, TST_SEG_SEL]) ∧
  (∀ (c : Instr) (x : TapScan) (sel : Fin 131072) (s : State), s.jtag.trst = true →
    c ∈ [Instr.idcode, .ecidcode, .bypass, .samplePreload x, .extest x, .clamp, .highz, .extestPulse x, .extestTrain x, .segsel sel] →
    exec c s = .next s) ∧
  (∀ s : State, s.jtag.trst = false → ∃ t u v w, exec .idcode s = .next t ∧ t.fld TST_STAT fTST_STAT_IR = 1 ∧ t.jtag.dr = idcodeWord ∧
    t.jtag.len = 32 ∧ exec .ecidcode s = .next u ∧ u.fld TST_STAT fTST_STAT_IR = 8 ∧ u.jtag.dr = Config.uid.toNat ∧ u.jtag.len = 64 ∧
    exec .bypass s = .next v ∧ v.fld TST_STAT fTST_STAT_IR = 0xFF ∧ v.jtag.dr = 0 ∧ v.jtag.len = 1 ∧
    exec (.samplePreload ⟨none, true⟩) s = .next w ∧ w.fld TST_STAT fTST_STAT_IR = 2 ∧
    t.jtag.test = 0 ∧ u.jtag.test = 0 ∧ v.jtag.test = 0 ∧ w.jtag.test = 0 ∧
    ∀ x ∈ [t, u, v, w], s.regsOnly x [TST_STAT, TST_SEG_IN] ∧ x.jtag.cells = s.jtag.cells ∧ x.jtag.ir = 1) ∧
  (∀ (sel : Fin 131072) (s : State), s.jtag.trst = false → ∃ t, exec (.segsel sel) s = .next t ∧ t.fld TST_STAT fTST_STAT_IR = 9 ∧
    t.rd TST_SEG_SEL = BitVec.ofNat 32 sel ∧ t.jtag.len = 17 ∧ t.jtag.dr = (s.rd TST_SEG_SEL).toNat ∧
    (∀ g, g < 17 → (t.rd TST_SEG_IN).getLsbD g = (sel.val.testBit g && !s.segOut g)) ∧
    ((∃ g, g < 17 ∧ sel.val.testBit g = true ∧ s.segOut g = true) → t.bit TST_STAT fTST_STAT_EXCLUDED = true) ∧
    s.regsOnly t [TST_STAT, TST_SEG_SEL, TST_SEG_IN]) ∧
  (∀ (c : Instr) (op : Nat) (scan : Option BScan) (s : State), s.jtag.trst = false →
    (c, op) ∈ [(.extest ⟨scan, true⟩, 3), (.clamp, 4), (.highz, 5), (.extestPulse ⟨scan, true⟩, 6), (.extestTrain ⟨scan, true⟩, 7)] →
    ∃ t, exec c s = .next t ∧ t.fld TST_STAT fTST_STAT_IR = op ∧
      (∀ g, g < 17 → (t.rd TST_SEG_IN).getLsbD g = ((s.rd TST_SEG_SEL).getLsbD g && !s.segOut g)) ∧
      (s.bit TST_CTL fTST_CTL_TEST_LOCK = true → t.jtag.test = 0 ∧ t.jtag.cells = s.jtag.cells) ∧
      (s.bit TST_CTL fTST_CTL_TEST_LOCK = false → ∀ g, g < 17 →
        t.jtag.test.testBit g = ((s.rd TST_SEG_SEL).getLsbD g && !s.segOut g)) ∧
      (t.segTest 16 = true → s.segTest 16 = false → t.host.linkUp = false ∧ t.portUp false = false ∧ t.portUp true = false)) ∧
  (∀ (c : TapScan → Instr) (op : Nat) (s : State), s.jtag.trst = false →
    (c = .samplePreload ∧ op = 2 ∨ c = .extest ∧ op = 3 ∨ c = .extestPulse ∧ op = 6 ∨ c = .extestTrain ∧ op = 7) →
    (s.fld TST_STAT fTST_STAT_IR ≠ op → ∀ x, exec (c ⟨x, false⟩) s = .next s) ∧
    ∀ (b : BScan) (load : Bool), s.bit TST_CTL fTST_CTL_TEST_LOCK = false → (load = true ∨ s.fld TST_STAT fTST_STAT_IR = op) →
      ∃ u t, exec (c ⟨none, load⟩) s = .next u ∧ exec (c ⟨some b, load⟩) s = .next t ∧ (load = false → u = s) ∧
        let path := u.scanPath
        let n := path.length
        let k := min n b.shifts
        t = { u with jtag := t.jtag } ∧ t.jtag.len = n ∧ t.jtag.test = u.jtag.test ∧
        (∀ i, i < n → t.jtag.dr.testBit i = (u.cellLevel (path.getD i 0)).getD (b.sampled.testBit i)) ∧
        ∀ i, i < n → SMap.get false t.jtag.cells (path.getD i 0) =
          if i + k < n then t.jtag.dr.testBit (i + k) else b.shifted.testBit (i + k - n)) ∧
  (∀ s : State, s.jtag.trst = false → s.bit TST_CTL fTST_CTL_TEST_LOCK = false → ∃ t, exec .highz s = .next t ∧
    (∀ l, t.segTest (l / 8) = true → t.evlPin l = none) ∧
    (∀ q k i, t.segTest (q / 8) = true → t.rangePin q k i = none) ∧
    (t.segTest 16 = true → t.wakePin = none ∧ t.faultPin = none ∧ (∀ b, t.trgPin b = none) ∧ ∀ p tck, t.txPin p tck = none) ∧
    ∀ g, t.segTest g = true → t.isolated (g / 4) = false → t.mrkPin g = none) ∧
  (∀ s : State, s.fld TST_STAT fTST_STAT_IR ≠ 5 →
    let ball (g cell ctl : Nat) : Option Bool :=
      if SMap.get false s.jtag.cells (64 * g + ctl) then some (SMap.get false s.jtag.cells (64 * g + cell)) else none
    ∀ g, s.segTest g = true → s.isolated (g / 4) = false → g < 16 →
      (∀ j, j < 8 → s.evlPin (8 * g + j) = ball g (26 + 3 * j) (27 + 3 * j)) ∧ s.mrkPin g = ball g 49 50 ∧
      ∀ j k i, j < 8 → k < 3 → s.rangePin (8 * g + j) k i = ball g (3 * j + k) 24) ∧
  (∀ (on : Bool) (s : State), ∃ t, exec (.testLock on) s = .next t ∧ t.bit TST_CTL fTST_CTL_TEST_LOCK = on ∧
    t.jtag.test = (if on then 0 else s.jtag.test) ∧ t.jtag.cells = s.jtag.cells ∧ s.regsOnly t [TST_CTL, TST_STAT])
end

