-- ==== Sys2Proof/Laws/Field.lean ====
section
/-!
SUPPORT. Bit fields: what a field reads as after a field was replaced.
-/

namespace Sys2Proof.Machine

theorem Fld.testBit_get (f : Fld) (w : Word) (i : Nat) :
    (f.get w).testBit i = (decide (i < f.width) && w.getLsbD (f.lsb + i)) := by
  simp [get, Nat.testBit_mod_two_pow, Nat.testBit_div_two_pow, BitVec.getLsbD, Nat.add_comm]

theorem Fld.getLsbD_put (f : Fld) (w : Word) (v i : Nat) (hi : i < 32) :
    (f.put w v).getLsbD i = if f.lsb ≤ i ∧ i < f.lsb + f.width then v.testBit (i - f.lsb) else w.getLsbD i := by
  have key : (BitVec.ofNat 32 ((2 ^ f.width - 1) * 2 ^ f.lsb)).getLsbD i = decide (f.lsb ≤ i ∧ i < f.lsb + f.width) := by
    rw [BitVec.getLsbD_ofNat, Nat.testBit_mul_two_pow, Nat.testBit_two_pow_sub_one]
    by_cases h1 : f.lsb ≤ i <;> by_cases h2 : i < f.lsb + f.width <;> simp [h1, h2, hi] <;> omega
  have hv : (BitVec.ofNat 32 (v * 2 ^ f.lsb)).getLsbD i = (decide (f.lsb ≤ i) && v.testBit (i - f.lsb)) := by
    rw [BitVec.getLsbD_ofNat, Nat.testBit_mul_two_pow]
    simp [hi]
  simp only [put, BitVec.getLsbD_or, BitVec.getLsbD_and, BitVec.getLsbD_not, key, hv, hi]
  by_cases h : f.lsb ≤ i ∧ i < f.lsb + f.width
  · simp [h]
  · simp [h]

/-- A field that lies within a word reads as what was put there. -/
theorem Fld.get_put (f : Fld) (w : Word) (v : Nat) (h : f.lsb + f.width ≤ 32) : f.get (f.put w v) = v % 2 ^ f.width := by
  apply Nat.eq_of_testBit_eq
  intro i
  rw [testBit_get, Nat.testBit_mod_two_pow]
  by_cases hi : i < f.width
  · rw [getLsbD_put f w v _ (by omega), if_pos ⟨by omega, by omega⟩]
    simp [hi]
  · simp [hi]

/-- Replacing a field leaves every field apart from it alone. -/
theorem Fld.get_put_ne (f g : Fld) (w : Word) (v : Nat) (h : g.lsb + g.width ≤ f.lsb ∨ f.lsb + f.width ≤ g.lsb) :
    g.get (f.put w v) = g.get w := by
  apply Nat.eq_of_testBit_eq
  intro i
  rw [testBit_get, testBit_get]
  by_cases hi : i < g.width
  · by_cases h32 : g.lsb + i < 32
    · rw [getLsbD_put f w v _ h32, if_neg (by omega)]
    · simp [BitVec.getLsbD_of_ge _ _ (Nat.le_of_not_lt h32)]
  · simp [hi]

end Sys2Proof.Machine
end

