-- ==== Sys2Proof/Laws/Map.lean ====
section
/-!
SUPPORT. Sparse maps and memories: what a read gives after a write, and that every operation keeps the canonical form. The read laws
hold of every list, canonical or not.
-/

namespace Sys2Proof.Machine

theorem SMap.erase_cons {α : Type} (k' k : Nat) (v : α) (m : SMap α) :
    erase ((k', v) :: m) k = if k' = k then erase m k else (k', v) :: erase m k := by
  by_cases h : k' = k <;> simp [erase, h]

theorem SMap.get_erase_same {α : Type} (d : α) (m : SMap α) (k : Nat) : get d (erase m k) k = d := by
  induction m with
  | nil => rfl
  | cons e m ih =>
    rw [erase_cons]
    split
    · exact ih
    · rw [get, if_neg (by assumption), ih]

theorem SMap.get_erase_ne {α : Type} (d : α) (m : SMap α) {k j : Nat} (h : j ≠ k) : get d (erase m k) j = get d m j := by
  induction m with
  | nil => rfl
  | cons e m ih =>
    rw [erase_cons]
    split
    · rename_i h'
      rw [ih, get, if_neg (by omega)]
    · rw [get, get, ih]

theorem SMap.get_insert_same {α : Type} (d : α) (k : Nat) (v : α) (m : SMap α) (h : ∀ e ∈ m, e.1 ≠ k) :
    get d (insert k v m) k = v := by
  induction m with
  | nil => simp [insert, get]
  | cons e m ih =>
    obtain ⟨k', v'⟩ := e
    have hk : k' ≠ k := h _ List.mem_cons_self
    have ih' := ih (fun e he => h e (List.mem_cons_of_mem _ he))
    simp only [insert]
    split
    · simp [get]
    · simp [get, hk, ih']

theorem SMap.get_insert_ne {α : Type} (d : α) {k j : Nat} (v : α) (m : SMap α) (h : j ≠ k) :
    get d (insert k v m) j = get d m j := by
  induction m with
  | nil => simp [insert, get, Ne.symm h]
  | cons e m ih =>
    obtain ⟨k', v'⟩ := e
    simp only [insert]
    split
    · simp [get, Ne.symm h]
    · simp [get, ih]

theorem SMap.erase_key {α : Type} {m : SMap α} {k : Nat} {e : Nat × α} (h : e ∈ erase m k) : e.1 ≠ k ∧ e ∈ m := by
  simp only [erase, List.mem_filter] at h
  exact ⟨by simpa using h.2, h.1⟩

/-- A write is read back. -/
@[simp] theorem SMap.get_set_same {α : Type} [DecidableEq α] (d : α) (m : SMap α) (k : Nat) (v : α) : get d (set d m k v) k = v := by
  unfold set
  split
  · rename_i h
    rw [get_erase_same, h]
  · exact get_insert_same d k v _ (fun e he => (erase_key he).1)

/-- A write leaves every other key alone. -/
theorem SMap.get_set_ne {α : Type} [DecidableEq α] (d d' : α) (m : SMap α) {k j : Nat} (v : α) (h : j ≠ k) :
    get d' (set d m k v) j = get d' m j := by
  unfold set
  split
  · exact get_erase_ne d' m h
  · rw [get_insert_ne d' v _ h, get_erase_ne d' m h]

/-- What a key reads as after a write. -/
theorem SMap.get_set {α : Type} [DecidableEq α] (d : α) (m : SMap α) (k j : Nat) (v : α) :
    get d (set d m k v) j = if j = k then v else get d m j := by
  split
  · rename_i h
    rw [h, get_set_same]
  · exact get_set_ne d d m v (by assumption)

/-! ### Canonical form -/

/-- The canonical form as a proposition. -/
theorem SMap.wf_iff {α : Type} [DecidableEq α] (d : Nat → α) (m : SMap α) :
    wf d m = true ↔ m.Pairwise (fun a b => a.1 < b.1) ∧ ∀ e ∈ m, e.2 ≠ d e.1 := by
  simp [wf]

theorem SMap.mem_insert {α : Type} {k : Nat} {v : α} {m : SMap α} {e : Nat × α} (h : e ∈ insert k v m) : e = (k, v) ∨ e ∈ m := by
  induction m with
  | nil => simpa [insert] using h
  | cons e' m ih =>
    obtain ⟨k', v'⟩ := e'
    simp only [insert] at h
    split at h
    · rcases List.mem_cons.1 h with h | h
      · exact .inl h
      · exact .inr h
    · rcases List.mem_cons.1 h with h | h
      · exact .inr (h ▸ List.mem_cons_self)
      · rcases ih h with h | h
        · exact .inl h
        · exact .inr (List.mem_cons_of_mem _ h)

theorem SMap.insert_sorted {α : Type} (k : Nat) (v : α) (m : SMap α) (hm : m.Pairwise (fun a b => a.1 < b.1))
    (hk : ∀ e ∈ m, e.1 ≠ k) : (insert k v m).Pairwise (fun a b => a.1 < b.1) := by
  induction m with
  | nil => simp [insert]
  | cons e m ih =>
    obtain ⟨k', v'⟩ := e
    have hm' := List.pairwise_cons.1 hm
    have hne : k' ≠ k := hk (k', v') List.mem_cons_self
    simp only [insert]
    split
    · rename_i hlt
      refine List.pairwise_cons.2 ⟨fun e he => ?_, hm⟩
      rcases List.mem_cons.1 he with he | he
      · exact he ▸ hlt
      · exact Nat.lt_trans hlt (hm'.1 e he)
    · rename_i hlt
      refine List.pairwise_cons.2 ⟨fun e he => ?_, ih hm'.2 (fun e he => hk e (List.mem_cons_of_mem _ he))⟩
      rcases mem_insert he with he | he
      · subst he
        show k' < k
        omega
      · exact hm'.1 e he

/-- A write keeps the canonical form. -/
theorem SMap.wf_set {α : Type} [DecidableEq α] (d : Nat → α) (m : SMap α) (k : Nat) (v : α) (h : wf d m = true) :
    wf d (set (d k) m k v) = true := by
  rw [wf_iff] at *
  have he : (erase m k).Pairwise (fun a b => a.1 < b.1) := h.1.filter _
  unfold set
  split
  · exact ⟨he, fun e hm => h.2 e (erase_key hm).2⟩
  · rename_i hv
    refine ⟨insert_sorted k v _ he (fun e hm => (erase_key hm).1), fun e hm => ?_⟩
    rcases mem_insert hm with hm | hm
    · subst hm
      exact hv
    · exact h.2 e (erase_key hm).2

/-- Dropping entries keeps the canonical form. -/
theorem SMap.wf_filter {α : Type} [DecidableEq α] (d : Nat → α) (m : SMap α) (p : Nat × α → Bool) (h : wf d m = true) :
    wf d (m.filter p) = true := by
  rw [wf_iff] at *
  exact ⟨h.1.filter _, fun e hm => h.2 e (List.mem_filter.1 hm).1⟩

/-! ### Memories -/

@[simp] theorem Mem.wf_nil : Mem.wf [] = true := by decide
@[simp] theorem Mem.read_nil (a : Nat) : Mem.read [] a = 0 := rfl
@[simp] theorem Mem.read_write_same (m : Mem) (a : Nat) (b : Byte) : (Mem.write m a b).read a = b := SMap.get_set_same ..
theorem Mem.read_write_ne (m : Mem) {a c : Nat} (b : Byte) (h : c ≠ a) : (Mem.write m a b).read c = m.read c :=
  SMap.get_set_ne 0 0 m b h

theorem Mem.wf_write (m : Mem) (a : Nat) (b : Byte) (h : m.wf = true) : (Mem.write m a b).wf = true :=
  SMap.wf_set (fun _ => (0 : Byte)) m a b h
theorem Mem.wf_filter (m : Mem) (p : Host.Cell → Bool) (h : m.wf = true) : Mem.wf (m.filter p) = true := SMap.wf_filter _ m p h

theorem Mem.wf_writeBytes (m : Mem) (a : Nat) (bs : List Byte) (h : m.wf = true) : (Mem.writeBytes m a bs).wf = true := by
  induction bs generalizing m a with
  | nil => exact h
  | cons b bs ih => exact ih _ _ (wf_write m a b h)

theorem Mem.wf_writeLE (m : Mem) (a v n : Nat) (h : m.wf = true) : (Mem.writeLE m a v n).wf = true := by
  induction n generalizing m a v with
  | zero => exact h
  | succ n ih => exact ih _ _ _ (wf_write m a _ h)

/-- Writing bytes leaves every address outside them alone. -/
theorem Mem.read_writeBytes_ne (m : Mem) (a : Nat) (bs : List Byte) {c : Nat} (h : c < a ∨ a + bs.length ≤ c) :
    (Mem.writeBytes m a bs).read c = m.read c := by
  induction bs generalizing m a with
  | nil => rfl
  | cons b bs ih =>
    simp only [List.length_cons] at h
    rw [writeBytes, ih _ _ (by omega), read_write_ne m b (by omega)]

/-- A byte written is read back. -/
theorem Mem.read_writeBytes_at (m : Mem) (a : Nat) (bs : List Byte) (i : Nat) (h : i < bs.length) :
    (Mem.writeBytes m a bs).read (a + i) = bs[i] := by
  induction bs generalizing m a i with
  | nil => simp at h
  | cons b bs ih =>
    rw [writeBytes]
    cases i with
    | zero => rw [read_writeBytes_ne _ _ _ (by omega)]; simp
    | succ i =>
      have := ih (write m a b) (a + 1) i (by simpa using h)
      rw [show a + (i + 1) = a + 1 + i by omega, this]
      rfl

/-- Writing a number leaves every address outside its bytes alone. -/
theorem Mem.read_writeLE_ne (m : Mem) (a v n : Nat) {c : Nat} (h : c < a ∨ a + n ≤ c) : (Mem.writeLE m a v n).read c = m.read c := by
  induction n generalizing m a v with
  | zero => rfl
  | succ n ih => rw [writeLE, ih _ _ _ (by omega), read_write_ne m _ (by omega)]

end Sys2Proof.Machine
end

