-- ==== Sys2Proof/Laws/State.lean ====
section
/-!
SUPPORT. State: what each update leaves as it is (one theorem per update, a conjunction over the other fields), and what a read gives
after a write.
-/

namespace Sys2Proof.Machine

/-! ### Fields an update leaves -/

@[simp] theorem State.wr_fields (s : State) (a : Nat) (w : Word) :
    (s.wr a w).tick = s.tick ∧ (s.wr a w).live = s.live ∧ (s.wr a w).latches = s.latches ∧
    (s.wr a w).phase = s.phase ∧ (s.wr a w).ch = s.ch ∧ (s.wr a w).clu = s.clu ∧
    (s.wr a w).quad = s.quad ∧ (s.wr a w).lanes = s.lanes ∧ (s.wr a w).grps = s.grps ∧
    (s.wr a w).dma = s.dma ∧ (s.wr a w).ramps = s.ramps ∧ (s.wr a w).sess = s.sess ∧
    (s.wr a w).wtrim = s.wtrim ∧ (s.wr a w).taps = s.taps ∧ (s.wr a w).hours = s.hours ∧
    (s.wr a w).shares = s.shares ∧ (s.wr a w).sums = s.sums ∧ (s.wr a w).aux = s.aux ∧ (s.wr a w).laneIn = s.laneIn ∧
    (s.wr a w).faultTick = s.faultTick ∧ (s.wr a w).hubCommit = s.hubCommit ∧ (s.wr a w).log = s.log ∧
    (s.wr a w).host = s.host ∧ (s.wr a w).skl = s.skl ∧ (s.wr a w).elogCount = s.elogCount ∧
    (s.wr a w).isoLogged = s.isoLogged ∧ (s.wr a w).dramLogged = s.dramLogged ∧ (s.wr a w).coefBad = s.coefBad ∧
    (s.wr a w).coefOld = s.coefOld ∧ (s.wr a w).polSigned = s.polSigned ∧ (s.wr a w).cob = s.cob ∧
    (s.wr a w).nor = s.nor ∧ (s.wr a w).hub = s.hub ∧ (s.wr a w).jtag = s.jtag ∧
    (s.wr a w).banks = s.banks ∧ (s.wr a w).seqMem = s.seqMem ∧ (s.wr a w).capMem = s.capMem ∧
    (s.wr a w).later = s.later ∧ (s.wr a w).freeCount = s.freeCount ∧ (s.wr a w).pending = s.pending := by
  repeat' (refine And.intro rfl ?_)
  rfl

@[simp] theorem State.wl_fields (s : State) (a : Nat) (w : Word) :
    (s.wl a w).tick = s.tick ∧ (s.wl a w).regs = s.regs ∧ (s.wl a w).latches = s.latches ∧
    (s.wl a w).phase = s.phase ∧ (s.wl a w).ch = s.ch ∧ (s.wl a w).clu = s.clu ∧
    (s.wl a w).quad = s.quad ∧ (s.wl a w).lanes = s.lanes ∧ (s.wl a w).grps = s.grps ∧
    (s.wl a w).dma = s.dma ∧ (s.wl a w).ramps = s.ramps ∧ (s.wl a w).sess = s.sess ∧
    (s.wl a w).wtrim = s.wtrim ∧ (s.wl a w).taps = s.taps ∧ (s.wl a w).hours = s.hours ∧
    (s.wl a w).shares = s.shares ∧ (s.wl a w).sums = s.sums ∧ (s.wl a w).aux = s.aux ∧ (s.wl a w).laneIn = s.laneIn ∧
    (s.wl a w).faultTick = s.faultTick ∧ (s.wl a w).hubCommit = s.hubCommit ∧ (s.wl a w).log = s.log ∧
    (s.wl a w).host = s.host ∧ (s.wl a w).skl = s.skl ∧ (s.wl a w).elogCount = s.elogCount ∧
    (s.wl a w).isoLogged = s.isoLogged ∧ (s.wl a w).dramLogged = s.dramLogged ∧ (s.wl a w).coefBad = s.coefBad ∧
    (s.wl a w).coefOld = s.coefOld ∧ (s.wl a w).polSigned = s.polSigned ∧ (s.wl a w).cob = s.cob ∧
    (s.wl a w).nor = s.nor ∧ (s.wl a w).hub = s.hub ∧ (s.wl a w).jtag = s.jtag ∧
    (s.wl a w).banks = s.banks ∧ (s.wl a w).seqMem = s.seqMem ∧ (s.wl a w).capMem = s.capMem ∧
    (s.wl a w).later = s.later ∧ (s.wl a w).freeCount = s.freeCount ∧ (s.wl a w).pending = s.pending := by
  repeat' (refine And.intro rfl ?_)
  rfl

@[simp] theorem State.setFld_fields (s : State) (a : Nat) (f : Fld) (v : Nat) :
    (s.setFld a f v).tick = s.tick ∧ (s.setFld a f v).live = s.live ∧ (s.setFld a f v).latches = s.latches ∧
    (s.setFld a f v).phase = s.phase ∧ (s.setFld a f v).ch = s.ch ∧ (s.setFld a f v).clu = s.clu ∧
    (s.setFld a f v).quad = s.quad ∧ (s.setFld a f v).lanes = s.lanes ∧ (s.setFld a f v).grps = s.grps ∧
    (s.setFld a f v).dma = s.dma ∧ (s.setFld a f v).ramps = s.ramps ∧ (s.setFld a f v).sess = s.sess ∧
    (s.setFld a f v).wtrim = s.wtrim ∧ (s.setFld a f v).taps = s.taps ∧ (s.setFld a f v).hours = s.hours ∧
    (s.setFld a f v).shares = s.shares ∧ (s.setFld a f v).sums = s.sums ∧ (s.setFld a f v).aux = s.aux ∧ (s.setFld a f v).laneIn = s.laneIn ∧
    (s.setFld a f v).faultTick = s.faultTick ∧ (s.setFld a f v).hubCommit = s.hubCommit ∧ (s.setFld a f v).log = s.log ∧
    (s.setFld a f v).host = s.host ∧ (s.setFld a f v).skl = s.skl ∧ (s.setFld a f v).elogCount = s.elogCount ∧
    (s.setFld a f v).isoLogged = s.isoLogged ∧ (s.setFld a f v).dramLogged = s.dramLogged ∧ (s.setFld a f v).coefBad = s.coefBad ∧
    (s.setFld a f v).coefOld = s.coefOld ∧ (s.setFld a f v).polSigned = s.polSigned ∧ (s.setFld a f v).cob = s.cob ∧
    (s.setFld a f v).nor = s.nor ∧ (s.setFld a f v).hub = s.hub ∧ (s.setFld a f v).jtag = s.jtag ∧
    (s.setFld a f v).banks = s.banks ∧ (s.setFld a f v).seqMem = s.seqMem ∧ (s.setFld a f v).capMem = s.capMem ∧
    (s.setFld a f v).later = s.later ∧ (s.setFld a f v).freeCount = s.freeCount ∧ (s.setFld a f v).pending = s.pending := by
  repeat' (refine And.intro rfl ?_)
  rfl

@[simp] theorem State.setBit_fields (s : State) (a : Nat) (f : Fld) (b : Bool) :
    (s.setBit a f b).tick = s.tick ∧ (s.setBit a f b).live = s.live ∧ (s.setBit a f b).latches = s.latches ∧
    (s.setBit a f b).phase = s.phase ∧ (s.setBit a f b).ch = s.ch ∧ (s.setBit a f b).clu = s.clu ∧
    (s.setBit a f b).quad = s.quad ∧ (s.setBit a f b).lanes = s.lanes ∧ (s.setBit a f b).grps = s.grps ∧
    (s.setBit a f b).dma = s.dma ∧ (s.setBit a f b).ramps = s.ramps ∧ (s.setBit a f b).sess = s.sess ∧
    (s.setBit a f b).wtrim = s.wtrim ∧ (s.setBit a f b).taps = s.taps ∧ (s.setBit a f b).hours = s.hours ∧
    (s.setBit a f b).shares = s.shares ∧ (s.setBit a f b).sums = s.sums ∧ (s.setBit a f b).aux = s.aux ∧ (s.setBit a f b).laneIn = s.laneIn ∧
    (s.setBit a f b).faultTick = s.faultTick ∧ (s.setBit a f b).hubCommit = s.hubCommit ∧ (s.setBit a f b).log = s.log ∧
    (s.setBit a f b).host = s.host ∧ (s.setBit a f b).skl = s.skl ∧ (s.setBit a f b).elogCount = s.elogCount ∧
    (s.setBit a f b).isoLogged = s.isoLogged ∧ (s.setBit a f b).dramLogged = s.dramLogged ∧ (s.setBit a f b).coefBad = s.coefBad ∧
    (s.setBit a f b).coefOld = s.coefOld ∧ (s.setBit a f b).polSigned = s.polSigned ∧ (s.setBit a f b).cob = s.cob ∧
    (s.setBit a f b).nor = s.nor ∧ (s.setBit a f b).hub = s.hub ∧ (s.setBit a f b).jtag = s.jtag ∧
    (s.setBit a f b).banks = s.banks ∧ (s.setBit a f b).seqMem = s.seqMem ∧ (s.setBit a f b).capMem = s.capMem ∧
    (s.setBit a f b).later = s.later ∧ (s.setBit a f b).freeCount = s.freeCount ∧ (s.setBit a f b).pending = s.pending := by
  repeat' (refine And.intro rfl ?_)
  rfl

@[simp] theorem State.raise_fields (s : State) (a : Nat) (f : Fld) :
    (s.raise a f).tick = s.tick ∧ (s.raise a f).live = s.live ∧ (s.raise a f).latches = s.latches ∧
    (s.raise a f).phase = s.phase ∧ (s.raise a f).ch = s.ch ∧ (s.raise a f).clu = s.clu ∧
    (s.raise a f).quad = s.quad ∧ (s.raise a f).lanes = s.lanes ∧ (s.raise a f).grps = s.grps ∧
    (s.raise a f).dma = s.dma ∧ (s.raise a f).ramps = s.ramps ∧ (s.raise a f).sess = s.sess ∧
    (s.raise a f).wtrim = s.wtrim ∧ (s.raise a f).taps = s.taps ∧ (s.raise a f).hours = s.hours ∧
    (s.raise a f).shares = s.shares ∧ (s.raise a f).sums = s.sums ∧ (s.raise a f).aux = s.aux ∧ (s.raise a f).laneIn = s.laneIn ∧
    (s.raise a f).faultTick = s.faultTick ∧ (s.raise a f).hubCommit = s.hubCommit ∧ (s.raise a f).log = s.log ∧
    (s.raise a f).host = s.host ∧ (s.raise a f).skl = s.skl ∧ (s.raise a f).elogCount = s.elogCount ∧
    (s.raise a f).isoLogged = s.isoLogged ∧ (s.raise a f).dramLogged = s.dramLogged ∧ (s.raise a f).coefBad = s.coefBad ∧
    (s.raise a f).coefOld = s.coefOld ∧ (s.raise a f).polSigned = s.polSigned ∧ (s.raise a f).cob = s.cob ∧
    (s.raise a f).nor = s.nor ∧ (s.raise a f).hub = s.hub ∧ (s.raise a f).jtag = s.jtag ∧
    (s.raise a f).banks = s.banks ∧ (s.raise a f).seqMem = s.seqMem ∧ (s.raise a f).capMem = s.capMem ∧
    (s.raise a f).later = s.later ∧ (s.raise a f).freeCount = s.freeCount ∧ (s.raise a f).pending = s.pending := by
  repeat' (refine And.intro rfl ?_)
  rfl

@[simp] theorem State.setBitAt_fields (s : State) (a b : Nat) :
    (s.setBitAt a b).tick = s.tick ∧ (s.setBitAt a b).live = s.live ∧ (s.setBitAt a b).latches = s.latches ∧
    (s.setBitAt a b).phase = s.phase ∧ (s.setBitAt a b).ch = s.ch ∧ (s.setBitAt a b).clu = s.clu ∧
    (s.setBitAt a b).quad = s.quad ∧ (s.setBitAt a b).lanes = s.lanes ∧ (s.setBitAt a b).grps = s.grps ∧
    (s.setBitAt a b).dma = s.dma ∧ (s.setBitAt a b).ramps = s.ramps ∧ (s.setBitAt a b).sess = s.sess ∧
    (s.setBitAt a b).wtrim = s.wtrim ∧ (s.setBitAt a b).taps = s.taps ∧ (s.setBitAt a b).hours = s.hours ∧
    (s.setBitAt a b).shares = s.shares ∧ (s.setBitAt a b).sums = s.sums ∧ (s.setBitAt a b).aux = s.aux ∧ (s.setBitAt a b).laneIn = s.laneIn ∧
    (s.setBitAt a b).faultTick = s.faultTick ∧ (s.setBitAt a b).hubCommit = s.hubCommit ∧ (s.setBitAt a b).log = s.log ∧
    (s.setBitAt a b).host = s.host ∧ (s.setBitAt a b).skl = s.skl ∧ (s.setBitAt a b).elogCount = s.elogCount ∧
    (s.setBitAt a b).isoLogged = s.isoLogged ∧ (s.setBitAt a b).dramLogged = s.dramLogged ∧ (s.setBitAt a b).coefBad = s.coefBad ∧
    (s.setBitAt a b).coefOld = s.coefOld ∧ (s.setBitAt a b).polSigned = s.polSigned ∧ (s.setBitAt a b).cob = s.cob ∧
    (s.setBitAt a b).nor = s.nor ∧ (s.setBitAt a b).hub = s.hub ∧ (s.setBitAt a b).jtag = s.jtag ∧
    (s.setBitAt a b).banks = s.banks ∧ (s.setBitAt a b).seqMem = s.seqMem ∧ (s.setBitAt a b).capMem = s.capMem ∧
    (s.setBitAt a b).later = s.later ∧ (s.setBitAt a b).freeCount = s.freeCount ∧ (s.setBitAt a b).pending = s.pending := by
  repeat' (refine And.intro rfl ?_)
  rfl

@[simp] theorem State.clrBitAt_fields (s : State) (a b : Nat) :
    (s.clrBitAt a b).tick = s.tick ∧ (s.clrBitAt a b).live = s.live ∧ (s.clrBitAt a b).latches = s.latches ∧
    (s.clrBitAt a b).phase = s.phase ∧ (s.clrBitAt a b).ch = s.ch ∧ (s.clrBitAt a b).clu = s.clu ∧
    (s.clrBitAt a b).quad = s.quad ∧ (s.clrBitAt a b).lanes = s.lanes ∧ (s.clrBitAt a b).grps = s.grps ∧
    (s.clrBitAt a b).dma = s.dma ∧ (s.clrBitAt a b).ramps = s.ramps ∧ (s.clrBitAt a b).sess = s.sess ∧
    (s.clrBitAt a b).wtrim = s.wtrim ∧ (s.clrBitAt a b).taps = s.taps ∧ (s.clrBitAt a b).hours = s.hours ∧
    (s.clrBitAt a b).shares = s.shares ∧ (s.clrBitAt a b).sums = s.sums ∧ (s.clrBitAt a b).aux = s.aux ∧ (s.clrBitAt a b).laneIn = s.laneIn ∧
    (s.clrBitAt a b).faultTick = s.faultTick ∧ (s.clrBitAt a b).hubCommit = s.hubCommit ∧ (s.clrBitAt a b).log = s.log ∧
    (s.clrBitAt a b).host = s.host ∧ (s.clrBitAt a b).skl = s.skl ∧ (s.clrBitAt a b).elogCount = s.elogCount ∧
    (s.clrBitAt a b).isoLogged = s.isoLogged ∧ (s.clrBitAt a b).dramLogged = s.dramLogged ∧ (s.clrBitAt a b).coefBad = s.coefBad ∧
    (s.clrBitAt a b).coefOld = s.coefOld ∧ (s.clrBitAt a b).polSigned = s.polSigned ∧ (s.clrBitAt a b).cob = s.cob ∧
    (s.clrBitAt a b).nor = s.nor ∧ (s.clrBitAt a b).hub = s.hub ∧ (s.clrBitAt a b).jtag = s.jtag ∧
    (s.clrBitAt a b).banks = s.banks ∧ (s.clrBitAt a b).seqMem = s.seqMem ∧ (s.clrBitAt a b).capMem = s.capMem ∧
    (s.clrBitAt a b).later = s.later ∧ (s.clrBitAt a b).freeCount = s.freeCount ∧ (s.clrBitAt a b).pending = s.pending := by
  repeat' (refine And.intro rfl ?_)
  rfl

@[simp] theorem State.wr64_fields (s : State) (a v : Nat) :
    (s.wr64 a v).tick = s.tick ∧ (s.wr64 a v).live = s.live ∧ (s.wr64 a v).latches = s.latches ∧
    (s.wr64 a v).phase = s.phase ∧ (s.wr64 a v).ch = s.ch ∧ (s.wr64 a v).clu = s.clu ∧
    (s.wr64 a v).quad = s.quad ∧ (s.wr64 a v).lanes = s.lanes ∧ (s.wr64 a v).grps = s.grps ∧
    (s.wr64 a v).dma = s.dma ∧ (s.wr64 a v).ramps = s.ramps ∧ (s.wr64 a v).sess = s.sess ∧
    (s.wr64 a v).wtrim = s.wtrim ∧ (s.wr64 a v).taps = s.taps ∧ (s.wr64 a v).hours = s.hours ∧
    (s.wr64 a v).shares = s.shares ∧ (s.wr64 a v).sums = s.sums ∧ (s.wr64 a v).aux = s.aux ∧ (s.wr64 a v).laneIn = s.laneIn ∧
    (s.wr64 a v).faultTick = s.faultTick ∧ (s.wr64 a v).hubCommit = s.hubCommit ∧ (s.wr64 a v).log = s.log ∧
    (s.wr64 a v).host = s.host ∧ (s.wr64 a v).skl = s.skl ∧ (s.wr64 a v).elogCount = s.elogCount ∧
    (s.wr64 a v).isoLogged = s.isoLogged ∧ (s.wr64 a v).dramLogged = s.dramLogged ∧ (s.wr64 a v).coefBad = s.coefBad ∧
    (s.wr64 a v).coefOld = s.coefOld ∧ (s.wr64 a v).polSigned = s.polSigned ∧ (s.wr64 a v).cob = s.cob ∧
    (s.wr64 a v).nor = s.nor ∧ (s.wr64 a v).hub = s.hub ∧ (s.wr64 a v).jtag = s.jtag ∧
    (s.wr64 a v).banks = s.banks ∧ (s.wr64 a v).seqMem = s.seqMem ∧ (s.wr64 a v).capMem = s.capMem ∧
    (s.wr64 a v).later = s.later ∧ (s.wr64 a v).freeCount = s.freeCount ∧ (s.wr64 a v).pending = s.pending := by
  repeat' (refine And.intro rfl ?_)
  rfl

@[simp] theorem State.incWrap_fields (s : State) (a : Nat) (f : Fld) :
    (s.incWrap a f).tick = s.tick ∧ (s.incWrap a f).live = s.live ∧ (s.incWrap a f).latches = s.latches ∧
    (s.incWrap a f).phase = s.phase ∧ (s.incWrap a f).ch = s.ch ∧ (s.incWrap a f).clu = s.clu ∧
    (s.incWrap a f).quad = s.quad ∧ (s.incWrap a f).lanes = s.lanes ∧ (s.incWrap a f).grps = s.grps ∧
    (s.incWrap a f).dma = s.dma ∧ (s.incWrap a f).ramps = s.ramps ∧ (s.incWrap a f).sess = s.sess ∧
    (s.incWrap a f).wtrim = s.wtrim ∧ (s.incWrap a f).taps = s.taps ∧ (s.incWrap a f).hours = s.hours ∧
    (s.incWrap a f).shares = s.shares ∧ (s.incWrap a f).sums = s.sums ∧ (s.incWrap a f).aux = s.aux ∧ (s.incWrap a f).laneIn = s.laneIn ∧
    (s.incWrap a f).faultTick = s.faultTick ∧ (s.incWrap a f).hubCommit = s.hubCommit ∧ (s.incWrap a f).log = s.log ∧
    (s.incWrap a f).host = s.host ∧ (s.incWrap a f).skl = s.skl ∧ (s.incWrap a f).elogCount = s.elogCount ∧
    (s.incWrap a f).isoLogged = s.isoLogged ∧ (s.incWrap a f).dramLogged = s.dramLogged ∧ (s.incWrap a f).coefBad = s.coefBad ∧
    (s.incWrap a f).coefOld = s.coefOld ∧ (s.incWrap a f).polSigned = s.polSigned ∧ (s.incWrap a f).cob = s.cob ∧
    (s.incWrap a f).nor = s.nor ∧ (s.incWrap a f).hub = s.hub ∧ (s.incWrap a f).jtag = s.jtag ∧
    (s.incWrap a f).banks = s.banks ∧ (s.incWrap a f).seqMem = s.seqMem ∧ (s.incWrap a f).capMem = s.capMem ∧
    (s.incWrap a f).later = s.later ∧ (s.incWrap a f).freeCount = s.freeCount ∧ (s.incWrap a f).pending = s.pending := by
  repeat' (refine And.intro rfl ?_)
  rfl

@[simp] theorem State.setChan_fields (s : State) (n : Nat) (c : ChSt) :
    (s.setChan n c).tick = s.tick ∧ (s.setChan n c).regs = s.regs ∧ (s.setChan n c).live = s.live ∧
    (s.setChan n c).latches = s.latches ∧ (s.setChan n c).phase = s.phase ∧ (s.setChan n c).clu = s.clu ∧
    (s.setChan n c).quad = s.quad ∧ (s.setChan n c).lanes = s.lanes ∧ (s.setChan n c).grps = s.grps ∧
    (s.setChan n c).dma = s.dma ∧ (s.setChan n c).ramps = s.ramps ∧ (s.setChan n c).sess = s.sess ∧
    (s.setChan n c).wtrim = s.wtrim ∧ (s.setChan n c).taps = s.taps ∧ (s.setChan n c).hours = s.hours ∧
    (s.setChan n c).shares = s.shares ∧ (s.setChan n c).sums = s.sums ∧ (s.setChan n c).aux = s.aux ∧ (s.setChan n c).laneIn = s.laneIn ∧
    (s.setChan n c).faultTick = s.faultTick ∧ (s.setChan n c).hubCommit = s.hubCommit ∧ (s.setChan n c).log = s.log ∧
    (s.setChan n c).host = s.host ∧ (s.setChan n c).skl = s.skl ∧ (s.setChan n c).elogCount = s.elogCount ∧
    (s.setChan n c).isoLogged = s.isoLogged ∧ (s.setChan n c).dramLogged = s.dramLogged ∧ (s.setChan n c).coefBad = s.coefBad ∧
    (s.setChan n c).coefOld = s.coefOld ∧ (s.setChan n c).polSigned = s.polSigned ∧ (s.setChan n c).cob = s.cob ∧
    (s.setChan n c).nor = s.nor ∧ (s.setChan n c).hub = s.hub ∧ (s.setChan n c).jtag = s.jtag ∧
    (s.setChan n c).banks = s.banks ∧ (s.setChan n c).seqMem = s.seqMem ∧ (s.setChan n c).capMem = s.capMem ∧
    (s.setChan n c).later = s.later ∧ (s.setChan n c).freeCount = s.freeCount ∧ (s.setChan n c).pending = s.pending := by
  repeat' (refine And.intro rfl ?_)
  rfl

@[simp] theorem State.updChan_fields (s : State) (n : Nat) (f : ChSt → ChSt) :
    (s.updChan n f).tick = s.tick ∧ (s.updChan n f).regs = s.regs ∧ (s.updChan n f).live = s.live ∧
    (s.updChan n f).latches = s.latches ∧ (s.updChan n f).phase = s.phase ∧ (s.updChan n f).clu = s.clu ∧
    (s.updChan n f).quad = s.quad ∧ (s.updChan n f).lanes = s.lanes ∧ (s.updChan n f).grps = s.grps ∧
    (s.updChan n f).dma = s.dma ∧ (s.updChan n f).ramps = s.ramps ∧ (s.updChan n f).sess = s.sess ∧
    (s.updChan n f).wtrim = s.wtrim ∧ (s.updChan n f).taps = s.taps ∧ (s.updChan n f).hours = s.hours ∧
    (s.updChan n f).shares = s.shares ∧ (s.updChan n f).sums = s.sums ∧ (s.updChan n f).aux = s.aux ∧ (s.updChan n f).laneIn = s.laneIn ∧
    (s.updChan n f).faultTick = s.faultTick ∧ (s.updChan n f).hubCommit = s.hubCommit ∧ (s.updChan n f).log = s.log ∧
    (s.updChan n f).host = s.host ∧ (s.updChan n f).skl = s.skl ∧ (s.updChan n f).elogCount = s.elogCount ∧
    (s.updChan n f).isoLogged = s.isoLogged ∧ (s.updChan n f).dramLogged = s.dramLogged ∧ (s.updChan n f).coefBad = s.coefBad ∧
    (s.updChan n f).coefOld = s.coefOld ∧ (s.updChan n f).polSigned = s.polSigned ∧ (s.updChan n f).cob = s.cob ∧
    (s.updChan n f).nor = s.nor ∧ (s.updChan n f).hub = s.hub ∧ (s.updChan n f).jtag = s.jtag ∧
    (s.updChan n f).banks = s.banks ∧ (s.updChan n f).seqMem = s.seqMem ∧ (s.updChan n f).capMem = s.capMem ∧
    (s.updChan n f).later = s.later ∧ (s.updChan n f).freeCount = s.freeCount ∧ (s.updChan n f).pending = s.pending := by
  repeat' (refine And.intro rfl ?_)
  rfl

@[simp] theorem State.setCluster_fields (s : State) (g : Nat) (c : CluSt) :
    (s.setCluster g c).tick = s.tick ∧ (s.setCluster g c).regs = s.regs ∧ (s.setCluster g c).live = s.live ∧
    (s.setCluster g c).latches = s.latches ∧ (s.setCluster g c).phase = s.phase ∧ (s.setCluster g c).ch = s.ch ∧
    (s.setCluster g c).quad = s.quad ∧ (s.setCluster g c).lanes = s.lanes ∧ (s.setCluster g c).grps = s.grps ∧
    (s.setCluster g c).dma = s.dma ∧ (s.setCluster g c).ramps = s.ramps ∧ (s.setCluster g c).sess = s.sess ∧
    (s.setCluster g c).wtrim = s.wtrim ∧ (s.setCluster g c).taps = s.taps ∧ (s.setCluster g c).hours = s.hours ∧
    (s.setCluster g c).shares = s.shares ∧ (s.setCluster g c).sums = s.sums ∧ (s.setCluster g c).aux = s.aux ∧ (s.setCluster g c).laneIn = s.laneIn ∧
    (s.setCluster g c).faultTick = s.faultTick ∧ (s.setCluster g c).hubCommit = s.hubCommit ∧ (s.setCluster g c).log = s.log ∧
    (s.setCluster g c).host = s.host ∧ (s.setCluster g c).skl = s.skl ∧ (s.setCluster g c).elogCount = s.elogCount ∧
    (s.setCluster g c).isoLogged = s.isoLogged ∧ (s.setCluster g c).dramLogged = s.dramLogged ∧ (s.setCluster g c).coefBad = s.coefBad ∧
    (s.setCluster g c).coefOld = s.coefOld ∧ (s.setCluster g c).polSigned = s.polSigned ∧ (s.setCluster g c).cob = s.cob ∧
    (s.setCluster g c).nor = s.nor ∧ (s.setCluster g c).hub = s.hub ∧ (s.setCluster g c).jtag = s.jtag ∧
    (s.setCluster g c).banks = s.banks ∧ (s.setCluster g c).seqMem = s.seqMem ∧ (s.setCluster g c).capMem = s.capMem ∧
    (s.setCluster g c).later = s.later ∧ (s.setCluster g c).freeCount = s.freeCount ∧ (s.setCluster g c).pending = s.pending := by
  repeat' (refine And.intro rfl ?_)
  rfl

@[simp] theorem State.updCluster_fields (s : State) (g : Nat) (f : CluSt → CluSt) :
    (s.updCluster g f).tick = s.tick ∧ (s.updCluster g f).regs = s.regs ∧ (s.updCluster g f).live = s.live ∧
    (s.updCluster g f).latches = s.latches ∧ (s.updCluster g f).phase = s.phase ∧ (s.updCluster g f).ch = s.ch ∧
    (s.updCluster g f).quad = s.quad ∧ (s.updCluster g f).lanes = s.lanes ∧ (s.updCluster g f).grps = s.grps ∧
    (s.updCluster g f).dma = s.dma ∧ (s.updCluster g f).ramps = s.ramps ∧ (s.updCluster g f).sess = s.sess ∧
    (s.updCluster g f).wtrim = s.wtrim ∧ (s.updCluster g f).taps = s.taps ∧ (s.updCluster g f).hours = s.hours ∧
    (s.updCluster g f).shares = s.shares ∧ (s.updCluster g f).sums = s.sums ∧ (s.updCluster g f).aux = s.aux ∧ (s.updCluster g f).laneIn = s.laneIn ∧
    (s.updCluster g f).faultTick = s.faultTick ∧ (s.updCluster g f).hubCommit = s.hubCommit ∧ (s.updCluster g f).log = s.log ∧
    (s.updCluster g f).host = s.host ∧ (s.updCluster g f).skl = s.skl ∧ (s.updCluster g f).elogCount = s.elogCount ∧
    (s.updCluster g f).isoLogged = s.isoLogged ∧ (s.updCluster g f).dramLogged = s.dramLogged ∧ (s.updCluster g f).coefBad = s.coefBad ∧
    (s.updCluster g f).coefOld = s.coefOld ∧ (s.updCluster g f).polSigned = s.polSigned ∧ (s.updCluster g f).cob = s.cob ∧
    (s.updCluster g f).nor = s.nor ∧ (s.updCluster g f).hub = s.hub ∧ (s.updCluster g f).jtag = s.jtag ∧
    (s.updCluster g f).banks = s.banks ∧ (s.updCluster g f).seqMem = s.seqMem ∧ (s.updCluster g f).capMem = s.capMem ∧
    (s.updCluster g f).later = s.later ∧ (s.updCluster g f).freeCount = s.freeCount ∧ (s.updCluster g f).pending = s.pending := by
  repeat' (refine And.intro rfl ?_)
  rfl

@[simp] theorem State.setQuad_fields (s : State) (q : Nat) (x : QuadSt) :
    (s.setQuad q x).tick = s.tick ∧ (s.setQuad q x).regs = s.regs ∧ (s.setQuad q x).live = s.live ∧
    (s.setQuad q x).latches = s.latches ∧ (s.setQuad q x).phase = s.phase ∧ (s.setQuad q x).ch = s.ch ∧
    (s.setQuad q x).clu = s.clu ∧ (s.setQuad q x).lanes = s.lanes ∧ (s.setQuad q x).grps = s.grps ∧
    (s.setQuad q x).dma = s.dma ∧ (s.setQuad q x).ramps = s.ramps ∧ (s.setQuad q x).sess = s.sess ∧
    (s.setQuad q x).wtrim = s.wtrim ∧ (s.setQuad q x).taps = s.taps ∧ (s.setQuad q x).hours = s.hours ∧
    (s.setQuad q x).shares = s.shares ∧ (s.setQuad q x).sums = s.sums ∧ (s.setQuad q x).aux = s.aux ∧ (s.setQuad q x).laneIn = s.laneIn ∧
    (s.setQuad q x).faultTick = s.faultTick ∧ (s.setQuad q x).hubCommit = s.hubCommit ∧ (s.setQuad q x).log = s.log ∧
    (s.setQuad q x).host = s.host ∧ (s.setQuad q x).skl = s.skl ∧ (s.setQuad q x).elogCount = s.elogCount ∧
    (s.setQuad q x).isoLogged = s.isoLogged ∧ (s.setQuad q x).dramLogged = s.dramLogged ∧ (s.setQuad q x).coefBad = s.coefBad ∧
    (s.setQuad q x).coefOld = s.coefOld ∧ (s.setQuad q x).polSigned = s.polSigned ∧ (s.setQuad q x).cob = s.cob ∧
    (s.setQuad q x).nor = s.nor ∧ (s.setQuad q x).hub = s.hub ∧ (s.setQuad q x).jtag = s.jtag ∧
    (s.setQuad q x).banks = s.banks ∧ (s.setQuad q x).seqMem = s.seqMem ∧ (s.setQuad q x).capMem = s.capMem ∧
    (s.setQuad q x).later = s.later ∧ (s.setQuad q x).freeCount = s.freeCount ∧ (s.setQuad q x).pending = s.pending := by
  repeat' (refine And.intro rfl ?_)
  rfl

@[simp] theorem State.setLane_fields (s : State) (l : Nat) (x : LaneSt) :
    (s.setLane l x).tick = s.tick ∧ (s.setLane l x).regs = s.regs ∧ (s.setLane l x).live = s.live ∧
    (s.setLane l x).latches = s.latches ∧ (s.setLane l x).phase = s.phase ∧ (s.setLane l x).ch = s.ch ∧
    (s.setLane l x).clu = s.clu ∧ (s.setLane l x).quad = s.quad ∧ (s.setLane l x).grps = s.grps ∧
    (s.setLane l x).dma = s.dma ∧ (s.setLane l x).ramps = s.ramps ∧ (s.setLane l x).sess = s.sess ∧
    (s.setLane l x).wtrim = s.wtrim ∧ (s.setLane l x).taps = s.taps ∧ (s.setLane l x).hours = s.hours ∧
    (s.setLane l x).shares = s.shares ∧ (s.setLane l x).sums = s.sums ∧ (s.setLane l x).aux = s.aux ∧ (s.setLane l x).laneIn = s.laneIn ∧
    (s.setLane l x).faultTick = s.faultTick ∧ (s.setLane l x).hubCommit = s.hubCommit ∧ (s.setLane l x).log = s.log ∧
    (s.setLane l x).host = s.host ∧ (s.setLane l x).skl = s.skl ∧ (s.setLane l x).elogCount = s.elogCount ∧
    (s.setLane l x).isoLogged = s.isoLogged ∧ (s.setLane l x).dramLogged = s.dramLogged ∧ (s.setLane l x).coefBad = s.coefBad ∧
    (s.setLane l x).coefOld = s.coefOld ∧ (s.setLane l x).polSigned = s.polSigned ∧ (s.setLane l x).cob = s.cob ∧
    (s.setLane l x).nor = s.nor ∧ (s.setLane l x).hub = s.hub ∧ (s.setLane l x).jtag = s.jtag ∧
    (s.setLane l x).banks = s.banks ∧ (s.setLane l x).seqMem = s.seqMem ∧ (s.setLane l x).capMem = s.capMem ∧
    (s.setLane l x).later = s.later ∧ (s.setLane l x).freeCount = s.freeCount ∧ (s.setLane l x).pending = s.pending := by
  repeat' (refine And.intro rfl ?_)
  rfl

@[simp] theorem State.setGrp_fields (s : State) (x : Nat) (g : GrpSt) :
    (s.setGrp x g).tick = s.tick ∧ (s.setGrp x g).regs = s.regs ∧ (s.setGrp x g).live = s.live ∧
    (s.setGrp x g).latches = s.latches ∧ (s.setGrp x g).phase = s.phase ∧ (s.setGrp x g).ch = s.ch ∧
    (s.setGrp x g).clu = s.clu ∧ (s.setGrp x g).quad = s.quad ∧ (s.setGrp x g).lanes = s.lanes ∧
    (s.setGrp x g).dma = s.dma ∧ (s.setGrp x g).ramps = s.ramps ∧ (s.setGrp x g).sess = s.sess ∧
    (s.setGrp x g).wtrim = s.wtrim ∧ (s.setGrp x g).taps = s.taps ∧ (s.setGrp x g).hours = s.hours ∧
    (s.setGrp x g).shares = s.shares ∧ (s.setGrp x g).sums = s.sums ∧ (s.setGrp x g).aux = s.aux ∧ (s.setGrp x g).laneIn = s.laneIn ∧
    (s.setGrp x g).faultTick = s.faultTick ∧ (s.setGrp x g).hubCommit = s.hubCommit ∧ (s.setGrp x g).log = s.log ∧
    (s.setGrp x g).host = s.host ∧ (s.setGrp x g).skl = s.skl ∧ (s.setGrp x g).elogCount = s.elogCount ∧
    (s.setGrp x g).isoLogged = s.isoLogged ∧ (s.setGrp x g).dramLogged = s.dramLogged ∧ (s.setGrp x g).coefBad = s.coefBad ∧
    (s.setGrp x g).coefOld = s.coefOld ∧ (s.setGrp x g).polSigned = s.polSigned ∧ (s.setGrp x g).cob = s.cob ∧
    (s.setGrp x g).nor = s.nor ∧ (s.setGrp x g).hub = s.hub ∧ (s.setGrp x g).jtag = s.jtag ∧
    (s.setGrp x g).banks = s.banks ∧ (s.setGrp x g).seqMem = s.seqMem ∧ (s.setGrp x g).capMem = s.capMem ∧
    (s.setGrp x g).later = s.later ∧ (s.setGrp x g).freeCount = s.freeCount ∧ (s.setGrp x g).pending = s.pending := by
  repeat' (refine And.intro rfl ?_)
  rfl

@[simp] theorem State.setDma_fields (s : State) (d : Nat) (x : DmaSt) :
    (s.setDma d x).tick = s.tick ∧ (s.setDma d x).regs = s.regs ∧ (s.setDma d x).live = s.live ∧
    (s.setDma d x).latches = s.latches ∧ (s.setDma d x).phase = s.phase ∧ (s.setDma d x).ch = s.ch ∧
    (s.setDma d x).clu = s.clu ∧ (s.setDma d x).quad = s.quad ∧ (s.setDma d x).lanes = s.lanes ∧
    (s.setDma d x).grps = s.grps ∧ (s.setDma d x).ramps = s.ramps ∧ (s.setDma d x).sess = s.sess ∧
    (s.setDma d x).wtrim = s.wtrim ∧ (s.setDma d x).taps = s.taps ∧ (s.setDma d x).hours = s.hours ∧
    (s.setDma d x).shares = s.shares ∧ (s.setDma d x).sums = s.sums ∧ (s.setDma d x).aux = s.aux ∧ (s.setDma d x).laneIn = s.laneIn ∧
    (s.setDma d x).faultTick = s.faultTick ∧ (s.setDma d x).hubCommit = s.hubCommit ∧ (s.setDma d x).log = s.log ∧
    (s.setDma d x).host = s.host ∧ (s.setDma d x).skl = s.skl ∧ (s.setDma d x).elogCount = s.elogCount ∧
    (s.setDma d x).isoLogged = s.isoLogged ∧ (s.setDma d x).dramLogged = s.dramLogged ∧ (s.setDma d x).coefBad = s.coefBad ∧
    (s.setDma d x).coefOld = s.coefOld ∧ (s.setDma d x).polSigned = s.polSigned ∧ (s.setDma d x).cob = s.cob ∧
    (s.setDma d x).nor = s.nor ∧ (s.setDma d x).hub = s.hub ∧ (s.setDma d x).jtag = s.jtag ∧
    (s.setDma d x).banks = s.banks ∧ (s.setDma d x).seqMem = s.seqMem ∧ (s.setDma d x).capMem = s.capMem ∧
    (s.setDma d x).later = s.later ∧ (s.setDma d x).freeCount = s.freeCount ∧ (s.setDma d x).pending = s.pending := by
  repeat' (refine And.intro rfl ?_)
  rfl

@[simp] theorem State.updDma_fields (s : State) (d : Nat) (f : DmaSt → DmaSt) :
    (s.updDma d f).tick = s.tick ∧ (s.updDma d f).regs = s.regs ∧ (s.updDma d f).live = s.live ∧
    (s.updDma d f).latches = s.latches ∧ (s.updDma d f).phase = s.phase ∧ (s.updDma d f).ch = s.ch ∧
    (s.updDma d f).clu = s.clu ∧ (s.updDma d f).quad = s.quad ∧ (s.updDma d f).lanes = s.lanes ∧
    (s.updDma d f).grps = s.grps ∧ (s.updDma d f).ramps = s.ramps ∧ (s.updDma d f).sess = s.sess ∧
    (s.updDma d f).wtrim = s.wtrim ∧ (s.updDma d f).taps = s.taps ∧ (s.updDma d f).hours = s.hours ∧
    (s.updDma d f).shares = s.shares ∧ (s.updDma d f).sums = s.sums ∧ (s.updDma d f).aux = s.aux ∧ (s.updDma d f).laneIn = s.laneIn ∧
    (s.updDma d f).faultTick = s.faultTick ∧ (s.updDma d f).hubCommit = s.hubCommit ∧ (s.updDma d f).log = s.log ∧
    (s.updDma d f).host = s.host ∧ (s.updDma d f).skl = s.skl ∧ (s.updDma d f).elogCount = s.elogCount ∧
    (s.updDma d f).isoLogged = s.isoLogged ∧ (s.updDma d f).dramLogged = s.dramLogged ∧ (s.updDma d f).coefBad = s.coefBad ∧
    (s.updDma d f).coefOld = s.coefOld ∧ (s.updDma d f).polSigned = s.polSigned ∧ (s.updDma d f).cob = s.cob ∧
    (s.updDma d f).nor = s.nor ∧ (s.updDma d f).hub = s.hub ∧ (s.updDma d f).jtag = s.jtag ∧
    (s.updDma d f).banks = s.banks ∧ (s.updDma d f).seqMem = s.seqMem ∧ (s.updDma d f).capMem = s.capMem ∧
    (s.updDma d f).later = s.later ∧ (s.updDma d f).freeCount = s.freeCount ∧ (s.updDma d f).pending = s.pending := by
  repeat' (refine And.intro rfl ?_)
  rfl

@[simp] theorem State.setTap_fields (s : State) (a : Nat) (v : Int) :
    (s.setTap a v).tick = s.tick ∧ (s.setTap a v).regs = s.regs ∧ (s.setTap a v).live = s.live ∧
    (s.setTap a v).latches = s.latches ∧ (s.setTap a v).phase = s.phase ∧ (s.setTap a v).ch = s.ch ∧
    (s.setTap a v).clu = s.clu ∧ (s.setTap a v).quad = s.quad ∧ (s.setTap a v).lanes = s.lanes ∧
    (s.setTap a v).grps = s.grps ∧ (s.setTap a v).dma = s.dma ∧ (s.setTap a v).ramps = s.ramps ∧
    (s.setTap a v).sess = s.sess ∧ (s.setTap a v).wtrim = s.wtrim ∧ (s.setTap a v).hours = s.hours ∧
    (s.setTap a v).shares = s.shares ∧ (s.setTap a v).sums = s.sums ∧ (s.setTap a v).aux = s.aux ∧ (s.setTap a v).laneIn = s.laneIn ∧
    (s.setTap a v).faultTick = s.faultTick ∧ (s.setTap a v).hubCommit = s.hubCommit ∧ (s.setTap a v).log = s.log ∧
    (s.setTap a v).host = s.host ∧ (s.setTap a v).skl = s.skl ∧ (s.setTap a v).elogCount = s.elogCount ∧
    (s.setTap a v).isoLogged = s.isoLogged ∧ (s.setTap a v).dramLogged = s.dramLogged ∧ (s.setTap a v).coefBad = s.coefBad ∧
    (s.setTap a v).coefOld = s.coefOld ∧ (s.setTap a v).polSigned = s.polSigned ∧ (s.setTap a v).cob = s.cob ∧
    (s.setTap a v).nor = s.nor ∧ (s.setTap a v).hub = s.hub ∧ (s.setTap a v).jtag = s.jtag ∧
    (s.setTap a v).banks = s.banks ∧ (s.setTap a v).seqMem = s.seqMem ∧ (s.setTap a v).capMem = s.capMem ∧
    (s.setTap a v).later = s.later ∧ (s.setTap a v).freeCount = s.freeCount ∧ (s.setTap a v).pending = s.pending := by
  repeat' (refine And.intro rfl ?_)
  rfl

@[simp] theorem State.updSkl_fields (s : State) (f : SklSt → SklSt) :
    (s.updSkl f).tick = s.tick ∧ (s.updSkl f).regs = s.regs ∧ (s.updSkl f).live = s.live ∧
    (s.updSkl f).latches = s.latches ∧ (s.updSkl f).phase = s.phase ∧ (s.updSkl f).ch = s.ch ∧
    (s.updSkl f).clu = s.clu ∧ (s.updSkl f).quad = s.quad ∧ (s.updSkl f).lanes = s.lanes ∧
    (s.updSkl f).grps = s.grps ∧ (s.updSkl f).dma = s.dma ∧ (s.updSkl f).ramps = s.ramps ∧
    (s.updSkl f).sess = s.sess ∧ (s.updSkl f).wtrim = s.wtrim ∧ (s.updSkl f).taps = s.taps ∧
    (s.updSkl f).hours = s.hours ∧ (s.updSkl f).shares = s.shares ∧ (s.updSkl f).sums = s.sums ∧ (s.updSkl f).aux = s.aux ∧
    (s.updSkl f).laneIn = s.laneIn ∧ (s.updSkl f).faultTick = s.faultTick ∧ (s.updSkl f).hubCommit = s.hubCommit ∧
    (s.updSkl f).log = s.log ∧ (s.updSkl f).host = s.host ∧ (s.updSkl f).elogCount = s.elogCount ∧
    (s.updSkl f).isoLogged = s.isoLogged ∧ (s.updSkl f).dramLogged = s.dramLogged ∧ (s.updSkl f).coefBad = s.coefBad ∧
    (s.updSkl f).coefOld = s.coefOld ∧ (s.updSkl f).polSigned = s.polSigned ∧ (s.updSkl f).cob = s.cob ∧
    (s.updSkl f).nor = s.nor ∧ (s.updSkl f).hub = s.hub ∧ (s.updSkl f).jtag = s.jtag ∧
    (s.updSkl f).banks = s.banks ∧ (s.updSkl f).seqMem = s.seqMem ∧ (s.updSkl f).capMem = s.capMem ∧
    (s.updSkl f).later = s.later ∧ (s.updSkl f).freeCount = s.freeCount ∧ (s.updSkl f).pending = s.pending := by
  repeat' (refine And.intro rfl ?_)
  rfl

@[simp] theorem State.updPhase_fields (s : State) (f : PhaseSt → PhaseSt) :
    (s.updPhase f).tick = s.tick ∧ (s.updPhase f).regs = s.regs ∧ (s.updPhase f).live = s.live ∧
    (s.updPhase f).latches = s.latches ∧ (s.updPhase f).ch = s.ch ∧ (s.updPhase f).clu = s.clu ∧
    (s.updPhase f).quad = s.quad ∧ (s.updPhase f).lanes = s.lanes ∧ (s.updPhase f).grps = s.grps ∧
    (s.updPhase f).dma = s.dma ∧ (s.updPhase f).ramps = s.ramps ∧ (s.updPhase f).sess = s.sess ∧
    (s.updPhase f).wtrim = s.wtrim ∧ (s.updPhase f).taps = s.taps ∧ (s.updPhase f).hours = s.hours ∧
    (s.updPhase f).shares = s.shares ∧ (s.updPhase f).sums = s.sums ∧ (s.updPhase f).aux = s.aux ∧ (s.updPhase f).laneIn = s.laneIn ∧
    (s.updPhase f).faultTick = s.faultTick ∧ (s.updPhase f).hubCommit = s.hubCommit ∧ (s.updPhase f).log = s.log ∧
    (s.updPhase f).host = s.host ∧ (s.updPhase f).skl = s.skl ∧ (s.updPhase f).elogCount = s.elogCount ∧
    (s.updPhase f).isoLogged = s.isoLogged ∧ (s.updPhase f).dramLogged = s.dramLogged ∧ (s.updPhase f).coefBad = s.coefBad ∧
    (s.updPhase f).coefOld = s.coefOld ∧ (s.updPhase f).polSigned = s.polSigned ∧ (s.updPhase f).cob = s.cob ∧
    (s.updPhase f).nor = s.nor ∧ (s.updPhase f).hub = s.hub ∧ (s.updPhase f).jtag = s.jtag ∧
    (s.updPhase f).banks = s.banks ∧ (s.updPhase f).seqMem = s.seqMem ∧ (s.updPhase f).capMem = s.capMem ∧
    (s.updPhase f).later = s.later ∧ (s.updPhase f).freeCount = s.freeCount ∧ (s.updPhase f).pending = s.pending := by
  repeat' (refine And.intro rfl ?_)
  rfl

@[simp] theorem State.after_fields (s : State) (t : Nat) (l : Later) :
    (s.after t l).tick = s.tick ∧ (s.after t l).regs = s.regs ∧ (s.after t l).live = s.live ∧
    (s.after t l).latches = s.latches ∧ (s.after t l).phase = s.phase ∧ (s.after t l).ch = s.ch ∧
    (s.after t l).clu = s.clu ∧ (s.after t l).quad = s.quad ∧ (s.after t l).lanes = s.lanes ∧
    (s.after t l).grps = s.grps ∧ (s.after t l).dma = s.dma ∧ (s.after t l).ramps = s.ramps ∧
    (s.after t l).sess = s.sess ∧ (s.after t l).wtrim = s.wtrim ∧ (s.after t l).taps = s.taps ∧
    (s.after t l).hours = s.hours ∧ (s.after t l).shares = s.shares ∧ (s.after t l).sums = s.sums ∧ (s.after t l).aux = s.aux ∧
    (s.after t l).laneIn = s.laneIn ∧ (s.after t l).faultTick = s.faultTick ∧ (s.after t l).hubCommit = s.hubCommit ∧
    (s.after t l).log = s.log ∧ (s.after t l).host = s.host ∧ (s.after t l).skl = s.skl ∧
    (s.after t l).elogCount = s.elogCount ∧ (s.after t l).isoLogged = s.isoLogged ∧ (s.after t l).dramLogged = s.dramLogged ∧
    (s.after t l).coefBad = s.coefBad ∧ (s.after t l).coefOld = s.coefOld ∧ (s.after t l).polSigned = s.polSigned ∧
    (s.after t l).cob = s.cob ∧ (s.after t l).nor = s.nor ∧ (s.after t l).hub = s.hub ∧
    (s.after t l).jtag = s.jtag ∧ (s.after t l).banks = s.banks ∧ (s.after t l).seqMem = s.seqMem ∧
    (s.after t l).capMem = s.capMem ∧ (s.after t l).freeCount = s.freeCount ∧ (s.after t l).pending = s.pending := by
  repeat' (refine And.intro rfl ?_)
  rfl

/-! ### Registers -/

/-- A read of a register depends on the registers alone. -/
theorem State.rd_congr {s t : State} (h : s.regs = t.regs) (a : Nat) : s.rd a = t.rd a := by
  unfold State.rd
  rw [h]
theorem State.lv_congr {s t : State} (h : s.live = t.live) (a : Nat) : s.lv a = t.lv a := by
  unfold State.lv
  rw [h]
@[simp] theorem State.rd_wr_same (s : State) (a : Nat) (w : Word) : (s.wr a w).rd a = w := SMap.get_set_same ..
theorem State.rd_wr_ne (s : State) {a b : Nat} (w : Word) (h : b ≠ a) : (s.wr a w).rd b = s.rd b := by
  simp only [State.rd, State.wr]
  exact SMap.get_set_ne _ _ _ _ h
theorem State.rd_wr (s : State) (a b : Nat) (w : Word) : (s.wr a w).rd b = if b = a then w else s.rd b := by
  split
  · subst b; simp
  · exact rd_wr_ne _ _ ‹_›
@[simp] theorem State.lv_wl_same (s : State) (a : Nat) (w : Word) : (s.wl a w).lv a = w := SMap.get_set_same ..
theorem State.lv_wl_ne (s : State) {a b : Nat} (w : Word) (h : b ≠ a) : (s.wl a w).lv b = s.lv b := by
  simp only [State.lv, State.wl]
  exact SMap.get_set_ne _ _ _ _ h
@[simp] theorem State.rd_wl (s : State) (a b : Nat) (w : Word) : (s.wl a w).rd b = s.rd b := rfl
@[simp] theorem State.lv_wr (s : State) (a b : Nat) (w : Word) : (s.wr a w).lv b = s.lv b := rfl

@[simp] theorem State.rd_setFld_same (s : State) (a : Nat) (f : Fld) (v : Nat) : (s.setFld a f v).rd a = f.put (s.rd a) v := rd_wr_same ..
theorem State.rd_setFld_ne (s : State) {a b : Nat} (f : Fld) (v : Nat) (h : b ≠ a) : (s.setFld a f v).rd b = s.rd b := rd_wr_ne _ _ h
@[simp] theorem State.rd_setBit_same (s : State) (a : Nat) (f : Fld) (b : Bool) : (s.setBit a f b).rd a = f.put (s.rd a) b.toNat :=
  rd_wr_same ..
theorem State.rd_setBit_ne (s : State) {a b : Nat} (f : Fld) (v : Bool) (h : b ≠ a) : (s.setBit a f v).rd b = s.rd b := rd_wr_ne _ _ h
@[simp] theorem State.rd_raise_same (s : State) (a : Nat) (f : Fld) : (s.raise a f).rd a = f.put (s.rd a) 1 := rd_wr_same ..
theorem State.rd_raise_ne (s : State) {a b : Nat} (f : Fld) (h : b ≠ a) : (s.raise a f).rd b = s.rd b := rd_wr_ne _ _ h
theorem State.rd_raiseIf_ne (s : State) (c : Bool) {a b : Nat} (f : Fld) (h : b ≠ a) : (s.raiseIf c a f).rd b = s.rd b := by
  unfold State.raiseIf
  split
  · exact rd_raise_ne _ _ h
  · rfl
theorem State.rd_raiseIf_same (s : State) (c : Bool) (a : Nat) (f : Fld) :
    (s.raiseIf c a f).rd a = if c then f.put (s.rd a) 1 else s.rd a := by
  unfold State.raiseIf
  split <;> simp
@[simp] theorem State.rd_setBitAt_same (s : State) (a b : Nat) : (s.setBitAt a b).rd a = s.rd a ||| BitVec.ofNat 32 (2 ^ b) := rd_wr_same ..
theorem State.rd_setBitAt_ne (s : State) {a c : Nat} (b : Nat) (h : c ≠ a) : (s.setBitAt a b).rd c = s.rd c := rd_wr_ne _ _ h
@[simp] theorem State.rd_clrBitAt_same (s : State) (a b : Nat) : (s.clrBitAt a b).rd a = s.rd a &&& ~~~(BitVec.ofNat 32 (2 ^ b)) :=
  rd_wr_same ..
theorem State.rd_clrBitAt_ne (s : State) {a c : Nat} (b : Nat) (h : c ≠ a) : (s.clrBitAt a b).rd c = s.rd c := rd_wr_ne _ _ h

/-- A field of at most 32 bits, written with a value that fits, reads back. -/
theorem State.fld_setFld_same (s : State) (a : Nat) (f : Fld) (v : Nat) (hf : f.lsb + f.width ≤ 32) (hv : v < 2 ^ f.width) :
    (s.setFld a f v).fld a f = v := by
  simp only [State.fld, rd_setFld_same, Fld.get_put _ _ _ hf]
  exact Nat.mod_eq_of_lt hv

@[simp] theorem State.rd_setChan (s : State) (n : Nat) (c : ChSt) (a : Nat) : (s.setChan n c).rd a = s.rd a := rfl
@[simp] theorem State.rd_updChan (s : State) (n : Nat) (f : ChSt → ChSt) (a : Nat) : (s.updChan n f).rd a = s.rd a := rfl
@[simp] theorem State.rd_updCluster (s : State) (n : Nat) (f : CluSt → CluSt) (a : Nat) : (s.updCluster n f).rd a = s.rd a := rfl
@[simp] theorem State.rd_after (s : State) (t : Nat) (l : Later) (a : Nat) : (s.after t l).rd a = s.rd a := rfl

/-! ### Units -/

@[simp] theorem State.chan_setChan_same (s : State) (n : Nat) (c : ChSt) : (s.setChan n c).chan n = c := SMap.get_set_same ..
theorem State.chan_setChan_ne (s : State) {n m : Nat} (c : ChSt) (h : m ≠ n) : (s.setChan n c).chan m = s.chan m :=
  SMap.get_set_ne _ _ _ _ h
@[simp] theorem State.chan_updChan_same (s : State) (n : Nat) (f : ChSt → ChSt) : (s.updChan n f).chan n = f (s.chan n) :=
  chan_setChan_same ..
theorem State.chan_updChan_ne (s : State) {n m : Nat} (f : ChSt → ChSt) (h : m ≠ n) : (s.updChan n f).chan m = s.chan m :=
  chan_setChan_ne _ _ h
@[simp] theorem State.cluster_setCluster_same (s : State) (g : Nat) (c : CluSt) : (s.setCluster g c).cluster g = c := SMap.get_set_same ..
theorem State.cluster_setCluster_ne (s : State) {g m : Nat} (c : CluSt) (h : m ≠ g) : (s.setCluster g c).cluster m = s.cluster m :=
  SMap.get_set_ne _ _ _ _ h
@[simp] theorem State.cluster_updCluster_same (s : State) (g : Nat) (f : CluSt → CluSt) :
    (s.updCluster g f).cluster g = f (s.cluster g) := cluster_setCluster_same ..
theorem State.cluster_updCluster_ne (s : State) {g m : Nat} (f : CluSt → CluSt) (h : m ≠ g) :
    (s.updCluster g f).cluster m = s.cluster m := cluster_setCluster_ne _ _ h
@[simp] theorem State.grp_setGrp_same (s : State) (x : Nat) (g : GrpSt) : (s.setGrp x g).grp x = g := SMap.get_set_same ..
@[simp] theorem State.dmaCh_setDma_same (s : State) (d : Nat) (x : DmaSt) : (s.setDma d x).dmaCh d = x := SMap.get_set_same ..
@[simp] theorem State.lane_setLane_same (s : State) (l : Nat) (x : LaneSt) : (s.setLane l x).lane l = x := SMap.get_set_same ..

/-! ### Shared operations -/

/-- A write to the span of a tile that is UP has its effect; one to another tile is discarded (R38). -/
theorem State.toTile_up (s : State) (t a : Nat) (f : State → Out) (h : s.tileUp t = true) : s.toTile t a f = f s := by
  simp [State.toTile, h]
theorem State.toTile_down (s : State) (t a : Nat) (f : State → Out) (h : s.tileUp t = false) :
    s.toTile t a f = .next (s.discardWrite t a) := by
  simp [State.toTile, h]

/-- A message changes only the host's side: the pending bits, the words written to the host, their count, the TLPs ready to go (R318). -/
theorem State.sendVec_eq (s : State) (v : Nat) : ∃ p m c r, s.sendVec v = { s with host := { s.host with pba := p, mem := m, sent := c, ready := r } } := by
  unfold State.sendVec
  dsimp only
  split
  · exact ⟨_, s.host.mem, s.host.sent, s.host.ready, rfl⟩
  · exact ⟨_, _, _, _, rfl⟩
@[simp] theorem State.rd_sendVec (s : State) (v a : Nat) : (s.sendVec v).rd a = s.rd a := by
  obtain ⟨p, m, c, r, e⟩ := s.sendVec_eq v
  rw [e]
  rfl
/-- `withVec` does what its update does, but for a message. -/
theorem State.withVec_eq (s : State) (v : Nat) (f : State → State) :
    ∃ p m c r, s.withVec v f = { f s with host := { (f s).host with pba := p, mem := m, sent := c, ready := r } } := by
  unfold State.withVec
  dsimp only
  split
  · exact sendVec_eq _ _
  · exact ⟨(f s).host.pba, (f s).host.mem, (f s).host.sent, (f s).host.ready, rfl⟩
@[simp] theorem State.rd_withVec (s : State) (v : Nat) (f : State → State) (a : Nat) : (s.withVec v f).rd a = (f s).rd a := by
  obtain ⟨p, m, c, r, e⟩ := s.withVec_eq v f
  rw [e]
  rfl

end Sys2Proof.Machine
end

