-- ==== Sys2Proof/Laws/Events.lean ====
section
/-!
SUPPORT. What the shared operations that report do: messages, interrupt bits, event log entries, FAULT_N. Each has a lemma for what it
reads afterwards, and one for what it leaves: `f_frame` as an equation of states.
-/

namespace Sys2Proof.Machine

/-- Whatever does not read the registers or the messages sees no change through `withVec` and an update of the registers. -/
theorem State.withVec_same {β : Type} (F : State → β) (s : State) (v : Nat) (f : State → State)
    (hm : ∀ (t : State) p m c r, F { t with host := { t.host with pba := p, mem := m, sent := c, ready := r } } = F t) : F (s.withVec v f) = F (f s) := by
  obtain ⟨p, m, c, r, e⟩ := s.withVec_eq v f
  rw [e, hm]

theorem State.quiet.refl (s : State) : s.quiet s := ⟨rfl, rfl⟩
theorem State.quiet.trans {s t u : State} (h : s.quiet t) (k : t.quiet u) : s.quiet u := by
  obtain ⟨h1, h2⟩ := h
  obtain ⟨k1, k2⟩ := k
  refine ⟨?_, ?_⟩
  · rw [k1, h1]
  · unfold State.msgOnly at *
    rw [k2, h2]
theorem State.quiet.logged {s t : State} (h : s.quiet t) : s.logged t := by
  obtain ⟨h1, h2⟩ := h
  refine ⟨?_, h2⟩
  rw [h1]
theorem State.logged.refl (s : State) : s.logged s := ⟨rfl, rfl⟩
theorem State.logged.trans {s t u : State} (h : s.logged t) (k : t.logged u) : s.logged u := by
  obtain ⟨h1, h2⟩ := h
  obtain ⟨k1, k2⟩ := k
  refine ⟨?_, ?_⟩
  · rw [k1, h1]
  · unfold State.msgOnly at *
    rw [k2, h2]
theorem State.onlyRegs.refl (s : State) : s.onlyRegs s := rfl
theorem State.onlyRegs.trans {s t u : State} (h : s.onlyRegs t) (k : t.onlyRegs u) : s.onlyRegs u := by
  unfold State.onlyRegs at *
  rw [k, h]
theorem State.onlyRegs.quiet {s t : State} (h : s.onlyRegs t) : s.quiet t := by
  unfold State.onlyRegs at h
  rw [h]
  exact ⟨rfl, rfl⟩
theorem State.onlyRegs_wr (s : State) (a : Nat) (w : Word) : s.onlyRegs (s.wr a w) := rfl
theorem State.onlyRegs_setFld (s : State) (a : Nat) (f : Fld) (v : Nat) : s.onlyRegs (s.setFld a f v) := s.onlyRegs_wr ..
theorem State.onlyRegs_setBit (s : State) (a : Nat) (f : Fld) (b : Bool) : s.onlyRegs (s.setBit a f b) := s.onlyRegs_wr ..
theorem State.onlyRegs_raise (s : State) (a : Nat) (f : Fld) : s.onlyRegs (s.raise a f) := s.onlyRegs_wr ..
theorem State.onlyRegs_setBitAt (s : State) (a b : Nat) : s.onlyRegs (s.setBitAt a b) := s.onlyRegs_wr ..
theorem State.onlyRegs_clrBitAt (s : State) (a b : Nat) : s.onlyRegs (s.clrBitAt a b) := s.onlyRegs_wr ..
theorem State.onlyRegs_incWrap (s : State) (a : Nat) (f : Fld) : s.onlyRegs (s.incWrap a f) := s.onlyRegs_wr ..
theorem State.onlyRegs_wr64 (s : State) (a v : Nat) : s.onlyRegs (s.wr64 a v) := (s.onlyRegs_wr ..).trans (State.onlyRegs_wr ..)
theorem State.onlyRegs_raiseIf (s : State) (c : Bool) (a : Nat) (f : Fld) : s.onlyRegs (s.raiseIf c a f) := by
  unfold State.raiseIf
  split
  · exact s.onlyRegs_raise ..
  · exact .refl s
theorem State.onlyRegs_incSat (s : State) (a : Nat) (f : Fld) : s.onlyRegs (s.incSat a f) := by
  unfold State.incSat
  dsimp only
  split
  · exact s.onlyRegs_setFld ..
  · exact .refl s

theorem State.quiet_wr (s : State) (a : Nat) (w : Word) : s.quiet (s.wr a w) := ⟨rfl, rfl⟩
theorem State.quiet_setFld (s : State) (a : Nat) (f : Fld) (v : Nat) : s.quiet (s.setFld a f v) := s.quiet_wr ..
theorem State.quiet_setBit (s : State) (a : Nat) (f : Fld) (b : Bool) : s.quiet (s.setBit a f b) := s.quiet_wr ..
theorem State.quiet_raise (s : State) (a : Nat) (f : Fld) : s.quiet (s.raise a f) := s.quiet_wr ..
theorem State.quiet_setBitAt (s : State) (a b : Nat) : s.quiet (s.setBitAt a b) := s.quiet_wr ..
theorem State.quiet_clrBitAt (s : State) (a b : Nat) : s.quiet (s.clrBitAt a b) := s.quiet_wr ..
theorem State.quiet_raiseIf (s : State) (c : Bool) (a : Nat) (f : Fld) : s.quiet (s.raiseIf c a f) := by
  unfold State.raiseIf
  split
  · exact s.quiet_raise ..
  · exact .refl s
theorem State.quiet_incSat (s : State) (a : Nat) (f : Fld) : s.quiet (s.incSat a f) := by
  unfold State.incSat
  try dsimp only
  repeat' split
  all_goals first
    | exact .refl s
    | exact s.quiet_setFld ..
theorem State.quiet_incWrap (s : State) (a : Nat) (f : Fld) : s.quiet (s.incWrap a f) := s.quiet_wr ..
theorem State.quiet_wr64 (s : State) (a v : Nat) : s.quiet (s.wr64 a v) := (s.quiet_wr ..).trans (State.quiet_wr ..)
theorem State.quiet_sendVec (s : State) (v : Nat) : s.quiet (s.sendVec v) := by
  obtain ⟨p, m, c, r, e⟩ := s.sendVec_eq v
  rw [e]
  exact ⟨rfl, rfl⟩
theorem State.quiet_withVec (s : State) (v : Nat) (f : State → State) (hf : s.quiet (f s)) : s.quiet (s.withVec v f) := by
  obtain ⟨p, m, c, r, e⟩ := s.withVec_eq v f
  rw [e]
  exact hf.trans ⟨rfl, rfl⟩

/-! ### Interrupt bits -/

@[simp] theorem State.rd_chEvent (s : State) (n : Nat) (f : Fld) (a : Nat) :
    (s.chEvent n f).rd a = (s.raise (CH_INT_STAT n) f).rd a := by simp [State.chEvent]
@[simp] theorem State.rd_cluEvent (s : State) (g : Nat) (f : Fld) (a : Nat) :
    (s.cluEvent g f).rd a = (s.raise (CLU_INT_STAT g) f).rd a := by simp [State.cluEvent]
@[simp] theorem State.rd_hubEvent (s : State) (f : Fld) (a : Nat) :
    (s.hubEvent f).rd a = (s.raise HUB_INT_STAT f).rd a := by simp [State.hubEvent]
@[simp] theorem State.rd_phbEvent (s : State) (f : Fld) (a : Nat) :
    (s.phbEvent f).rd a = (s.raise PHB_STAT f).rd a := by simp [State.phbEvent]
theorem State.quiet_chEvent (s : State) (n : Nat) (f : Fld) : s.quiet (s.chEvent n f) :=
  s.quiet_withVec _ _ (s.quiet_raise ..)
theorem State.quiet_cluEvent (s : State) (g : Nat) (f : Fld) : s.quiet (s.cluEvent g f) :=
  s.quiet_withVec _ _ (s.quiet_raise ..)
theorem State.quiet_hubEvent (s : State) (f : Fld) : s.quiet (s.hubEvent f) := s.quiet_withVec _ _ (s.quiet_raise ..)
theorem State.quiet_phbEvent (s : State) (f : Fld) : s.quiet (s.phbEvent f) := s.quiet_withVec _ _ (s.quiet_raise ..)

/-! ### The event log (R353) -/

/-- The entry that `logEvAt` makes. -/
def State.entryAt (s : State) (stamp src bit sev addr d0 d1 : Nat) : LogEntry := ⟨bit, src, sev, s.log.seq, stamp, addr, d0, d1⟩

theorem State.logEvAt_eq (s : State) (stamp src bit sev addr d0 d1 : Nat) :
    ∃ w p m c r, s.logEvAt stamp src bit sev addr d0 d1 = { s.wr MBX_EVT_STAT w with
      log := { s.log with ring := (s.entryAt stamp src bit sev addr d0 d1 :: s.log.ring).take 512, seq := s.log.seq + 1
                          ceiling := nextCeiling s.cob.up (s.log.seq + 1) s.log.ceiling, unmirrored := s.log.unmirrored + 1 }
      host := { s.host with pba := p, mem := m, sent := c, ready := r } } ∨
    s.logEvAt stamp src bit sev addr d0 d1 = { s with
      log := { s.log with ring := (s.entryAt stamp src bit sev addr d0 d1 :: s.log.ring).take 512, seq := s.log.seq + 1
                          ceiling := nextCeiling s.cob.up (s.log.seq + 1) s.log.ceiling, unmirrored := s.log.unmirrored + 1 } } := by
  unfold State.logEvAt
  dsimp only
  split
  · obtain ⟨p, m, c, r, e⟩ := State.withVec_eq { s with log := { s.log with
      ring := (s.entryAt stamp src bit sev addr d0 d1 :: s.log.ring).take 512, seq := s.log.seq + 1
      ceiling := nextCeiling s.cob.up (s.log.seq + 1) s.log.ceiling, unmirrored := s.log.unmirrored + 1 } } 5
      (fun u => u.raise MBX_EVT_STAT fMBX_EVT_STAT_LOG)
    exact ⟨_, p, m, c, r, Or.inl e⟩
  · exact ⟨0, 0, [], [], [], Or.inr rfl⟩
theorem State.rd_logEvAt_ne (s : State) (stamp src bit sev addr d0 d1 : Nat) {a : Nat} (h : a ≠ MBX_EVT_STAT) :
    (s.logEvAt stamp src bit sev addr d0 d1).rd a = s.rd a := by
  obtain ⟨w, p, m, c, r, e | e⟩ := s.logEvAt_eq stamp src bit sev addr d0 d1
  · rw [e]; exact rd_wr_ne s w h
  · rw [e]; rfl
theorem State.log_logEvAt (s : State) (stamp src bit sev addr d0 d1 : Nat) :
    (s.logEvAt stamp src bit sev addr d0 d1).log = { s.log with
      ring := (s.entryAt stamp src bit sev addr d0 d1 :: s.log.ring).take 512, seq := s.log.seq + 1
      ceiling := nextCeiling s.cob.up (s.log.seq + 1) s.log.ceiling, unmirrored := s.log.unmirrored + 1 } := by
  obtain ⟨w, p, m, c, r, e | e⟩ := s.logEvAt_eq stamp src bit sev addr d0 d1 <;> rw [e]
/-- But for the log, an entry changes MBX_EVT_STAT and messages only. -/
theorem State.logged_logEvAt (s : State) (stamp src bit sev addr d0 d1 : Nat) :
    s.logged (s.logEvAt stamp src bit sev addr d0 d1) := by
  obtain ⟨w, p, m, c, r, e | e⟩ := s.logEvAt_eq stamp src bit sev addr d0 d1 <;> rw [e] <;> exact ⟨rfl, rfl⟩
theorem State.rd_logEv_ne (s : State) (src bit sev addr d0 d1 : Nat) {a : Nat} (h : a ≠ MBX_EVT_STAT) :
    (s.logEv src bit sev addr d0 d1).rd a = s.rd a := rd_logEvAt_ne _ _ _ _ _ _ _ _ h

theorem State.logged_logEv (s : State) (src bit sev addr d0 d1 : Nat) : s.logged (s.logEv src bit sev addr d0 d1) :=
  s.logged_logEvAt ..
theorem State.newest_logEvAt (s : State) (stamp src bit sev addr d0 d1 : Nat) :
    (s.logEvAt stamp src bit sev addr d0 d1).newest src bit addr d0 d1 := by
  refine ⟨s.entryAt stamp src bit sev addr d0 d1, ?_, rfl, rfl, rfl, rfl, rfl⟩
  rw [log_logEvAt]
  rfl
theorem State.newest_logEv (s : State) (src bit sev addr d0 d1 : Nat) : (s.logEv src bit sev addr d0 d1).newest src bit addr d0 d1 :=
  newest_logEvAt ..
/-- What leaves the log leaves its newest entry. -/
theorem State.newest_quiet {s t : State} {src bit addr d0 d1 : Nat} (h : s.newest src bit addr d0 d1) (k : s.quiet t) :
    t.newest src bit addr d0 d1 := by
  unfold State.newest at *
  rw [k.1]
  exact h

/-! ### The link and error log (R327) -/

theorem State.elogged.refl (s : State) : s.elogged s := ⟨rfl, rfl⟩
theorem State.elogged.trans {s t u : State} (h : s.elogged t) (k : t.elogged u) : s.elogged u := by
  obtain ⟨h1, h2⟩ := h
  obtain ⟨k1, k2⟩ := k
  refine ⟨?_, ?_⟩
  · rw [k1, h1]
  · rw [k2, h2]
theorem State.logged.elogged {s t : State} (h : s.logged t) : s.elogged t := by
  obtain ⟨h1, h2⟩ := h
  unfold State.msgOnly at h2
  refine ⟨?_, ?_⟩
  · rw [h1]
  · rw [h2]
theorem State.quiet.elogged {s t : State} (h : s.quiet t) : s.elogged t := h.logged.elogged

/-- A PCIe error changes AER and messages only. -/
theorem State.aerNote_eq (s : State) (cls : Nat) (hdr : Tlp) :
    ∃ r a u c, s.aerNote cls hdr = { s with host := { s.host with ready := r, aer := a, aerUnc := u, aerCor := c } } := by
  unfold State.aerNote
  dsimp only
  repeat' split
  all_goals exact ⟨_, _, _, _, rfl⟩
theorem State.elogged_count (u : State) (k : Nat) : u.elogged { u with elogCount := k } := ⟨rfl, rfl⟩
theorem State.elogged_aerNote (u : State) (cls : Nat) (hdr : Tlp) : u.elogged (u.aerNote cls hdr) := by
  obtain ⟨r, a, v, c, e⟩ := u.aerNote_eq cls hdr
  rw [e]
  exact ⟨rfl, rfl⟩
theorem State.log_aerNote (u : State) (cls : Nat) (hdr : Tlp) : (u.aerNote cls hdr).log = u.log := by
  obtain ⟨r, a, v, c, e⟩ := u.aerNote_eq cls hdr
  rw [e]
@[simp] theorem State.rd_aerNote (u : State) (cls : Nat) (hdr : Tlp) (a : Nat) : (u.aerNote cls hdr).rd a = u.rd a := by
  obtain ⟨r, x, v, c, e⟩ := u.aerNote_eq cls hdr
  rw [e]
  rfl

theorem State.elogged_elog (s : State) (cls vc : Nat) (hdr : Tlp) (addr : Nat) : s.elogged (s.elog cls vc hdr addr) := by
  unfold State.elog
  dsimp only
  split
  · refine State.elogged.trans ?_ (State.elogged_aerNote _ _ _)
    split
    · exact (s.quiet_wr _ _).elogged
    · exact .refl s
  · refine State.elogged.trans ?_ ((State.quiet_withVec _ _ _ (State.quiet_raise _ _ _)).elogged)
    refine State.elogged.trans ?_ ((State.logged_logEv _ _ _ _ _ _ _).elogged)
    refine State.elogged.trans ?_ ((State.quiet_setBitAt _ _ _).elogged)
    refine State.elogged.trans ?_ (State.elogged_aerNote _ _ _)
    refine State.elogged.trans ?_ (State.elogged_count _ _)
    refine State.elogged.trans ?_ ((State.quiet_setFld _ _ _ _).elogged)
    refine State.elogged.trans ?_ ((State.quiet_raiseIf _ _ _ _).elogged)
    repeat' (refine State.elogged.trans ?_ ((State.quiet_wr _ _ _).elogged))
    exact .refl s

theorem elogReg_ring {i j : Nat} (hi : i < 64) (hj : j < 8) : elogReg (PCI_ELOG i j) := by
  unfold elogReg PCI_ELOG
  omega

@[simp] theorem State.rd_hostSet (u : State) (h : HostSt) (a : Nat) : ({ u with host := h } : State).rd a = u.rd a := rfl
@[simp] theorem State.rd_elogRest (u : State) (k : Nat) (a : Nat) : ({ u with elogCount := k } : State).rd a = u.rd a := rfl

theorem State.rd_elog_ne (s : State) (cls vc : Nat) (hdr : Tlp) (addr : Nat) {a : Nat} (h : ¬ elogReg a) :
    (s.elog cls vc hdr addr).rd a = s.rd a := by
  have hn : s.fld PCI_ELOG_STAT fPCI_ELOG_STAT_NEXT < 64 := Nat.mod_lt _ (by decide)
  have hr : ∀ i j, i < 64 → j < 8 → a ≠ PCI_ELOG i j := fun i j hi hj e => h (e ▸ elogReg_ring hi hj)
  have h1 : a ≠ PCI_ELOG_STAT := fun e => h (by simp [elogReg, e])
  have h2 : a ≠ PCI_ELOG_SEEN_LO := fun e => h (by simp [elogReg, e])
  have h3 : a ≠ PCI_ELOG_SEEN_HI := fun e => h (by simp [elogReg, e])
  have h4 : a ≠ PCI_INT_STAT := fun e => h (by simp [elogReg, e])
  have h5 : a ≠ MBX_EVT_STAT := fun e => h (by simp [elogReg, e])
  unfold State.elog
  dsimp only
  split
  · rw [rd_aerNote]
    split
    · exact rd_wr_ne _ _ (hr _ _ (Nat.mod_lt _ (by decide)) (by decide))
    · rfl
  · rw [rd_withVec, rd_raise_ne _ _ h4, rd_logEv_ne _ _ _ _ _ _ _ h5, rd_setBitAt_ne _ _ (by split <;> assumption)]
    rw [rd_aerNote, rd_elogRest, rd_setFld_ne _ _ _ h1]
    rw [rd_raiseIf_ne _ _ _ h1]
    repeat rw [rd_wr_ne _ _ (hr _ _ hn (by decide))]

theorem State.elog_new_aux (s t : State) (cls vc : Nat) (hdr : Tlp) (addr : Nat) (h : s.elogRepeats cls hdr = false)
    (ht : t = s.elog cls vc hdr addr) : s.elogEntry t cls vc hdr addr := by
  unfold State.elogEntry
  intro nx seen
  have hn : nx < 64 := Nat.mod_lt _ (by decide)
  have hw : ∀ i j, i < 8 → j < 8 → (PCI_ELOG nx i = PCI_ELOG nx j ↔ i = j) := by
    intro i j hi hj
    unfold PCI_ELOG
    omega
  have hs : ∀ i, i < 8 → PCI_ELOG nx i ≠ PCI_ELOG_STAT ∧ PCI_ELOG nx i ≠ PCI_ELOG_SEEN_LO ∧ PCI_ELOG nx i ≠ PCI_ELOG_SEEN_HI ∧
      PCI_ELOG nx i ≠ PCI_INT_STAT ∧ PCI_ELOG nx i ≠ MBX_EVT_STAT := by
    intro i hi
    simp only [PCI_ELOG, PCI_ELOG_STAT, PCI_ELOG_SEEN_LO, PCI_ELOG_SEEN_HI, PCI_INT_STAT, MBX_EVT_STAT, bar4Base]
    omega
  have hseen : seen = PCI_ELOG_SEEN_LO ∨ seen = PCI_ELOG_SEEN_HI := by
    simp only [seen]
    split <;> simp
  unfold State.elog at ht
  unfold State.elogRepeats at h
  dsimp only at h ht
  rw [if_neg (by simpa using h)] at ht
  have hrd : ∀ i, i < 8 → t.rd (PCI_ELOG nx i) = (((((((((s.wr (PCI_ELOG nx 0) (BitVec.ofNat 32 (cls + 256 * (vc % 2)))).wr
      (PCI_ELOG nx 1) (BitVec.ofNat 32 hdr.h0.toNat)).wr (PCI_ELOG nx 2) (BitVec.ofNat 32 hdr.h1.toNat)).wr
      (PCI_ELOG nx 3) (BitVec.ofNat 32 hdr.h2.toNat)).wr (PCI_ELOG nx 4) (BitVec.ofNat 32 hdr.h3.toNat)).wr
      (PCI_ELOG nx 5) (BitVec.ofNat 32 s.now)).wr (PCI_ELOG nx 6) (BitVec.ofNat 32 (s.now / 2 ^ 32))).wr
      (PCI_ELOG nx 7) (BitVec.ofNat 32 addr)).rd (PCI_ELOG nx i)) := by
    intro i hi
    obtain ⟨h1, h2, h3, h4, h5⟩ := hs i hi
    rw [ht, rd_withVec, rd_raise_ne _ _ h4, rd_logEv_ne _ _ _ _ _ _ _ h5, rd_setBitAt_ne _ _ (by split <;> assumption)]
    rw [rd_aerNote, rd_elogRest, rd_setFld_ne _ _ _ h1]
    rw [rd_raiseIf_ne _ _ _ h1]
  have hne : ∀ x, x ≠ PCI_INT_STAT → x ≠ MBX_EVT_STAT → x ≠ PCI_ELOG_STAT → (∀ i, i < 8 → x ≠ PCI_ELOG nx i) → x ≠ seen →
      t.rd x = s.rd x := by
    intro x h1 h2 h3 h4 h5
    rw [ht, rd_withVec, rd_raise_ne _ _ h1, rd_logEv_ne _ _ _ _ _ _ _ h2, rd_setBitAt_ne _ _ h5]
    rw [rd_aerNote, rd_elogRest, rd_setFld_ne _ _ _ h3]
    rw [rd_raiseIf_ne _ _ _ h3]
    repeat rw [rd_wr_ne _ _ (h4 _ (by decide))]
  have hstat : t.rd PCI_ELOG_STAT = fPCI_ELOG_STAT_NEXT.put (if 64 ≤ s.elogCount then fPCI_ELOG_STAT_WRAPPED.put (s.rd PCI_ELOG_STAT) 1
      else s.rd PCI_ELOG_STAT) (nx + 1) := by
    rw [ht, rd_withVec, rd_raise_ne _ _ (by decide), rd_logEv_ne _ _ _ _ _ _ _ (by decide),
      rd_setBitAt_ne _ _ (by rcases hseen with e | e <;> (simp only [seen] at e; rw [e]; decide))]
    rw [rd_aerNote, rd_elogRest, rd_setFld_same _ _ _ _]
    rw [rd_raiseIf_same]
    have : ∀ i, i < 8 → PCI_ELOG_STAT ≠ PCI_ELOG nx i := fun i hi e => (hs i hi).1 e.symm
    repeat rw [rd_wr_ne _ _ (this _ (by decide))]
    simp only [decide_eq_true_eq]
    rfl
  have hsr : t.rd seen = (s.rd seen ||| BitVec.ofNat 32 (2 ^ (cls % 32))) := by
    have hx : ∀ i, i < 8 → seen ≠ PCI_ELOG nx i := by
      intro i hi e
      rcases hseen with k | k
      · exact (hs i hi).2.1 (e ▸ k)
      · exact (hs i hi).2.2.1 (e ▸ k)
    have hc : seen ≠ PCI_INT_STAT ∧ seen ≠ MBX_EVT_STAT ∧ seen ≠ PCI_ELOG_STAT := by rcases hseen with k | k <;> rw [k] <;> decide
    rw [ht, rd_withVec, rd_raise_ne _ _ hc.1, rd_logEv_ne _ _ _ _ _ _ _ hc.2.1, rd_setBitAt_same]
    congr 1
    rw [rd_aerNote, rd_elogRest, rd_setFld_ne _ _ _ hc.2.2]
    rw [rd_raiseIf_ne _ _ _ hc.2.2]
    repeat rw [rd_wr_ne _ _ (hx _ (by decide))]
  have hi : t.rd PCI_INT_STAT = fPCI_INT_STAT_ELOG.put (s.rd PCI_INT_STAT) 1 := by
    have hx : ∀ i, i < 8 → PCI_INT_STAT ≠ PCI_ELOG nx i := fun i hi e => (hs i hi).2.2.2.1 e.symm
    rw [ht, rd_withVec, rd_raise_same, rd_logEv_ne _ _ _ _ _ _ _ (by decide),
      rd_setBitAt_ne _ _ (by rcases hseen with e | e <;> (simp only [seen] at e; rw [e]; decide))]
    congr 1
    rw [rd_aerNote, rd_elogRest, rd_setFld_ne _ _ _ (by decide)]
    rw [rd_raiseIf_ne _ _ _ (by decide)]
    repeat rw [rd_wr_ne _ _ (hx _ (by decide))]
  have w : ∀ {i j}, i < 8 → j < 8 → i ≠ j → PCI_ELOG nx i ≠ PCI_ELOG nx j := fun hi hj h e => h ((hw _ _ hi hj).1 e)
  refine ⟨?_, ?_, ?_, ?_, ?_, ?_, ?_, hsr, hi, ?_, ?_⟩
  · rw [hrd 0 (by decide)]
    repeat (first | rw [rd_wr_same] | (rw [rd_wr_ne _ _ (w (by decide) (by decide) (by decide))]))
  · rw [hrd 7 (by decide), rd_wr_same]
  · rw [hrd 1 (by decide)]
    repeat (first | rw [rd_wr_same] | (rw [rd_wr_ne _ _ (w (by decide) (by decide) (by decide))]))
    simp
  · rw [hrd 2 (by decide)]
    repeat (first | rw [rd_wr_same] | (rw [rd_wr_ne _ _ (w (by decide) (by decide) (by decide))]))
    simp
  · rw [hrd 3 (by decide)]
    repeat (first | rw [rd_wr_same] | (rw [rd_wr_ne _ _ (w (by decide) (by decide) (by decide))]))
    simp
  · rw [hrd 4 (by decide)]
    repeat (first | rw [rd_wr_same] | (rw [rd_wr_ne _ _ (w (by decide) (by decide) (by decide))]))
    simp
  · unfold State.fld
    rw [hstat, Fld.get_put _ _ _ (by decide)]
    rfl
  · rw [ht, ((quiet_withVec _ _ _ (quiet_raise _ _ _)).1), ((logged_logEv _ _ _ _ _ _ _).1)]
    rfl
  · rw [ht]
    exact newest_quiet (newest_logEv _ _ _ _ _ _ _) (quiet_withVec _ _ _ (quiet_raise _ _ _))

/-- A new entry: class and virtual channel, the header's words, the address, at slot NEXT; the class's SEEN bit; NEXT one on; the
interrupt bit (R327, Table 15-6). -/
theorem State.elog_new (s : State) (cls vc : Nat) (hdr : Tlp) (addr : Nat) (h : s.elogRepeats cls hdr = false) :
    s.elogEntry (s.elog cls vc hdr addr) cls vc hdr addr := by
  exact elog_new_aux s _ cls vc hdr addr h rfl

/-! ### FAULT_N (R390) -/

theorem State.quiet_raiseFault (s : State) (b : Nat) :
    ({ s with faultTick := some s.tick } : State).quiet (s.raiseFault b) := by
  unfold State.raiseFault State.hubEvent
  dsimp only
  refine State.quiet.trans ?_ (State.quiet_withVec _ _ _ (State.quiet_raise _ _ _))
  exact ((State.quiet_setBitAt _ _ _).trans (State.quiet_raise _ _ _)).trans (State.quiet_raiseIf _ _ _ _)
theorem State.quiet.raiseFault {u x : State} (h : u.quiet x) (b : Nat) :
    ({ u with faultTick := some u.tick } : State).quiet (x.raiseFault b) := by
  refine State.quiet.trans ?_ (State.quiet_raiseFault x b)
  obtain ⟨h1, h2⟩ := h
  unfold State.msgOnly at h2
  generalize x.regs = r at h1
  generalize x.host = o at h1 h2
  subst h1
  exact ⟨rfl, h2⟩
theorem State.rd_raiseFault_ne (s : State) (b : Nat) {a : Nat} (h : a ≠ HUB_FAULT_STAT) (h' : a ≠ HUB_INT_STAT) :
    (s.raiseFault b).rd a = s.rd a := by
  unfold State.raiseFault
  rw [rd_hubEvent, rd_raise_ne _ _ h', rd_raiseIf_ne _ _ _ h, rd_raise_ne _ _ h, rd_setBitAt_ne _ _ h]
  rfl

end Sys2Proof.Machine
end

