-- ==== Sys2Proof/Laws/Kept.lean ====
section
/-!
SUPPORT. What most operations leave as it is: the addressed memories and the queue of commands. `kept` reads them; one lemma per
operation, `f_kept`, says that `f` leaves them; the lemmas are simp lemmas that apply before their arguments are rewritten.
-/

namespace Sys2Proof.Machine

/-- What most commands leave alone: the addressed memories, and the queue. -/
abbrev Kept := Mem × Mem × Mem × List Instr
/-- Sequence memory, the structure banks, the capture buffers, the queue. -/
def State.kept (s : State) : Kept := (s.seqMem, s.banks, s.capMem, s.pending)
/-- The same of an outcome. -/
def Out.kept (o : Out) : Option Kept :=
  match o with
  | .next t => some t.kept
  | _ => none

@[simp ↓] theorem Out.kept_next (t : State) : Out.kept (.next t) = some t.kept := (rfl)
@[simp ↓] theorem State.kept_mk (tick : Nat) (regs : SMap Word) (live : SMap Word) (latches : SMap Word) (phase : PhaseSt) (ch : SMap ChSt) (clu : SMap CluSt) (quad : SMap QuadSt) (lanes : SMap LaneSt) (grps : SMap GrpSt) (dma : SMap DmaSt) (ramps : List Ramp) (sess : SessSt) (wtrim : Option WTrimSt) (taps : SMap (Option Int)) (hours : Nat) (shares : List Share) (sums : List (Nat × Int × Nat)) (aux : SMap Int) (laneIn : SMap Bool) (faultTick : Option Nat) (hubCommit : CommitSt) (log : LogSt) (host : HostSt) (skl : SklSt) (elogCount : Nat) (isoLogged : Nat) (dramLogged : Bool) (coefBad : SMap Word) (coefOld : SMap Word) (polSigned : Bool) (cob : CobSt) (nor : NorSt) (hub : HubSt) (jtag : TapSt) (banks : Mem) (seqMem : Mem) (capMem : Mem) (later : List (Nat × Later)) (freeCount : Nat) (pending : List Instr) :
    State.kept ⟨tick, regs, live, latches, phase, ch, clu, quad, lanes, grps, dma, ramps, sess, wtrim, taps, hours, shares, sums, aux, laneIn, faultTick, hubCommit, log, host, skl, elogCount, isoLogged, dramLogged, coefBad, coefOld, polSigned, cob, nor, hub, jtag, banks, seqMem, capMem, later, freeCount, pending⟩ = (seqMem, banks, capMem, pending) := (rfl)
@[simp ↓] theorem State.kept_fold (s : State) : (s.seqMem, s.banks, s.capMem, s.pending) = s.kept := (rfl)

@[simp ↓] theorem State.kept_ite (c : Prop) [Decidable c] (a b : State) :
    (if c then a else b).kept = if c then a.kept else b.kept := apply_ite ..
@[simp ↓] theorem Out.kept_ite (c : Prop) [Decidable c] (a b : Out) :
    Out.kept (if c then a else b) = if c then Out.kept a else Out.kept b := apply_ite ..

@[simp ↓] theorem State.foldl_kept {α : Type} (f : State → α → State) (xs : List α) (s : State)
    (h : ∀ t x, (f t x).kept = t.kept) : (xs.foldl f s).kept = s.kept := by
  induction xs generalizing s with
  | nil => rfl
  | cons x xs ih => rw [List.foldl_cons, ih, h]

@[simp ↓] theorem State.over_kept {α : Type} (f : State → α → State) (xs : List α) (s : State)
    (h : ∀ t x, (f t x).kept = t.kept) : (s.over xs f).kept = s.kept := foldl_kept f xs s h

theorem State.ite_kept_eq {c : Prop} [Decidable c] {a b : State} {k : Kept} (ha : c → a.kept = k) (hb : ¬ c → b.kept = k) :
    (if c then a else b).kept = k := by
  split
  · exact ha ‹_›
  · exact hb ‹_›

end Sys2Proof.Machine
end

