-- ==== Sys2Proof/Laws/KeptCore.lean ====
section
/-!
SUPPORT. `kept` lemmas: the shared operations, sequence tracks, the safe path, event lanes, windows, samples, the Welt.
-/

set_option linter.unusedSimpArgs false

namespace Sys2Proof.Machine

/-! ### Ops.lean -/

@[simp ↓] theorem State.wr_kept (s : State) (a : Nat) (v : Word) :
    (State.wr s a v).kept = s.kept := by simp [State.wr]

@[simp ↓] theorem State.wl_kept (s : State) (a : Nat) (v : Word) :
    (State.wl s a v).kept = s.kept := by simp [State.wl]

@[simp ↓] theorem State.setFld_kept (s : State) (a : Nat) (f : Fld) (v : Nat) :
    (State.setFld s a f v).kept = s.kept := by simp [State.setFld]

@[simp ↓] theorem State.setBit_kept (s : State) (a : Nat) (f : Fld) (b : Bool) :
    (State.setBit s a f b).kept = s.kept := by simp [State.setBit]

@[simp ↓] theorem State.raise_kept (s : State) (a : Nat) (f : Fld) :
    (State.raise s a f).kept = s.kept := by simp [State.raise]

@[simp ↓] theorem State.raiseIf_kept (s : State) (c : Bool) (a : Nat) (f : Fld) :
    (State.raiseIf s c a f).kept = s.kept := by simp [State.raiseIf]

@[simp ↓] theorem State.setBitAt_kept (s : State) (a : Nat) (b : Nat) :
    (State.setBitAt s a b).kept = s.kept := by simp [State.setBitAt]

@[simp ↓] theorem State.clrBitAt_kept (s : State) (a : Nat) (b : Nat) :
    (State.clrBitAt s a b).kept = s.kept := by simp [State.clrBitAt]

@[simp ↓] theorem State.wr64_kept (s : State) (lo : Nat) (v : Nat) :
    (State.wr64 s lo v).kept = s.kept := by simp [State.wr64]

@[simp ↓] theorem State.incSat_kept (s : State) (a : Nat) (f : Fld) :
    (State.incSat s a f).kept = s.kept := by simp [State.incSat]

@[simp ↓] theorem State.incWrap_kept (s : State) (a : Nat) (f : Fld) :
    (State.incWrap s a f).kept = s.kept := by simp [State.incWrap]

@[simp ↓] theorem State.free_kept (s : State) :
    (State.free s).2.kept = s.kept := by simp [State.free]

@[simp ↓] theorem State.setChan_kept (s : State) (n : Nat) (c : ChSt) :
    (State.setChan s n c).kept = s.kept := by simp [State.setChan]

@[simp ↓] theorem State.updChan_kept (s : State) (n : Nat) (f : ChSt → ChSt) :
    (State.updChan s n f).kept = s.kept := by simp [State.updChan]

@[simp ↓] theorem State.setCluster_kept (s : State) (g : Nat) (c : CluSt) :
    (State.setCluster s g c).kept = s.kept := by simp [State.setCluster]

@[simp ↓] theorem State.updCluster_kept (s : State) (g : Nat) (f : CluSt → CluSt) :
    (State.updCluster s g f).kept = s.kept := by simp [State.updCluster]

@[simp ↓] theorem State.after_kept (s : State) (t : Nat) (l : Later) :
    (State.after s t l).kept = s.kept := by simp [State.after]

@[simp ↓] theorem State.issue_kept (s : State) (k : TxKind) :
    (State.issue s k).kept = s.kept := by simp [State.issue]

@[simp ↓] theorem State.complete_kept (s : State) (rq : Req) (status : Nat) (ep : Bool) (len : Nat) :
    (State.complete s rq status ep len).kept = s.kept := by simp [State.complete]

@[simp ↓] theorem State.completeRead_kept (s : State) (rq : Req) (ep : Bool) (a len : Nat) :
    (State.completeRead s rq ep a len).kept = s.kept := by simp [State.completeRead]

@[simp ↓] theorem State.transmit_kept (s : State) :
    (State.transmit s).kept = s.kept := by simp [State.transmit]

@[simp ↓] theorem State.sendVec_kept (s : State) (v : Nat) :
    (State.sendVec s v).kept = s.kept := by simp [State.sendVec]

@[simp ↓] theorem State.withVec_kept (s : State) (v : Nat) (f : State → State) (h : ∀ t, (f t).kept = t.kept) :
    (s.withVec v f).kept = s.kept := by
  simp only [withVec]
  split
  · rw [sendVec_kept, h]
  · exact h s

@[simp ↓] theorem State.chEvent_kept (s : State) (n : Nat) (f : Fld) :
    (State.chEvent s n f).kept = s.kept := by simp [State.chEvent]

@[simp ↓] theorem State.cluEvent_kept (s : State) (g : Nat) (f : Fld) :
    (State.cluEvent s g f).kept = s.kept := by simp [State.cluEvent]

@[simp ↓] theorem State.hubEvent_kept (s : State) (f : Fld) :
    (State.hubEvent s f).kept = s.kept := by simp [State.hubEvent]

@[simp ↓] theorem State.phbEvent_kept (s : State) (f : Fld) :
    (State.phbEvent s f).kept = s.kept := by simp [State.phbEvent]

@[simp ↓] theorem State.tokenShow_kept (s : State) (line : Nat) :
    (State.tokenShow s line).kept = s.kept := by
  unfold State.tokenShow
  dsimp only
  refine State.over_kept _ _ _ fun t d => ?_
  repeat' split
  all_goals simp

@[simp ↓] theorem State.addTokens_kept (s : State) (kind : Nat) (index : Nat) (k : Nat) :
    (State.addTokens s kind index k).kept = s.kept := by simp [State.addTokens]

@[simp ↓] theorem State.logEvAt_kept (s : State) (stamp : Nat) (src : Nat) (bit : Nat) (sev : Nat) (addr : Nat) (d0 : Nat) (d1 : Nat) :
    (State.logEvAt s stamp src bit sev addr d0 d1).kept = s.kept := by simp [State.logEvAt]

@[simp ↓] theorem State.logEv_kept (s : State) (src : Nat) (bit : Nat) (sev : Nat) (addr : Nat) (d0 : Nat) (d1 : Nat) :
    (State.logEv s src bit sev addr d0 d1).kept = s.kept := by simp [State.logEv]

@[simp ↓] theorem State.aerNote_kept (s : State) (cls : Nat) (hdr : Tlp) :
    (State.aerNote s cls hdr).kept = s.kept := by simp [State.aerNote]

@[simp ↓] theorem State.elog_kept (s : State) (cls vc : Nat) (hdr : Tlp) (addr : Nat) : (s.elog cls vc hdr addr).kept = s.kept := by
  unfold elog
  dsimp only
  split
  · split <;> simp
  · rw [withVec_kept _ _ _ (by simp), logEv_kept, setBitAt_kept, kept_mk, kept_fold]
    simp

@[simp ↓] theorem State.unsupported_kept (s : State) (rq : Req) (addr : Nat) (posted : Bool) :
    (State.unsupported s rq addr posted).kept = s.kept := by simp [State.unsupported]

theorem State.memWrite_kept (s : State) (rq : Req) (addr : Nat) (f : State → Out) (h : Out.kept (f s) = some s.kept) :
    Out.kept (State.memWrite s rq addr f) = some s.kept := by
  unfold State.memWrite
  split
  · exact h
  · simp

@[simp ↓] theorem State.freeTlp_kept (s : State) :
    (State.freeTlp s).2.kept = s.kept := by simp [State.freeTlp]

@[simp ↓] theorem State.discardReq_kept (s : State) (t a : Nat) (rq : Req) :
    (State.discardReq s t a rq).kept = s.kept := by simp [State.discardReq]

@[simp ↓] theorem State.discardWrite_kept (s : State) (t : Nat) (a : Nat) :
    (State.discardWrite s t a).kept = s.kept := by simp [State.discardWrite]

@[simp ↓] theorem State.toTile_kept (s : State) (t a : Nat) (f : State → Out) (h : ∀ u, Out.kept (f u) = some u.kept) :
    Out.kept (s.toTile t a f) = some s.kept := by
  unfold toTile
  split
  · exact h s
  · simp

@[simp ↓] theorem State.raiseFault_kept (s : State) (b : Nat) :
    (State.raiseFault s b).kept = s.kept := by simp [State.raiseFault]

@[simp ↓] theorem State.eccCe_kept (s : State) :
    (State.eccCe s).kept = s.kept := by simp [State.eccCe]

@[simp ↓] theorem State.eccLoad_kept (s : State) (mem clu a : Nat) :
    (State.eccLoad s mem clu a).kept = s.kept := by simp [State.eccLoad]

@[simp ↓] theorem State.eccUe_kept (s : State) (mem clu a : Nat) :
    (State.eccUe s mem clu a).kept = s.kept := by simp [State.eccUe]

/-! ### Seq.lean -/

@[simp ↓] theorem State.setTrState_kept (s : State) (n : Nat) (v : Nat) :
    (State.setTrState s n v).kept = s.kept := by simp [State.setTrState]

@[simp ↓] theorem State.setTrk_kept (s : State) (n : Nat) (t : TrackSt) :
    (State.setTrk s n t).kept = s.kept := by simp [State.setTrk]

@[simp ↓] theorem State.updTrk_kept (s : State) (n : Nat) (f : TrackSt → TrackSt) :
    (State.updTrk s n f).kept = s.kept := by simp [State.updTrk]

@[simp ↓] theorem State.stage_kept (s : State) (n : Nat) (p : Play) :
    (State.stage s n p).kept = s.kept := by simp [State.stage]

@[simp ↓] theorem State.setLoopCtr_kept (s : State) (n : Nat) (c : Nat) (v : Nat) :
    (State.setLoopCtr s n c v).kept = s.kept := by simp [State.setLoopCtr]

@[simp ↓] theorem State.supply_kept (s : State) (n : Nat) (play : Option Play) (choice : Option Choice) (q : Play) (fresh : Bool) :
    (State.supply s n play choice q fresh).kept = s.kept := by simp [State.supply]

@[simp ↓] theorem State.supplyNext_kept (s : State) (n : Nat) (p : Play) (c : Choice) :
    (State.supplyNext s n p c).kept = s.kept := by
  unfold State.supplyNext
  repeat' split
  all_goals simp

@[simp ↓] theorem State.memBack_kept (s : State) (n : Nat) :
    (State.memBack s n).kept = s.kept := by simp [State.memBack]

@[simp ↓] theorem State.virtualStep_kept (s0 : State) (n : Nat) (p : Play) :
    (State.virtualStep s0 n p).kept = s0.kept := by
  unfold State.virtualStep
  dsimp only
  repeat' split
  all_goals simp

@[simp ↓] theorem State.trackCompute_kept (s0 : State) (n : Nat) :
    (State.trackCompute s0 n).kept = s0.kept := by
  unfold State.trackCompute
  dsimp only
  repeat' split
  all_goals simp

@[simp ↓] theorem State.trackSample_kept (s : State) (n : Nat) (ue sram : Bool) :
    (State.trackSample s n ue sram).kept = s.kept := by
  unfold State.trackSample
  dsimp only
  repeat' split
  all_goals simp

@[simp ↓] theorem State.trackRecord_kept (s : State) (n : Nat) (laneIn : Nat → Bool) :
    (State.trackRecord s n laneIn).kept = s.kept := by
  unfold State.trackRecord
  dsimp only
  repeat' split
  all_goals simp

@[simp ↓] theorem State.hostFlags_kept (s : State) (n : Nat) :
    (State.hostFlags s n).kept = s.kept := by simp [State.hostFlags]

@[simp ↓] theorem State.trackBegin_kept (s : State) (n : Nat) :
    (State.trackBegin s n).kept = s.kept := by simp [State.trackBegin]

@[simp ↓] theorem State.underrunAt_kept (s : State) (n tick stamp : Nat) :
    (State.underrunAt s n tick stamp).kept = s.kept := by simp [State.underrunAt]

@[simp ↓] theorem State.trackLost_kept (s : State) (n : Nat) :
    (State.trackLost s n).kept = s.kept := by simp [State.trackLost]

@[simp ↓] theorem State.trgPulse_kept (s : State) (n : Nat) (g : Seg) :
    (State.trgPulse s n g).kept = s.kept := by simp [State.trgPulse]

@[simp ↓] theorem State.activate_kept (s : State) (n : Nat) (p : Play) :
    (State.activate s n p).kept = s.kept := by simp [State.activate]

@[simp ↓] theorem State.takeCredit_kept (s : State) (n : Nat) :
    (State.takeCredit s n).kept = s.kept := by simp [State.takeCredit]

@[simp ↓] theorem State.playAgain_kept (s : State) (n : Nat) :
    (State.playAgain s n).kept = s.kept := by simp [State.playAgain]

@[simp ↓] theorem State.enterSeg_kept (s : State) (n : Nat) (p : Play) (underrun : Bool) :
    (State.enterSeg s n p underrun).kept = s.kept := by simp [State.enterSeg]

@[simp ↓] theorem State.trackFault_kept (s : State) (n : Nat) (idx : Nat) (code : Nat) :
    (State.trackFault s n idx code).kept = s.kept := by simp [State.trackFault]

@[simp ↓] theorem State.trackEnd_kept (s : State) (n : Nat) :
    (State.trackEnd s n).kept = s.kept := by simp [State.trackEnd]

@[simp ↓] theorem execTrackArm_kept (n : Ch) (s : State) : Out.kept (execTrackArm n s) = some s.kept := by
  unfold execTrackArm
  refine State.toTile_kept _ _ _ _ fun u => ?_
  dsimp only
  repeat' split
  all_goals simp

@[simp ↓] theorem execTrackReady_kept (n : Ch) (s : State) :
    Out.kept (execTrackReady n s) = some s.kept := by
  unfold execTrackReady
  repeat' split
  all_goals simp

@[simp ↓] theorem State.trackStartAt_kept (s : State) (n : Nat) (stamp : Option Nat) :
    (State.trackStartAt s n stamp).kept = s.kept := by simp [State.trackStartAt]

@[simp ↓] theorem execTrackStart_kept (n : Ch) (at_ : Bool) (s : State) :
    (Out.kept (execTrackStart n at_ s)) = some s.kept := by simp [execTrackStart]

@[simp ↓] theorem State.trackStopNow_kept (s : State) (n : Nat) :
    (State.trackStopNow s n).kept = s.kept := by simp [State.trackStopNow]

@[simp ↓] theorem execTrackStop_kept (n : Ch) (s : State) :
    (Out.kept (execTrackStop n s)) = some s.kept := by simp [execTrackStop]

@[simp ↓] theorem State.trackHostEvt_kept (s : State) (n : Nat) :
    (State.trackHostEvt s n).kept = s.kept := by simp [State.trackHostEvt]

@[simp ↓] theorem execHostEvt_kept (n : Ch) (s : State) :
    (Out.kept (execHostEvt n s)) = some s.kept := by simp [execHostEvt]

@[simp ↓] theorem execHostJump_kept (n : Ch) (target : Nat) (at_ : Bool) (s : State) :
    (Out.kept (execHostJump n target at_ s)) = some s.kept := by simp [execHostJump]

@[simp ↓] theorem State.arrive_kept (s : State) (n : Nat) (k : Nat) :
    (State.arrive s n k).kept = s.kept := by simp [State.arrive]

@[simp ↓] theorem State.addCredits_kept (s : State) (n : Nat) (add : Nat) :
    (State.addCredits s n add).kept = s.kept := by
  unfold State.addCredits
  dsimp only
  repeat' split
  all_goals simp

@[simp ↓] theorem execTrackFill_kept (n : Ch) (add : Nat) (s : State) :
    (Out.kept (execTrackFill n add s)) = some s.kept := by simp [execTrackFill]

@[simp ↓] theorem State.masked_kept (s : State) (g : Nat) (mask : Word) (f : State → Nat → State)
    (h : ∀ t x, (f t x).kept = t.kept) : (s.masked g mask f).kept = s.kept := by simp [State.masked, h]

@[simp ↓] theorem execCluSeqStart_kept (g : Clu) (mask : Word) (s : State) :
    (Out.kept (execCluSeqStart g mask s)) = some s.kept := by simp [execCluSeqStart]

@[simp ↓] theorem execCluSeqStartAt_kept (g : Clu) (mask : Word) (s : State) :
    (Out.kept (execCluSeqStartAt g mask s)) = some s.kept := by simp [execCluSeqStartAt]

@[simp ↓] theorem execCluSeqStop_kept (g : Clu) (mask : Word) (s : State) :
    (Out.kept (execCluSeqStop g mask s)) = some s.kept := by simp [execCluSeqStop]

@[simp ↓] theorem execCluSeqHost_kept (g : Clu) (mask : Word) (s : State) :
    (Out.kept (execCluSeqHost g mask s)) = some s.kept := by simp [execCluSeqHost]

@[simp ↓] theorem execTrackStartTick_kept (n : Ch) (s : State) :
    (Out.kept (execTrackStartTick n s)) = some s.kept := by
  unfold execTrackStartTick
  dsimp only
  repeat' split
  all_goals simp

@[simp ↓] theorem State.settleJumps_kept (s : State) (n : Nat) (order : Nat) (lastI : Nat) (toEnd : Bool) :
    (State.settleJumps s n order lastI toEnd).kept = s.kept := by simp [State.settleJumps]

@[simp ↓] theorem State.leaveUnplayed_kept (s : State) (n : Nat) (g : Seg) :
    (State.leaveUnplayed s n g).kept = s.kept := by simp [State.leaveUnplayed]

@[simp ↓] theorem State.countLoop_kept (s : State) (n order c : Nat) :
    (State.countLoop s n order c).kept = s.kept := by simp [State.countLoop]

@[simp ↓] theorem execSegmentEnd_kept (n : Ch) (s0 : State) :
    (Out.kept (execSegmentEnd n s0)) = some s0.kept := by
  unfold execSegmentEnd
  dsimp only
  repeat' split
  all_goals simp

@[simp ↓] theorem execSegmentWaitStart_kept (n : Ch) (s : State) :
    (Out.kept (execSegmentWaitStart n s)) = some s.kept := by
  unfold execSegmentWaitStart
  dsimp only
  repeat' split
  all_goals simp

@[simp ↓] theorem execUnderrunResume_kept (n : Ch) (s : State) :
    (Out.kept (execUnderrunResume n s)) = some s.kept := by
  unfold execUnderrunResume
  dsimp only
  repeat' split
  all_goals simp

@[simp ↓] theorem execStagingComplete_kept (n : Ch) (s : State) :
    (Out.kept (execStagingComplete n s)) = some s.kept := by
  unfold execStagingComplete
  dsimp only
  repeat' split
  all_goals simp

@[simp ↓] theorem execTrgPulseEnd_kept (n : Ch) (s : State) :
    (Out.kept (execTrgPulseEnd n s)) = some s.kept := by simp [execTrgPulseEnd]

/-! ### Safe.lean -/

@[simp ↓] theorem State.parkBit_kept (s : State) (n : Nat) :
    (State.parkBit s n).kept = s.kept := by simp [State.parkBit]

@[simp ↓] theorem State.holdSrc_kept (s : State) (n : Nat) (b : Nat) :
    (State.holdSrc s n b).kept = s.kept := by simp [State.holdSrc]

@[simp ↓] theorem State.releaseSrc_kept (s : State) (n : Nat) (b : Nat) :
    (State.releaseSrc s n b).kept = s.kept := by simp [State.releaseSrc]

@[simp ↓] theorem State.updWin_kept (s : State) (n : Nat) (w : Win) (f : WinSt → WinSt) :
    (State.updWin s n w f).kept = s.kept := by simp [State.updWin]

@[simp ↓] theorem State.setLatch_kept (s : State) (n : Nat) (w : Win) (hi : Bool) (out : Bool) :
    (State.setLatch s n w hi out).kept = s.kept := by simp [State.setLatch]

@[simp ↓] theorem State.refreshNow_kept (s : State) (n : Nat) (inst : Nat) :
    (State.refreshNow s n inst).kept = s.kept := by simp [State.refreshNow]

@[simp ↓] theorem State.abortRun_kept (s : State) (n : Nat) :
    (State.abortRun s n).kept = s.kept := by simp [State.abortRun]

@[simp ↓] theorem State.setTrip_kept (s : State) (n : Nat) (b : Nat) (lane : Nat) (fine : Nat) :
    (State.setTrip s n b lane fine).kept = s.kept := by simp [State.setTrip]

@[simp ↓] theorem State.tripAsync_kept (s : State) (n : Nat) (b : Nat) (lane : Nat) (cyc : Nat) :
    (State.tripAsync s n b lane cyc).kept = s.kept := by simp [State.tripAsync]

@[simp ↓] theorem State.tripSync_kept (s : State) (n : Nat) (b : Nat) :
    (State.tripSync s n b).kept = s.kept := by simp [State.tripSync]

@[simp ↓] theorem State.faultNext_kept (s : State) (cause : Nat) :
    (State.faultNext s cause).kept = s.kept := by simp [State.faultNext]

@[simp ↓] theorem State.windowActs_kept (s : State) (n : Nat) (w : Win) (his : List Bool) (cyc : Nat) :
    (State.windowActs s n w his cyc).kept = s.kept := by simp [State.windowActs]

@[simp ↓] theorem State.refreshWin_kept (s : State) (n : Nat) (inst : Nat) :
    (State.refreshWin s n inst).kept = s.kept := by simp [State.refreshWin]

@[simp ↓] theorem State.windowJudge_kept (s : State) (n : Nat) (w : Win) (his : List Bool) (cyc inst : Nat) :
    (State.windowJudge s n w his cyc inst).kept = s.kept := by simp [State.windowJudge]

@[simp ↓] theorem State.windowFree_kept (s : State) (n : Nat) (w : Win) (cyc inst : Nat) :
    (State.windowFree s n w cyc inst).kept = s.kept := by
  unfold State.windowFree
  simp

@[simp ↓] theorem State.endBlank_kept (s : State) (n cyc inst : Nat) :
    (State.endBlank s n cyc inst).kept = s.kept := by simp [State.endBlank]

@[simp ↓] theorem State.loadBlank_kept (s : State) (n inst : Nat) :
    (State.loadBlank s n inst).kept = s.kept := by simp [State.loadBlank]

@[simp ↓] theorem State.blankEvent_kept (s : State) (n : Nat) (b : Nat) (inst : Nat) :
    (State.blankEvent s n b inst).kept = s.kept := by simp [State.blankEvent]

@[simp ↓] theorem State.tieLatches_kept (s : State) (n : Nat) (w : Win) :
    (State.tieLatches s n w).kept = s.kept := by
  unfold State.tieLatches
  dsimp only
  repeat' split
  all_goals simp

@[simp ↓] theorem State.restartLatches_kept (s : State) (n : Nat) (w : Win) :
    (State.restartLatches s n w).kept = s.kept := by simp [State.restartLatches]

@[simp ↓] theorem State.winNormal_kept (s : State) (n : Nat) (w : Win) (t : Nat) :
    (State.winNormal s n w t).kept = s.kept := by simp [State.winNormal]

/-! ### Lanes.lean -/

@[simp ↓] theorem State.setLane_kept (s : State) (l : Nat) (x : LaneSt) :
    (State.setLane s l x).kept = s.kept := by simp [State.setLane]

@[simp ↓] theorem State.updLane_kept (s : State) (l : Nat) (f : LaneSt → LaneSt) :
    (State.updLane s l f).kept = s.kept := by simp [State.updLane]

@[simp ↓] theorem State.setGrp_kept (s : State) (x : Nat) (g : GrpSt) :
    (State.setGrp s x g).kept = s.kept := by simp [State.setGrp]

@[simp ↓] theorem State.updGrp_kept (s : State) (x : Nat) (f : GrpSt → GrpSt) :
    (State.updGrp s x f).kept = s.kept := by simp [State.updGrp]

@[simp ↓] theorem State.setGrpState_kept (s : State) (x : Nat) (v : Nat) :
    (State.setGrpState s x v).kept = s.kept := by simp [State.setGrpState]

@[simp ↓] theorem State.laneHold_kept (s : State) (l t : Nat) :
    (State.laneHold s l t).kept = s.kept := by simp [State.laneHold]

@[simp ↓] theorem State.laneTick_kept (s : State) (l : Nat) :
    (State.laneTick s l).kept = s.kept := by simp [State.laneTick]

@[simp ↓] theorem State.laneShow_kept (s : State) (l : Nat) :
    (State.laneShow s l).kept = s.kept := by simp [State.laneShow]

@[simp ↓] theorem State.laneSwap_kept (s : State) (g : Nat) (old : Nat → Bool × Nat × Bool) :
    (State.laneSwap s g old).kept = s.kept := by simp [State.laneSwap]

@[simp ↓] theorem State.stageBlock_kept (s : State) (x b : Nat) (ue : List PlaneUe) :
    (State.stageBlock s x b ue).kept = s.kept := by simp [State.stageBlock]

@[simp ↓] theorem State.fixCycle_kept (s : State) (x c v : Nat) (ue : List PlaneUe) :
    (State.fixCycle s x c v ue).kept = s.kept := by simp [State.fixCycle]

@[simp ↓] theorem State.grpEnd_kept (s : State) (x : Nat) (st : Nat) :
    (State.grpEnd s x st).kept = s.kept := by simp [State.grpEnd]

@[simp ↓] theorem State.grpLeave_kept (s : State) (x : Nat) :
    (State.grpLeave s x).kept = s.kept := by simp [State.grpLeave]

@[simp ↓] theorem execEvlArm_kept (x : Elg) (s : State) :
    (Out.kept (execEvlArm x s)) = some s.kept := by simp [execEvlArm]

@[simp ↓] theorem execEvlReady_kept (x : Elg) (ue : List PlaneUe) (s : State) :
    Out.kept (execEvlReady x ue s) = some s.kept := by simp [execEvlReady]

@[simp ↓] theorem execEvlStart_kept (x : Elg) (at_ : Bool) (s : State) :
    Out.kept (execEvlStart x at_ s) = some s.kept := by
  unfold execEvlStart
  refine State.toTile_kept _ _ _ _ fun u => ?_
  dsimp only
  repeat' split
  all_goals simp

@[simp ↓] theorem execEvlStop_kept (x : Elg) (s : State) :
    (Out.kept (execEvlStop x s)) = some s.kept := by simp [execEvlStop]

@[simp ↓] theorem State.addBlocks_kept (s : State) (x : Nat) (add : Nat) :
    (State.addBlocks s x add).kept = s.kept := by simp [State.addBlocks]

@[simp ↓] theorem execEvlFill_kept (x : Elg) (add : Nat) (s : State) :
    (Out.kept (execEvlFill x add s)) = some s.kept := by simp [execEvlFill]

@[simp ↓] theorem State.lanesAtBoundary_kept (s : State) (x : Nat) :
    (State.lanesAtBoundary s x).kept = s.kept := by simp [State.lanesAtBoundary]

@[simp ↓] theorem State.giveEdges_kept (s : State) (x : Nat) (f : FixedCycle) :
    (State.giveEdges s x f).kept = s.kept := by simp [State.giveEdges]

@[simp ↓] theorem State.leaveBlock_kept (s : State) (x : Nat) :
    (State.leaveBlock s x).kept = s.kept := by simp [State.leaveBlock]

@[simp ↓] theorem State.enterVector_kept (s : State) (x c v : Nat) (ue : List PlaneUe) :
    (State.enterVector s x c v ue).kept = s.kept := by
  unfold State.enterVector
  extract_lets g total vm nb s0 s1 a short s3 s4 s2 s4'
  have h0 : s0.kept = s.kept := by simp only [s0]; split <;> simp
  clear_value s0
  have h1 : s1.kept = s.kept := by
    simp only [s1]; split
    · split <;> simp [h0]
    · simp [h0]
  clear_value s1
  have h3 : s3.kept = s.kept := by simp only [s3]; repeat' split
                                   all_goals simp [h1]
  clear_value s3
  have h2 : s2.kept = s.kept := by
    simp only [s2, s4]; repeat' split
    all_goals simp [h1, h3]
  clear_value s2
  have h4 : s4'.kept = s.kept := by simp only [s4']; simp [h2]
  clear_value s4'
  split
  · dsimp only
    repeat' split
    all_goals simp [h4]
  · exact h4

@[simp ↓] theorem State.boundaryStep_kept (s : State) (x c v : Nat) (ue : List PlaneUe) :
    (State.boundaryStep s x c v ue).kept = s.kept := by simp [State.boundaryStep]

@[simp ↓] theorem execEvlCycleBoundary_kept (x : Elg) (ue : List PlaneUe) (s : State) :
    Out.kept (execEvlCycleBoundary x ue s) = some s.kept := by
  unfold execEvlCycleBoundary
  dsimp only
  repeat' split
  all_goals simp

@[simp ↓] theorem execEvlEdge_kept (l : Lane) (second : Bool) (s : State) :
    (Out.kept (execEvlEdge l second s)) = some s.kept := by
  unfold execEvlEdge
  dsimp only
  repeat' split
  all_goals simp

@[simp ↓] theorem execEvlInputEdge_kept (l : Lane) (rising : Bool) (cyc : Nat) (s : State) :
    (Out.kept (execEvlInputEdge l rising cyc s)) = some s.kept := by simp [execEvlInputEdge]

/-! ### Window.lean -/

@[simp ↓] theorem execComparatorOut_kept (n : Ch) (w : Win) (hi : Bool) (cyc : Nat) (s : State) :
    Out.kept (execComparatorOut n w hi cyc s) = some s.kept := by simp [execComparatorOut]

@[simp ↓] theorem execComparatorInside_kept (n : Ch) (w : Win) (hi : Bool) (cyc : Nat) (s : State) :
    (Out.kept (execComparatorInside n w hi cyc s)) = some s.kept := by simp [execComparatorInside]

@[simp ↓] theorem execComparatorSettled_kept (g : Clu) (s : State) :
    (Out.kept (execComparatorSettled g s)) = some s.kept := by simp [execComparatorSettled]

@[simp ↓] theorem execManualBlank_kept (n : Ch) (s : State) :
    (Out.kept (execManualBlank n s)) = some s.kept := by simp [execManualBlank]

@[simp ↓] theorem execBlankingEnd_kept (n : Ch) (cyc : Nat) (s : State) :
    Out.kept (execBlankingEnd n cyc s) = some s.kept := by
  unfold execBlankingEnd
  repeat' split
  all_goals simp

@[simp ↓] theorem execWindowTest_kept (n : Ch) (w : Win) (data : Word) (be : Nat) (s : State) :
    (Out.kept (execWindowTest n w data be s)) = some s.kept := by simp [execWindowTest]

@[simp ↓] theorem State.enterTest_kept (s : State) (n : Nat) (w : Win) (mode : Nat) :
    (State.enterTest s n w mode).kept = s.kept := by simp [State.enterTest]

@[simp ↓] theorem execAutoTestStepEnd_kept (n : Ch) (w : Win) (s : State) :
    (Out.kept (execAutoTestStepEnd n w s)) = some s.kept := by simp [execAutoTestStepEnd]

@[simp ↓] theorem execPgStart_kept (n : Ch) (at_ : Bool) (s : State) :
    (Out.kept (execPgStart n at_ s)) = some s.kept := by simp [execPgStart]

@[simp ↓] theorem execPgRunBegin_kept (n : Ch) (s : State) :
    (Out.kept (execPgRunBegin n s)) = some s.kept := by
  unfold execPgRunBegin
  repeat' split
  all_goals simp

@[simp ↓] theorem execPgStop_kept (n : Ch) (s : State) :
    (Out.kept (execPgStop n s)) = some s.kept := by
  unfold execPgStop
  refine State.toTile_kept _ _ _ _ fun u => ?_
  dsimp only
  repeat' split
  all_goals simp

@[simp ↓] theorem State.pgTickEnd_kept (s : State) (n : Nat) :
    (State.pgTickEnd s n).kept = s.kept := by
  unfold State.pgTickEnd
  repeat' split
  all_goals simp

@[simp ↓] theorem State.askRelease_kept (s : State) (n : Nat) (host : Bool) :
    (State.askRelease s n host).kept = s.kept := by simp [State.askRelease]

@[simp ↓] theorem execPgRelease_kept (n : Ch) (s : State) :
    (Out.kept (execPgRelease n s)) = some s.kept := by simp [execPgRelease]

@[simp ↓] theorem execAutoRelease_kept (n : Ch) (s : State) :
    (Out.kept (execAutoRelease n s)) = some s.kept := by simp [execAutoRelease]

@[simp ↓] theorem State.releaseAt_kept (s : State) (n : Nat) :
    (State.releaseAt s n).kept = s.kept := by
  unfold State.releaseAt
  dsimp only
  repeat' split
  all_goals simp

/-! ### Sample.lean -/

@[simp ↓] theorem State.setQuad_kept (s : State) (q : Nat) (x : QuadSt) :
    (State.setQuad s q x).kept = s.kept := by simp [State.setQuad]

@[simp ↓] theorem State.updQuad_kept (s : State) (q : Nat) (f : QuadSt → QuadSt) :
    (State.updQuad s q f).kept = s.kept := by simp [State.updQuad]

@[simp ↓] theorem State.bridgeEntry_kept (s : State) (n : Nat) :
    (State.bridgeEntry s n).kept = s.kept := by simp [State.bridgeEntry]

@[simp ↓] theorem State.sampleChan_kept (s : State) (n : Nat) (inp : TickIn) :
    (State.sampleChan s n inp).kept = s.kept := by simp [State.sampleChan]

/-! ### Welt.lean -/

@[simp ↓] theorem State.logSlice_kept (s : State) (q : Nat) (sl : Nat) (bit : Nat) (sev : Nat) (addr : Nat) :
    (State.logSlice s q sl bit sev addr).kept = s.kept := by simp [State.logSlice]

@[simp ↓] theorem State.failSum_kept (s : State) (f : Fld) (t : Nat) :
    (State.failSum s f t).kept = s.kept := by simp [State.failSum]

@[simp ↓] theorem State.sessEvent_kept (s : State) (f : Fld) :
    (State.sessEvent s f).kept = s.kept := by simp [State.sessEvent]

@[simp ↓] theorem State.qualRefresh_kept (s : State) (q : Nat) :
    (State.qualRefresh s q).kept = s.kept := by simp [State.qualRefresh]

@[simp ↓] theorem State.updKind_kept (s : State) (q : Nat) (k : Nat) (f : KindSt → KindSt) :
    (State.updKind s q k f).kept = s.kept := by simp [State.updKind]

@[simp ↓] theorem State.fadeStart_kept (s : State) (q : Nat) (k : Nat) (lane : Nat) (t : Nat) (toWelt : Bool) :
    (State.fadeStart s q k lane t toWelt).kept = s.kept := by simp [State.fadeStart]

@[simp ↓] theorem State.fadeEnd_kept (s : State) (q : Nat) (t : Nat) :
    (State.fadeEnd s q t).kept = s.kept := by
  unfold State.fadeEnd
  dsimp only
  repeat' split
  all_goals simp

@[simp ↓] theorem State.fadesEnd_kept (s : State) (t : Nat) :
    (State.fadesEnd s t).kept = s.kept := by simp [State.fadesEnd]

@[simp ↓] theorem State.failSlice_kept (s : State) (q : Nat) (sl : Nat) :
    (State.failSlice s q sl).kept = s.kept := by simp [State.failSlice]

@[simp ↓] theorem State.handback_kept (s : State) (q : Nat) (l : Nat) (t : Nat) :
    (State.handback s q l t).kept = s.kept := by simp [State.handback]

@[simp ↓] theorem State.stopRotation_kept (s : State) (q : Nat) :
    (State.stopRotation s q).kept = s.kept := by simp [State.stopRotation]

@[simp ↓] theorem State.weltOff_kept (s : State) (q : Nat) :
    (State.weltOff s q).kept = s.kept := by simp [State.weltOff]

@[simp ↓] theorem State.weltLeave_kept (s : State) (q : Nat) :
    (State.weltLeave s q).kept = s.kept := by simp [State.weltLeave]

@[simp ↓] theorem State.rampTo_kept (s : State) (a : Nat) (coef : Bool) (now : Int) (target : Int) (t : Nat) :
    (State.rampTo s a coef now target t).kept = s.kept := by simp [State.rampTo]

end Sys2Proof.Machine
end

