-- ==== Sys2Proof/Laws/KeptSignal.lean ====
section
/-!
SUPPORT. `kept` lemmas: ranges, the output path, measurement, the load model and capture, the phase base, the halt, the loop engine.
-/

set_option linter.unusedSimpArgs false

namespace Sys2Proof.Machine

/-! ### Range.lean -/

@[simp ↓] theorem State.updEng_kept (s : State) (n : Nat) (f : EngSt → EngSt) :
    (State.updEng s n f).kept = s.kept := by simp [State.updEng]

@[simp ↓] theorem State.transfer_kept (s : State) (n : Nat) (new : Nat) : (State.transfer s n new).1.kept = s.kept := by
  unfold State.transfer
  dsimp only
  split
  · rfl
  · suffices h : ∀ (xs : List Nat) (p : State × Bool) (f : State × Bool → Nat → State × Bool),
        (∀ q k, (f q k).1.kept = q.1.kept) → (xs.foldl f p).1.kept = p.1.kept from h _ (s, false) _ (fun q k => by
          obtain ⟨t, c⟩ := q
          dsimp only
          repeat' split
          all_goals simp)
    intro xs p f hf
    induction xs generalizing p with
    | nil => rfl
    | cons x xs ih => rw [List.foldl_cons, ih, hf]

@[simp ↓] theorem execCoefSwapRequest_kept (n : Ch) (at_ : Bool) (s : State) :
    (Out.kept (execCoefSwapRequest n at_ s)) = some s.kept := by simp [execCoefSwapRequest]

@[simp ↓] theorem execCoefSwapCancel_kept (n : Ch) (s : State) : Out.kept (execCoefSwapCancel n s) = some s.kept := by
  unfold execCoefSwapCancel
  refine State.toTile_kept _ _ _ _ fun u => ?_
  split
  · split <;> simp
  · simp

@[simp ↓] theorem State.setCoefBank_kept (s : State) (n : Nat) (new : Nat) :
    (State.setCoefBank s n new).kept = s.kept := by simp [State.setCoefBank]

@[simp ↓] theorem execCoefSwapTick_kept (n : Ch) (s : State) : Out.kept (execCoefSwapTick n s) = some s.kept := by
  unfold execCoefSwapTick
  dsimp only
  repeat' split
  all_goals simp

@[simp ↓] theorem State.updRng_kept (s : State) (n : Nat) (f : RangeSt → RangeSt) :
    (State.updRng s n f).kept = s.kept := by simp [State.updRng]

@[simp ↓] theorem State.rangeRefuse_kept (s : State) (n : Nat) (invalid : Bool) :
    (State.rangeRefuse s n invalid).kept = s.kept := by simp [State.rangeRefuse]

@[simp ↓] theorem State.rangePend_kept (s : State) (n : Nat) (volt : Bool) (target : Nat) (stamp : Option Nat) :
    (State.rangePend s n volt target stamp).kept = s.kept := by simp [State.rangePend]

@[simp ↓] theorem State.rangeCancel_kept (s : State) (n : Nat) :
    (State.rangeCancel s n).kept = s.kept := by
  unfold State.rangeCancel
  repeat' split
  all_goals simp

@[simp ↓] theorem State.requestI_kept (s : State) (n : Nat) (range : Nat) (stamp : Option Nat) :
    (State.requestI s n range stamp).kept = s.kept := by
  unfold State.requestI
  dsimp only
  repeat' split
  all_goals simp

@[simp ↓] theorem State.requestV_kept (s : State) (n : Nat) (range : Nat) (stamp : Option Nat) :
    (State.requestV s n range stamp).kept = s.kept := by simp [State.requestV]

@[simp ↓] theorem execRangeRequestI_kept (n : Ch) (range : Fin 8) (at_ : Bool) (cancel : Bool) (s : State) :
    (Out.kept (execRangeRequestI n range at_ cancel s)) = some s.kept := by simp [execRangeRequestI]

@[simp ↓] theorem execRangeRequestV_kept (n : Ch) (range : Fin 4) (at_ : Bool) (cancel : Bool) (s : State) :
    (Out.kept (execRangeRequestV n range at_ cancel s)) = some s.kept := by simp [execRangeRequestV]

@[simp ↓] theorem execRangeCancel_kept (n : Ch) (s : State) :
    (Out.kept (execRangeCancel n s)) = some s.kept := by simp [execRangeCancel]

@[simp ↓] theorem State.rangeDefer_kept (s : State) (n : Nat) :
    (State.rangeDefer s n).kept = s.kept := by
  unfold State.rangeDefer
  repeat' split
  all_goals simp

@[simp ↓] theorem State.rangeFrame_kept (s : State) (n : Nat) :
    (State.rangeFrame s n).kept = s.kept := by simp [State.rangeFrame]

@[simp ↓] theorem execRangeChangeStart_kept (n : Ch) (s : State) :
    (Out.kept (execRangeChangeStart n s)) = some s.kept := by
  unfold execRangeChangeStart
  repeat' split
  all_goals simp

@[simp ↓] theorem execRangeBreak_kept (n : Ch) (s : State) :
    (Out.kept (execRangeBreak n s)) = some s.kept := by
  unfold execRangeBreak
  repeat' split
  all_goals simp

@[simp ↓] theorem State.scaleReg_kept (s : State) (n : Nat) (q : Nat × Nat) (uns : Bool) (a : Nat) :
    (State.scaleReg s n q uns a).kept = s.kept := by simp [State.scaleReg]

@[simp ↓] theorem State.rescaleAll_kept (s : State) (n : Nat) (volt : Bool) (q : Nat × Nat) : (s.rescaleAll n volt q).kept = s.kept := by
  unfold State.rescaleAll
  extract_lets d own0 sc ctl node slot injOwn s1 sat e s2 s3
  have hsc : ∀ a b c, (sc a b c).kept = a.kept := by
    intro a b c; simp only [sc]; split <;> simp
  have hsat : ∀ a b, (sat a b).kept = b.kept := by
    intro a b; simp only [sat]; simp
  have h1 : s1.kept = s.kept := by simp [s1, hsc]
  have h2 : s2.kept = s.kept := by
    simp only [s2]
    split
    · split <;> simp [hsat, h1]
    · exact h1
  have h3 : s3.kept = s.kept := by
    simp only [s3]
    rw [State.foldl_kept, h2]
    intro t k
    split <;> simp [hsat, hsc]
  split <;> simp [h3]

@[simp ↓] theorem State.rescaleModel_kept (s : State) (n : Nat) (g : Nat × Nat) (v : Nat × Nat) :
    (State.rescaleModel s n g v).kept = s.kept := by simp [State.rescaleModel]

@[simp ↓] theorem State.guardLoad_kept (s : State) (n : Nat) :
    (State.guardLoad s n).kept = s.kept := by simp [State.guardLoad]

@[simp ↓] theorem execRangeTick_kept (n : Ch) (s : State) :
    (Out.kept (execRangeTick n s)) = some s.kept := by
  unfold execRangeTick
  repeat' split
  all_goals simp

@[simp ↓] theorem execVoltageRangeStart_kept (n : Ch) (s : State) :
    (Out.kept (execVoltageRangeStart n s)) = some s.kept := by
  unfold execVoltageRangeStart
  repeat' split
  all_goals simp

@[simp ↓] theorem State.autoCount_kept (s : State) (n : Nat) :
    (State.autoCount s n).kept = s.kept := by simp [State.autoCount]

@[simp ↓] theorem execAutoRangeDecision_kept (n : Ch) (s : State) :
    (Out.kept (execAutoRangeDecision n s)) = some s.kept := by
  unfold execAutoRangeDecision
  dsimp only
  repeat' split
  all_goals simp

@[simp ↓] theorem execAutoRangeHoldoffEnd_kept (n : Ch) (s : State) :
    (Out.kept (execAutoRangeHoldoffEnd n s)) = some s.kept := by
  unfold execAutoRangeHoldoffEnd
  repeat' split
  all_goals simp

/-! ### Dac.lean -/

@[simp ↓] theorem execSafeCodeWrite_kept (n : Ch) (data : Word) (be : Nat) (s : State) :
    (Out.kept (execSafeCodeWrite n data be s)) = some s.kept := by simp [execSafeCodeWrite]

@[simp ↓] theorem execForceSafeWrite_kept (n : Ch) (data : Word) (be : Nat) (s : State) :
    (Out.kept (execForceSafeWrite n data be s)) = some s.kept := by simp [execForceSafeWrite]

@[simp ↓] theorem State.updDac_kept (s : State) (n : Nat) (f : DacSt → DacSt) :
    (State.updDac s n f).kept = s.kept := by simp [State.updDac]

@[simp ↓] theorem State.modeChange_kept (s : State) (n : Nat) (t : Nat) (mode : Bool) :
    (State.modeChange s n t mode).kept = s.kept := by simp [State.modeChange]

@[simp ↓] theorem State.supvClear_kept (s : State) (n : Nat) :
    (State.supvClear s n).kept = s.kept := by simp [State.supvClear]

@[simp ↓] theorem State.modeTick_kept (s : State) (n : Nat) :
    (State.modeTick s n).kept = s.kept := by
  unfold State.modeTick
  dsimp only
  repeat' split
  all_goals simp

@[simp ↓] theorem execModeSwitchPark_kept (n : Ch) (s : State) :
    (Out.kept (execModeSwitchPark n s)) = some s.kept := by
  unfold execModeSwitchPark
  repeat' split
  all_goals simp

@[simp ↓] theorem execModeSwitchEnd_kept (n : Ch) (s : State) :
    (Out.kept (execModeSwitchEnd n s)) = some s.kept := by
  unfold execModeSwitchEnd
  repeat' split
  all_goals simp

@[simp ↓] theorem State.supvTick_kept (s : State) (n : Nat) (inp : TickIn) :
    (State.supvTick s n inp).kept = s.kept := by simp [State.supvTick]

@[simp ↓] theorem execSupvCondition_kept (n : Ch) (compl : Bool) (s : State) :
    (Out.kept (execSupvCondition n compl s)) = some s.kept := by simp [execSupvCondition]

/-! ### Measure.lean -/

@[simp ↓] theorem State.updApt_kept (s : State) (n : Nat) (f : AptSt → AptSt) :
    (State.updApt s n f).kept = s.kept := by simp [State.updApt]

@[simp ↓] theorem State.aptGangTick_kept (s : State) (n : Nat) :
    (State.aptGangTick s n).kept = s.kept := by simp [State.aptGangTick]

@[simp ↓] theorem State.aptScales_kept (s : State) (n : Nat) (ap : Aperture) :
    (State.aptScales s n ap).kept = s.kept := by simp [State.aptScales]

@[simp ↓] theorem State.recordLost_kept (s : State) (n : Nat) :
    (State.recordLost s n).kept = s.kept := by simp [State.recordLost]

@[simp ↓] theorem State.aptClose_kept (s : State) (n : Nat) (fl : Nat) :
    (State.aptClose s n fl).kept = s.kept := by
  unfold State.aptClose
  repeat' split
  all_goals simp

@[simp ↓] theorem State.aptEnd_kept (s : State) (n : Nat) (early : Bool) :
    (State.aptEnd s n early).kept = s.kept := by simp [State.aptEnd]

@[simp ↓] theorem State.aptNext_kept (s : State) (n : Nat) :
    (State.aptNext s n).kept = s.kept := by simp [State.aptNext]

@[simp ↓] theorem execApertureStartCmd_kept (n : Ch) (at_ : Bool) (s : State) :
    (Out.kept (execApertureStartCmd n at_ s)) = some s.kept := by simp [execApertureStartCmd]

@[simp ↓] theorem execApertureStop_kept (n : Ch) (s : State) :
    (Out.kept (execApertureStop n s)) = some s.kept := by simp [execApertureStop]

@[simp ↓] theorem State.aptScheduled_kept (s : State) (n : Nat) :
    (State.aptScheduled s n).kept = s.kept := by simp [State.aptScheduled]

@[simp ↓] theorem State.aptDueClose_kept (s : State) (n : Nat) :
    (State.aptDueClose s n).kept = s.kept := by
  unfold State.aptDueClose
  repeat' split
  all_goals simp

@[simp ↓] theorem State.aptTruncate_kept (s : State) (n : Nat) :
    (State.aptTruncate s n).kept = s.kept := by simp [State.aptTruncate]

@[simp ↓] theorem execApertureClose_kept (n : Ch) (s : State) :
    (Out.kept (execApertureClose n s)) = some s.kept := by simp [execApertureClose]

@[simp ↓] theorem execApertureOpen_kept (n : Ch) (s0 : State) :
    (Out.kept (execApertureOpen n s0)) = some s0.kept := by
  unfold execApertureOpen
  dsimp only
  repeat' split
  all_goals simp

@[simp ↓] theorem execApertureCountLimit_kept (n : Ch) (s : State) :
    (Out.kept (execApertureCountLimit n s)) = some s.kept := by
  unfold execApertureCountLimit
  repeat' split
  all_goals simp

@[simp ↓] theorem State.aptTick_kept (s : State) (n : Nat) :
    (State.aptTick s n).kept = s.kept := by
  unfold State.aptTick
  repeat' split
  all_goals simp

@[simp ↓] theorem State.aptEdge_kept (s : State) (n : Nat) :
    (State.aptEdge s n).kept = s.kept := by
  unfold State.aptEdge
  dsimp only
  repeat' split
  all_goals simp

@[simp ↓] theorem State.ringTokens_kept (s : State) (kind : Nat) (n : Nat) (a : Nat) (d : Nat) :
    (State.ringTokens s kind n a d).kept = s.kept := by simp [State.ringTokens]

@[simp ↓] theorem State.ringAdvance_kept (s : State) (n len : Nat) :
    (State.ringAdvance s n len).kept = s.kept := by simp [State.ringAdvance]

@[simp ↓] theorem State.updRaw_kept (s : State) (n : Nat) (f : RawSt → RawSt) :
    (State.updRaw s n f).kept = s.kept := by simp [State.updRaw]

@[simp ↓] theorem execRawCaptureStart_kept (n : Ch) (at_ : Bool) (s : State) :
    (Out.kept (execRawCaptureStart n at_ s)) = some s.kept := by simp [execRawCaptureStart]

@[simp ↓] theorem execRawCaptureBegin_kept (n : Ch) (s : State) :
    (Out.kept (execRawCaptureBegin n s)) = some s.kept := by
  unfold execRawCaptureBegin
  repeat' split
  all_goals simp

@[simp ↓] theorem State.rawEnd_kept (s : State) (n : Nat) (ended : Bool) :
    (State.rawEnd s n ended).kept = s.kept := by
  unfold State.rawEnd
  repeat' split
  all_goals simp

@[simp ↓] theorem execRawCaptureStop_kept (n : Ch) (s : State) :
    (Out.kept (execRawCaptureStop n s)) = some s.kept := by simp [execRawCaptureStop]

@[simp ↓] theorem execRawWrAdvance_kept (n : Ch) (s : State) :
    (Out.kept (execRawWrAdvance n s)) = some s.kept := by
  unfold execRawWrAdvance
  dsimp only
  repeat' split
  all_goals simp

/-! ### Model.lean -/

@[simp ↓] theorem State.updModel_kept (s : State) (n : Nat) (f : ModelSt → ModelSt) :
    (State.updModel s n f).kept = s.kept := by simp [State.updModel]

@[simp ↓] theorem execModelReinit_kept (n : Ch) (s : State) :
    (Out.kept (execModelReinit n s)) = some s.kept := by simp [execModelReinit]

@[simp ↓] theorem State.setSettle_kept (s : State) (n : Nat) (v : Nat) :
    (State.setSettle s n v).kept = s.kept := by simp [State.setSettle]

@[simp ↓] theorem execModelSettleEnd_kept (n : Ch) (s : State) :
    (Out.kept (execModelSettleEnd n s)) = some s.kept := by simp [execModelSettleEnd]

@[simp ↓] theorem State.modelInit_kept (s : State) (n : Nat) :
    (State.modelInit s n).kept = s.kept := by simp [State.modelInit]

@[simp ↓] theorem State.modelOff_kept (s : State) (n : Nat) :
    (State.modelOff s n).kept = s.kept := by simp [State.modelOff]

@[simp ↓] theorem State.modelTick_kept (s : State) (n : Nat) :
    (State.modelTick s n).kept = s.kept := by simp [State.modelTick]

@[simp ↓] theorem execPlausibilityFault_kept (n : Ch) (s : State) :
    (Out.kept (execPlausibilityFault n s)) = some s.kept := by simp [execPlausibilityFault]

@[simp ↓] theorem State.updInj_kept (s : State) (n : Nat) (f : InjSt → InjSt) :
    (State.updInj s n f).kept = s.kept := by simp [State.updInj]

@[simp ↓] theorem execInjectionStart_kept (n : Ch) (at_ : Bool) (s : State) :
    (Out.kept (execInjectionStart n at_ s)) = some s.kept := by simp [execInjectionStart]

@[simp ↓] theorem State.injEnd_kept (s : State) (n : Nat) :
    (State.injEnd s n).kept = s.kept := by simp [State.injEnd]

@[simp ↓] theorem execInjectionBegin_kept (n : Ch) (s : State) :
    (Out.kept (execInjectionBegin n s)) = some s.kept := by
  unfold execInjectionBegin
  repeat' split
  all_goals simp

@[simp ↓] theorem execInjectionStop_kept (n : Ch) (s : State) :
    (Out.kept (execInjectionStop n s)) = some s.kept := by simp [execInjectionStop]

@[simp ↓] theorem execInjectionLenEnd_kept (n : Ch) (s : State) :
    (Out.kept (execInjectionLenEnd n s)) = some s.kept := by simp [execInjectionLenEnd]

@[simp ↓] theorem State.injTick_kept (s : State) (n : Nat) :
    (State.injTick s n).kept = s.kept := by simp [State.injTick]

@[simp ↓] theorem State.updCap_kept (s : State) (g : Nat) (f : CapSt → CapSt) :
    (State.updCap s g f).kept = s.kept := by simp [State.updCap]

@[simp ↓] theorem State.setCapState_kept (s : State) (g : Nat) (v : Nat) :
    (State.setCapState s g v).kept = s.kept := by simp [State.setCapState]

@[simp ↓] theorem execCaptureArm_kept (g : Clu) (s : State) :
    (Out.kept (execCaptureArm g s)) = some s.kept := by simp [execCaptureArm]

@[simp ↓] theorem execCaptureStop_kept (g : Clu) (s : State) :
    (Out.kept (execCaptureStop g s)) = some s.kept := by simp [execCaptureStop]

@[simp ↓] theorem execCaptureForce_kept (g : Clu) (s : State) :
    (Out.kept (execCaptureForce g s)) = some s.kept := by simp [execCaptureForce]

@[simp ↓] theorem execCaptureDone_kept (g : Clu) (s : State) :
    (Out.kept (execCaptureDone g s)) = some s.kept := by simp [execCaptureDone]

@[simp ↓] theorem State.capHalt_kept (s : State) (g : Nat) :
    (State.capHalt s g).kept = s.kept := by simp [State.capHalt]

@[simp ↓] theorem State.capLeave_kept (s : State) (g : Nat) :
    (State.capLeave s g).kept = s.kept := by simp [State.capLeave]

/-! ### Phase.lean -/

@[simp ↓] theorem State.setPhState_kept (s : State) (v : Nat) :
    (State.setPhState s v).kept = s.kept := by simp [State.setPhState]

@[simp ↓] theorem State.updPhase_kept (s : State) (f : PhaseSt → PhaseSt) :
    (State.updPhase s f).kept = s.kept := by simp [State.updPhase]

@[simp ↓] theorem State.refPresent_kept (s : State) (b : Bool) :
    (State.refPresent s b).kept = s.kept := by simp [State.refPresent]

@[simp ↓] theorem State.unlock_kept (s : State) :
    (State.unlock s).kept = s.kept := by simp [State.unlock]

@[simp ↓] theorem State.enterHoldover_kept (s : State) (inc : Nat) :
    (State.enterHoldover s inc).kept = s.kept := by simp [State.enterHoldover]

@[simp ↓] theorem State.quadOrigin_kept (s : State) :
    (State.quadOrigin s).kept = s.kept := by simp [State.quadOrigin]

@[simp ↓] theorem State.enterAcquire_kept (s : State) :
    (State.enterAcquire s).kept = s.kept := by simp [State.enterAcquire]

@[simp ↓] theorem State.enterMode_kept (s : State) :
    (State.enterMode s).kept = s.kept := by simp [State.enterMode]

@[simp ↓] theorem State.phrefTick_kept (s : State) (x : Int) :
    (State.phrefTick s x).kept = s.kept := by simp [State.phrefTick]

@[simp ↓] theorem State.acceptEvent_kept (s : State) (p : Nat) (interval : Option Nat) :
    (State.acceptEvent s p interval).kept = s.kept := by simp [State.acceptEvent]

@[simp ↓] theorem State.reference_kept (s : State) (t p : Nat) :
    (State.reference s t p).kept = s.kept := by
  unfold State.reference
  extract_lets e interval note valid c u v d w
  have hn : ∀ b, (note b).kept = s.kept := by
    intro b
    simp only [note]
    simp
  have hu : u.kept = s.kept := by simp [u, hn]
  have hv : v.kept = s.kept := by simp [v, hn]
  have hw : w.kept = s.kept := by simp [w, hv]
  clear_value note u v w
  simp [hn, hu, hv, hw]

@[simp ↓] theorem execReferenceEvent_kept (rising : Bool) (cyc : Nat) (s : State) :
    Out.kept (execReferenceEvent rising cyc s) = some s.kept := by
  unfold execReferenceEvent
  repeat' split
  all_goals simp

@[simp ↓] theorem State.quadFault_kept (s : State) :
    (State.quadFault s).kept = s.kept := by simp [State.quadFault]

@[simp ↓] theorem execRefLoss_kept (cause : LossCause) (s : State) :
    (Out.kept (execRefLoss cause s)) = some s.kept := by
  unfold execRefLoss
  repeat' split
  all_goals simp

@[simp ↓] theorem execIndexPulse_kept (e : Edge) (s : State) :
    Out.kept (execIndexPulse e s) = some s.kept := by simp [execIndexPulse]

@[simp ↓] theorem State.quadStep_kept (s : State) (up slow : Bool) (t : Nat) :
    (State.quadStep s up slow t).kept = s.kept := by simp [State.quadStep]

@[simp ↓] theorem execQuadCount_kept (forward : Bool) (valid : Bool) (cyc : Nat) (s : State) :
    (Out.kept (execQuadCount forward valid cyc s)) = some s.kept := by simp [execQuadCount]

@[simp ↓] theorem State.indexTick_kept (s : State) (pulse : Bool) :
    (State.indexTick s pulse).kept = s.kept := by simp [State.indexTick]

@[simp ↓] theorem State.phaseFix_kept (s : State) :
    (State.phaseFix s).kept = s.kept := by simp [State.phaseFix]

@[simp ↓] theorem State.phaseTick_kept (s : State) :
    (State.phaseTick s).kept = s.kept := by simp [State.phaseTick]

@[simp ↓] theorem State.phaseCommit_kept (s : State) (ctl cpc : Word) (oldInc : Nat) :
    (State.phaseCommit s ctl cpc oldInc).kept = s.kept := by simp [State.phaseCommit]

/-! ### Halt.lean -/

@[simp ↓] theorem State.updSkl_kept (s : State) (f : SklSt → SklSt) :
    (State.updSkl s f).kept = s.kept := by simp [State.updSkl]

@[simp ↓] theorem State.sklEvent_kept (s : State) (f : Fld) :
    (State.sklEvent s f).kept = s.kept := by simp [State.sklEvent]

@[simp ↓] theorem State.sendFrame_kept (s : State) (dn : Bool) (src : Nat) (stomped : Bool) (m : SklMsg) :
    (State.sendFrame s dn src stomped m).kept = s.kept := by simp [State.sendFrame]

@[simp ↓] theorem State.sendSet_kept (s : State) (dn : Bool) (m : SklMsg) :
    (State.sendSet s dn m).kept = s.kept := by simp [State.sendSet]

@[simp ↓] theorem State.sendOwn_kept (s : State) (dn : Bool) (m : SklMsg) :
    (State.sendOwn s dn m).kept = s.kept := by simp [State.sendOwn]

@[simp ↓] theorem State.sendBoth_kept (s : State) (m : SklMsg) :
    (State.sendBoth s m).kept = s.kept := by simp [State.sendBoth]

@[simp ↓] theorem State.sendHalt_kept (s : State) :
    (State.sendHalt s).kept = s.kept := by simp [State.sendHalt]

@[simp ↓] theorem State.sendFault_kept (s : State) :
    (State.sendFault s).kept = s.kept := by simp [State.sendFault]

@[simp ↓] theorem State.haltAll_kept (s : State) (on : Bool) :
    (State.haltAll s on).kept = s.kept := by simp [State.haltAll]

@[simp ↓] theorem State.haltLatch_kept (s : State) (by_ : HaltBy) :
    (State.haltLatch s by_).kept = s.kept := by simp [State.haltLatch]

@[simp ↓] theorem State.haltDrop_kept (s : State) (bits : List Nat) :
    (State.haltDrop s bits).kept = s.kept := by simp [State.haltDrop]

/-! ### Engine.lean -/

@[simp ↓] theorem State.setCtrl_kept (s : State) (n : Nat) (c : Nat) :
    (State.setCtrl s n c).kept = s.kept := by simp [State.setCtrl]

@[simp ↓] theorem State.zeroSlot_kept (s : State) (n : Nat) (k : Nat) :
    (State.zeroSlot s n k).kept = s.kept := by simp [State.zeroSlot]

@[simp ↓] theorem State.applyCode_kept (s : State) (n : Nat) :
    (State.applyCode s n).kept = s.kept := by simp [State.applyCode]

@[simp ↓] theorem State.guardTick_kept (s : State) (n : Nat) :
    (State.guardTick s n).kept = s.kept := by simp [State.guardTick]

@[simp ↓] theorem State.guardCount_kept (s : State) (n : Nat) :
    (State.guardCount s n).kept = s.kept := by simp [State.guardCount]

@[simp ↓] theorem execGuardTimerExpiry_kept (n : Ch) (s : State) :
    (Out.kept (execGuardTimerExpiry n s)) = some s.kept := by simp [execGuardTimerExpiry]

@[simp ↓] theorem State.mismatchTick_kept (s : State) (g : Nat) :
    (State.mismatchTick s g).kept = s.kept := by simp [State.mismatchTick]

@[simp ↓] theorem State.residueFlags_kept (s : State) (n : Nat) (outcome : Nat) :
    (State.residueFlags s n outcome).kept = s.kept := by simp [State.residueFlags]

@[simp ↓] theorem execResidueTest_kept (g : Clu) (lane : Fin 8) (chan : Fin 4) (s : State) :
    Out.kept (execResidueTest g lane chan s) = some s.kept := by
  unfold execResidueTest
  refine State.toTile_kept _ _ _ _ fun u => ?_
  split
  · split <;> simp
  · simp

@[simp ↓] theorem execLaneFail_kept (q : Quad) (s : State) :
    (Out.kept (execLaneFail q s)) = some s.kept := by simp [execLaneFail]

@[simp ↓] theorem State.laneCount_kept (s : State) (g : Nat) (inp : TickIn) :
    (State.laneCount s g inp).kept = s.kept := by simp [State.laneCount]

@[simp ↓] theorem State.slotReport_kept (s : State) (n k ctrl : Nat) (c : SlotCalc) :
    (State.slotReport s n k ctrl c).kept = s.kept := by simp [State.slotReport]

@[simp ↓] theorem State.chanReport_kept (s : State) (c : ChanDone) (drv : Int) :
    (State.chanReport s c drv).kept = s.kept := by simp [State.chanReport]

@[simp ↓] theorem State.chanDiscard_kept (s : State) (n : Nat) (old : Sample) :
    (State.chanDiscard s n old).kept = s.kept := by simp [State.chanDiscard]

@[simp ↓] theorem State.leaderReport_kept (s : State) (x : Nat × Int × Nat) :
    (State.leaderReport s x).kept = s.kept := by simp [State.leaderReport]

@[simp ↓] theorem State.modelBegin_kept (s : State) (n : Nat) (discarded : Bool) :
    (State.modelBegin s n discarded).kept = s.kept := by simp [State.modelBegin]

@[simp ↓] theorem State.engineTick_kept (s : State) (g : Nat) (inp : TickIn) (sums : List (Nat × Int × Nat)) (olds : Nat → Sample) :
    (State.engineTick s g inp sums olds).kept = s.kept := by simp [State.engineTick]

@[simp ↓] theorem State.idleTick_kept (s : State) (g : Nat) (inp : TickIn) (olds : Nat → Sample) :
    (State.idleTick s g inp olds).kept = s.kept := by simp [State.idleTick]

@[simp ↓] theorem State.blankTick_kept (s : State) (n : Nat) :
    (State.blankTick s n).kept = s.kept := by simp [State.blankTick]

@[simp ↓] theorem State.protectTick_kept (s : State) (n : Nat) :
    (State.protectTick s n).kept = s.kept := by simp [State.protectTick]

end Sys2Proof.Machine
end

