-- ==== Sys2Proof/Laws/KeptControl.lean ====
section
/-!
SUPPORT. `kept` lemmas: requests, commits, DMA, calibration, the host link, the Skidline.
-/

set_option linter.unusedSimpArgs false

namespace Sys2Proof.Machine

/-! ### Link.lean -/

@[simp ↓] theorem State.updStat_kept (s : State) (g : Nat) (f : Fld) (v : Nat) :
    (State.updStat s g f v).kept = s.kept := by simp [State.updStat]

@[simp ↓] theorem State.stbyCode_kept (s : State) (g : Nat) (code : Nat) :
    (State.stbyCode s g code).kept = s.kept := by simp [State.stbyCode]

@[simp ↓] theorem State.memUe_kept (s : State) (mem clu addr : Nat) :
    (State.memUe s mem clu addr).kept = s.kept := by
  unfold State.memUe
  dsimp only
  repeat' split
  all_goals simp

@[simp ↓] theorem State.loadLatch_kept (s : State) (addr vc : Nat) :
    (State.loadLatch s addr vc).kept = s.kept := by simp [State.loadLatch]

@[simp ↓] theorem execReadLoLatch_kept (addr : Nat) (rd : RegRead) (s : State) :
    Out.kept (execReadLoLatch addr rd s) = some s.kept := by
  unfold execReadLoLatch
  dsimp only
  repeat' split
  all_goals simp

@[simp ↓] theorem State.showForced_kept (s : State) (a : Nat) :
    (State.showForced s a).kept = s.kept := by simp [State.showForced]

@[simp ↓] theorem State.storeReg_kept (s : State) (a : Nat) (data : Word) (be : Nat) (same : Word) :
    (State.storeReg s a data be same).kept = s.kept := by simp [State.storeReg]

@[simp ↓] theorem State.writeMsix_kept (s : State) (k : Nat) (data : Word) (be : Nat) :
    (State.writeMsix s k data be).kept = s.kept := by simp [State.writeMsix]

@[simp ↓] theorem State.dramDiscard_kept (s : State) :
    (State.dramDiscard s).kept = s.kept := by simp [State.dramDiscard]

@[simp ↓] theorem execBar2Read_kept (addr len : Nat) (ecc : ReadEcc) (rq : Req) (s : State) :
    Out.kept (execBar2Read addr len ecc rq s) = some s.kept := by
  unfold execBar2Read
  dsimp only
  repeat' split
  all_goals simp

@[simp ↓] theorem execBar0RequestAbort_kept (u_write : Bool) (addr : Nat) (rq : Req) (s : State) :
    (Out.kept (execBar0RequestAbort u_write addr rq s)) = some s.kept := by simp [execBar0RequestAbort]

/-! ### Commit.lean -/

@[simp ↓] theorem execValidate_kept (g : Clu) (s : State) :
    (Out.kept (execValidate g s)) = some s.kept := by simp [execValidate]

@[simp ↓] theorem State.checked_kept (s : State) (g : Nat) (v : Verdict) :
    (State.checked s g v).kept = s.kept := by simp [State.checked]

@[simp ↓] theorem execValidationDone_kept (g : Clu) (s : State) :
    (Out.kept (execValidationDone g s)) = some s.kept := by simp [execValidationDone]

@[simp ↓] theorem execInvalidate_kept (g : Clu) (s : State) :
    (Out.kept (execInvalidate g s)) = some s.kept := by simp [execInvalidate]

@[simp ↓] theorem State.setCom_kept (s : State) (g : Nat) (c : CommitSt) :
    (State.setCom s g c).kept = s.kept := by simp [State.setCom]

@[simp ↓] theorem State.updCom_kept (s : State) (g : Nat) (f : CommitSt → CommitSt) :
    (State.updCom s g f).kept = s.kept := by simp [State.updCom]

@[simp ↓] theorem State.comEvent_kept (s : State) (g : Nat) :
    (State.comEvent s g).kept = s.kept := by simp [State.comEvent]

@[simp ↓] theorem State.refuseWrite_kept (s : State) (g : Nat) (a : Nat) (data : Word) :
    (State.refuseWrite s g a data).kept = s.kept := by simp [State.refuseWrite]

@[simp ↓] theorem State.holdWrite_kept (s : State) (g : Nat) (a : Nat) (data : Word) (be : Nat) :
    (State.holdWrite s g a data be).kept = s.kept := by simp [State.holdWrite]

@[simp ↓] theorem registerWrite_kept (addr : Nat) (data : Word) (be : Nat) (rq : Req) (same : Word) (s : State) :
    Out.kept (registerWrite addr data be rq same s) = some s.kept := by simp [registerWrite]

@[simp ↓] theorem State.commitWrite_kept (s : State) (g : Nat) (bank : Bool) (at_ : Bool) (stamp : Nat) :
    (State.commitWrite s g bank at_ stamp).kept = s.kept := by simp [State.commitWrite]

@[simp ↓] theorem execCommit_kept (g : Grp) (bank : Bool) (at_ : Bool) (s : State) :
    (Out.kept (execCommit g bank at_ s)) = some s.kept := by simp [execCommit]

@[simp ↓] theorem execCommitCancel_kept (g : Grp) (s : State) : Out.kept (execCommitCancel g s) = some s.kept := by
  unfold execCommitCancel
  dsimp only
  split
  · repeat' split
    all_goals simp
  · refine State.toTile_kept _ _ _ _ fun u => ?_
    repeat' split
    all_goals simp

@[simp ↓] theorem State.liveFromShadow_kept (s : State) (g : Nat) :
    (State.liveFromShadow s g).kept = s.kept := by simp [State.liveFromShadow]

@[simp ↓] theorem State.landHeld_kept (s : State) (g : Nat) :
    (State.landHeld s g).kept = s.kept := by simp [State.landHeld]

@[simp ↓] theorem State.beginHeld_kept (s : State) (g : Nat) :
    (State.beginHeld s g).kept = s.kept := by
  unfold State.beginHeld
  repeat' split
  all_goals simp

@[simp ↓] theorem State.endFreeze_kept (s : State) (g : Nat) :
    (State.endFreeze s g).kept = s.kept := by simp [State.endFreeze]

@[simp ↓] theorem State.engineEntry_kept (s : State) (n : Nat) :
    (State.engineEntry s n).kept = s.kept := by simp [State.engineEntry]

@[simp ↓] theorem State.showDesc_kept (s : State) (n : Nat) :
    (State.showDesc s n).kept = s.kept := by simp [State.showDesc]

@[simp ↓] theorem State.swapRun_kept (s : State) (n : Nat) (old : ChDesc) :
    (State.swapRun s n old).kept = s.kept := by simp [State.swapRun]

@[simp ↓] theorem State.swapChan_kept (s : State) (n : Nat) (old : ChDesc) :
    (State.swapChan s n old).kept = s.kept := by simp [State.swapChan]

@[simp ↓] theorem State.swapRoute_kept (s : State) (n : Nat) (old : ChDesc) :
    (State.swapRoute s n old).kept = s.kept := by simp [State.swapRoute]

@[simp ↓] theorem State.swapBanks_kept (s : State) (g : Nat) :
    (State.swapBanks s g).kept = s.kept := by simp [State.swapBanks]

@[simp ↓] theorem State.commitWindow_kept (s : State) (n : Nat) (w : Win) (old : State) :
    (State.commitWindow s n w old).kept = s.kept := by simp [State.commitWindow]

@[simp ↓] theorem State.commitWindows_kept (s : State) (g : Nat) (old : State) :
    (State.commitWindows s g old).kept = s.kept := by simp [State.commitWindows]

@[simp ↓] theorem State.commitBoard_kept (s : State) (old : State) :
    (State.commitBoard s old).kept = s.kept := by simp [State.commitBoard]

@[simp ↓] theorem execCommitTick_kept (g : Grp) (s : State) :
    Out.kept (execCommitTick g s) = some s.kept := by
  unfold execCommitTick
  dsimp only
  repeat' split
  all_goals simp

@[simp ↓] theorem State.writeCoef_kept (s : State) (addr : Nat) (data : Word) (be : Nat) (rq : Req) :
    Out.kept (State.writeCoef s addr data be rq) = some s.kept := by simp [State.writeCoef]

@[simp ↓] theorem execCoefficientWindowWrite_kept (addr : Nat) (data : Word) (be : Nat) (rq : Req) (s : State) :
    (Out.kept (execCoefficientWindowWrite addr data be rq s)) = some s.kept :=
  State.memWrite_kept _ _ _ _ (State.writeCoef_kept ..)

/-! ### Dma.lean -/

@[simp ↓] theorem State.setDma_kept (s : State) (d : Nat) (x : DmaSt) :
    (State.setDma s d x).kept = s.kept := by simp [State.setDma]

@[simp ↓] theorem State.updDma_kept (s : State) (d : Nat) (f : DmaSt → DmaSt) :
    (State.updDma s d f).kept = s.kept := by simp [State.updDma]

@[simp ↓] theorem State.setDmaState_kept (s : State) (d : Nat) (v : Nat) :
    (State.setDmaState s d v).kept = s.kept := by simp [State.setDmaState]

@[simp ↓] theorem State.dmaTokenWait_kept (s : State) (d : Nat) :
    (State.dmaTokenWait s d).kept = s.kept := by simp [State.dmaTokenWait]

@[simp ↓] theorem State.dmaRefuse_kept (s : State) (d : Nat) :
    (State.dmaRefuse s d).kept = s.kept := by simp [State.dmaRefuse]

@[simp ↓] theorem State.evtAdd_kept (s : State) (e : Nat) (v : Nat) :
    (State.evtAdd s e v).kept = s.kept := by simp [State.evtAdd]

@[simp ↓] theorem execDmaKick_kept (d : Dma) (s : State) :
    (Out.kept (execDmaKick d s)) = some s.kept := by simp [execDmaKick]

/-! ### Cal.lean -/

@[simp ↓] theorem execCalSessionStart_kept (tiles : Fin 16) (force : Bool) (s : State) :
    (Out.kept (execCalSessionStart tiles force s)) = some s.kept := by simp [execCalSessionStart]

@[simp ↓] theorem State.endSession_kept (s : State) (f : Fld) :
    (State.endSession s f).kept = s.kept := by simp [State.endSession]

@[simp ↓] theorem execCalSessionAbort_kept (s : State) :
    (Out.kept (execCalSessionAbort s)) = some s.kept := by simp [execCalSessionAbort]

@[simp ↓] theorem State.nextTile_kept (s : State) (fuel : Nat) : (s.nextTile fuel).kept = s.kept := by
  induction fuel generalizing s with
  | zero => simp [State.nextTile]
  | succ fuel ih =>
    unfold State.nextTile
    split
    · simp
    · split
      · simp
      · rw [ih]
        simp

@[simp ↓] theorem State.rescaleGains_kept (s : State) (q : Nat) (old : Word) (new : Word) :
    (State.rescaleGains s q old new).kept = s.kept := by simp [State.rescaleGains]

@[simp ↓] theorem State.cellDone_kept (s : State) (t : Nat) (refOk : Bool) (a : List Int) (b : List Int) (k : Nat) :
    (State.cellDone s t refOk a b k).kept = s.kept := by
  unfold State.cellDone
  dsimp only
  repeat' split
  all_goals simp

@[simp ↓] theorem execSessionTileDone_kept (a : List Int) (b : List Int) (s : State) :
    (Out.kept (execSessionTileDone a b s)) = some s.kept := by simp [execSessionTileDone]

@[simp ↓] theorem State.showPhase_kept (s : State) (ph : Nat) :
    (State.showPhase s ph).kept = s.kept := by simp [State.showPhase]

@[simp ↓] theorem State.beginStep_kept (s : State) (l : Nat) (q : Nat) :
    (State.beginStep s l q).kept = s.kept := by simp [State.beginStep]

@[simp ↓] theorem execWeltStepBoundary_kept (s : State) : Out.kept (execWeltStepBoundary s) = some s.kept := by
  unfold execWeltStepBoundary
  split
  · simp
  · extract_lets s1 s2
    have h2 : s2.kept = s.kept := by simp only [s2]; split <;> simp [s1]
    clear_value s2
    simp [h2]

@[simp ↓] theorem execWeltCalStart_kept (s : State) :
    (Out.kept (execWeltCalStart s)) = some s.kept := by simp [execWeltCalStart]

@[simp ↓] theorem State.setTap_kept (s : State) (a : Nat) (v : Int) :
    (State.setTap s a v).kept = s.kept := by simp [State.setTap]

@[simp ↓] theorem State.decideSlice_kept (s : State) (m : SliceMeas) :
    (State.decideSlice s m).kept = s.kept := by simp [State.decideSlice]

@[simp ↓] theorem State.decideAll_kept (s : State) (results : List SliceMeas) (q : Nat) (sls : List Nat) :
    (State.decideAll s results q sls).kept = s.kept := by simp [State.decideAll]

@[simp ↓] theorem State.ageSlices_kept (s : State) (sls : List Nat) :
    (State.ageSlices s sls).kept = s.kept := by simp [State.ageSlices]

@[simp ↓] theorem State.sliceFails_kept (s : State) (bad : List (Nat × Nat)) :
    (State.sliceFails s bad).kept = s.kept := by simp [State.sliceFails]

@[simp ↓] theorem execWeltCalDecision_kept (results : List SliceMeas) (s : State) :
    (Out.kept (execWeltCalDecision results s)) = some s.kept := by simp [execWeltCalDecision]

@[simp ↓] theorem execWeltHandbackStart_kept (s : State) :
    (Out.kept (execWeltHandbackStart s)) = some s.kept := by simp [execWeltHandbackStart]

@[simp ↓] theorem execWeltPhaseStart_kept (s : State) :
    (Out.kept (execWeltPhaseStart s)) = some s.kept := by simp [execWeltPhaseStart]

@[simp ↓] theorem execWeltPhaseDecision_kept (results : List SliceMeas) (s : State) :
    (Out.kept (execWeltPhaseDecision results s)) = some s.kept := by simp [execWeltPhaseDecision]

@[simp ↓] theorem execSliceTake_kept (q : Quad) (kind : Fin 4) (lane : Fin 4) (s : State) :
    (Out.kept (execSliceTake q kind lane s)) = some s.kept := by simp [execSliceTake]

@[simp ↓] theorem execSliceRestore_kept (q : Quad) (kind : Fin 4) (lane : Fin 4) (s : State) :
    (Out.kept (execSliceRestore q kind lane s)) = some s.kept := by simp [execSliceRestore]

@[simp ↓] theorem State.trimWin_kept (s : State) (n : Nat) (w : Win) (t : Nat) :
    (State.trimWin s n w t).kept = s.kept := by simp [State.trimWin]

@[simp ↓] theorem State.trimWinEnd_kept (s : State) (n : Nat) (w : Win) (t : Nat) :
    (State.trimWinEnd s n w t).kept = s.kept := by simp [State.trimWinEnd]

@[simp ↓] theorem execWindowTrim_kept (n : Ch) (v : Bool) (i : Bool) (s : State) :
    (Out.kept (execWindowTrim n v i s)) = some s.kept := by simp [execWindowTrim]

@[simp ↓] theorem State.trimTaps_kept (s : State) (n : Nat) (w : Nat) (hi : Bool) (v : Int × Int) (res : Nat) :
    (State.trimTaps s n w hi v res).kept = s.kept := by simp [State.trimTaps]

@[simp ↓] theorem execWindowTrimEnd_kept (m : TrimMeas) (s : State) :
    Out.kept (execWindowTrimEnd m s) = some s.kept := by
  unfold execWindowTrimEnd
  dsimp only
  repeat' split
  all_goals simp

@[simp ↓] theorem State.rampStep_kept (s : State) (t : Nat) (r : Ramp) :
    (State.rampStep s t r).1.kept = s.kept := by
  unfold State.rampStep
  repeat' split
  all_goals simp

@[simp ↓] theorem execCorrectionRampStep_kept (s : State) : Out.kept (execCorrectionRampStep s) = some s.kept := by
  unfold execCorrectionRampStep
  dsimp only
  suffices h : ∀ (xs : List Ramp) (p : State × List Ramp),
      (xs.foldl (fun acc r => ((acc.1.rampStep (s.tick + 1) r).1, acc.2 ++ (acc.1.rampStep (s.tick + 1) r).2)) p).1.kept = p.1.kept by
    simp [h]
  intro xs
  induction xs with
  | nil => intro p; rfl
  | cons x xs ih => intro p; rw [List.foldl_cons, ih]; simp

/-! ### Host.lean -/

@[simp ↓] theorem execHaltDoorbell_kept (chain : Bool) (u_cyc : Nat) (rq : Req) (s : State) :
    (Out.kept (execHaltDoorbell chain u_cyc rq s)) = some s.kept := by simp [execHaltDoorbell]

@[simp ↓] theorem execHaltNAssert_kept (low : Bool) (u_cyc : Nat) (s : State) :
    (Out.kept (execHaltNAssert low u_cyc s)) = some s.kept := by simp [execHaltNAssert]

@[simp ↓] theorem execHaltRelease_kept (s : State) :
    (Out.kept (execHaltRelease s)) = some s.kept := by simp [execHaltRelease]

@[simp ↓] theorem State.linkEvent_kept (s : State) (f : Fld) :
    (State.linkEvent s f).kept = s.kept := by simp [State.linkEvent]

@[simp ↓] theorem State.recovery_kept (s : State) :
    (State.recovery s).kept = s.kept := by simp [State.recovery]

@[simp ↓] theorem execLaneDeclaredFailed_kept (lane : Fin 4) (lock : Bool) (s : State) :
    (Out.kept (execLaneDeclaredFailed lane lock s)) = some s.kept := by simp [execLaneDeclaredFailed]

@[simp ↓] theorem execWiden_kept (s : State) :
    (Out.kept (execWiden s)) = some s.kept := by simp [execWiden]

@[simp ↓] theorem execLinkUp_kept (partner : Nat) (speed : Nat) (s : State) :
    (Out.kept (execLinkUp partner speed s)) = some s.kept := by simp [execLinkUp]

@[simp ↓] theorem execConfigurationRequest_kept (mem msix mask : Bool) (cfg : CfgIn) (s : State) :
    Out.kept (execConfigurationRequest mem msix mask cfg s) = some s.kept := by simp [execConfigurationRequest]

/-! ### Skid.lean -/

@[simp ↓] theorem State.violation_kept (s : State) (dn : Bool) (kd : Nat) (seq : Nat) :
    (State.violation s dn kd seq).kept = s.kept := by simp [State.violation]

@[simp ↓] theorem State.forward_kept (s : State) (h : SklHdr) (stomped : Bool) (m : SklMsg) :
    (State.forward s h stomped m).kept = s.kept := by simp [State.forward]

@[simp ↓] theorem State.receive_kept (s : State) (h : SklHdr) (m : SklMsg) (extra : Nat) (fwd : Bool) (f : State → State)
    (hf : ∀ t, (f t).kept = t.kept) : Out.kept (s.receive h m extra fwd f) = some s.kept := by
  unfold State.receive
  dsimp only
  repeat' split
  all_goals simp [hf]

@[simp ↓] theorem State.takePos_kept (s : State) (p : Nat) (strap : Bool) :
    (State.takePos s p strap).kept = s.kept := by simp [State.takePos]

@[simp ↓] theorem State.posConflict_kept (s : State) (f : Fld) :
    (State.posConflict s f).kept = s.kept := by simp [State.posConflict]

@[simp ↓] theorem execSklEnable_kept (en : Bool) (s : State) :
    Out.kept (execSklEnable en s) = some s.kept := by
  unfold execSklEnable
  dsimp only
  repeat' split
  all_goals simp

@[simp ↓] theorem execSklPortUp_kept (dn : Bool) (s : State) :
    (Out.kept (execSklPortUp dn s)) = some s.kept := by simp [execSklPortUp]

@[simp ↓] theorem execSklPortDown_kept (dn : Bool) (s : State) :
    (Out.kept (execSklPortDown dn s)) = some s.kept := by simp [execSklPortDown]

@[simp ↓] theorem execEnumFrame_kept (h : SklHdr) (e : SklEnum) (s : State) :
    (Out.kept (execEnumFrame h e s)) = some s.kept := by
  unfold execEnumFrame
  dsimp only
  generalize hx : s.receive h _ _ _ _ = x
  have hk : Out.kept x = some s.kept := by
    rw [← hx]
    refine State.receive_kept _ _ _ _ _ _ fun u => ?_
    repeat' split
    all_goals simp
  cases x with
  | next t =>
    have ht : t.kept = s.kept := by simpa using hk
    dsimp only
    split <;> simp [ht]
  | fault _ => exact hk
  | refused _ => exact hk

@[simp ↓] theorem execEnumSend_kept (s : State) :
    (Out.kept (execEnumSend s)) = some s.kept := by simp [execEnumSend]

@[simp ↓] theorem execSklPresentExpiry_kept (s : State) :
    (Out.kept (execSklPresentExpiry s)) = some s.kept := by simp [execSklPresentExpiry]

@[simp ↓] theorem execTimeFrame_kept (h : SklHdr) (p : Nat) (offset : Nat) (mstate : Nat) (cyc : Nat) (s : State) :
    (Out.kept (execTimeFrame h p offset mstate cyc s)) = some s.kept := by
  unfold execTimeFrame
  simp

@[simp ↓] theorem execTimeFrameMiss_kept (s : State) :
    (Out.kept (execTimeFrameMiss s)) = some s.kept := by simp [execTimeFrameMiss]

@[simp ↓] theorem State.lateFrame_kept (s : State) :
    (State.lateFrame s).kept = s.kept := by simp [State.lateFrame]

@[simp ↓] theorem execShareFrame_kept (h : SklHdr) (entries : List SklShare) (late : Bool) (s : State) :
    (Out.kept (execShareFrame h entries late s)) = some s.kept := by
  unfold execShareFrame
  simp

@[simp ↓] theorem execSumFrame_kept (h : SklHdr) (entries : List SklSum) (late : Bool) (s : State) :
    (Out.kept (execSumFrame h entries late s)) = some s.kept := by
  unfold execSumFrame
  simp

@[simp ↓] theorem execNackFrame_kept (h : SklHdr) (s : State) :
    (Out.kept (execNackFrame h s)) = some s.kept := by
  unfold execNackFrame
  simp

@[simp ↓] theorem execReleaseFrame_kept (h : SklHdr) (stamp : Nat) (s : State) :
    (Out.kept (execReleaseFrame h stamp s)) = some s.kept := by
  unfold execReleaseFrame
  simp

@[simp ↓] theorem execSklHaltSet_kept (dn : Bool) (origin : Fin 8) (u_cyc : Nat) (s : State) :
    (Out.kept (execSklHaltSet dn origin u_cyc s)) = some s.kept := by simp [execSklHaltSet]

@[simp ↓] theorem execSklFaultSet_kept (dn : Bool) (origin : Fin 8) (s : State) :
    (Out.kept (execSklFaultSet dn origin s)) = some s.kept := by simp [execSklFaultSet]

@[simp ↓] theorem execSklHaltRelease_kept (all : Bool) (s : State) :
    (Out.kept (execSklHaltRelease all s)) = some s.kept := by simp [execSklHaltRelease]

end Sys2Proof.Machine
end

