-- ==== Sys2Proof/Laws/KeptSystem.lean ====
section
/-!
SUPPORT. `kept` lemmas: NOR, Cobbler, power, boot, faults, the test port, the sample tick.
-/

set_option linter.unusedSimpArgs false

namespace Sys2Proof.Machine

/-! ### Nor.lean -/

@[simp ↓] theorem State.storeSafe_kept (s : State) :
    (State.storeSafe s).1.kept = s.kept := by simp [State.storeSafe]

@[simp ↓] theorem State.loadSafe_kept (s : State) (x : SafeTable) (t : Nat) :
    (State.loadSafe s x t).kept = s.kept := by simp [State.loadSafe]

@[simp ↓] theorem State.storeCal_kept (s : State) :
    (State.storeCal s).1.kept = s.kept := by simp [State.storeCal]

@[simp ↓] theorem State.restoreCal_kept (s : State) (x : CalTable) :
    (State.restoreCal s x).kept = s.kept := by simp [State.restoreCal]

@[simp ↓] theorem State.loadCal_kept (s : State) (x : CalTable) (t : Nat) :
    (State.loadCal s x t).kept = s.kept := by simp [State.loadCal]

@[simp ↓] theorem State.loadBoard_kept (s : State) (x : CalTable) :
    (State.loadBoard s x).kept = s.kept := by simp [State.loadBoard]

@[simp ↓] theorem State.loadProd_kept (s : State) (t : Nat) :
    (State.loadProd s t).kept = s.kept := by simp [State.loadProd]

/-! ### Cobbler.lean -/

@[simp ↓] theorem State.deny_kept (s : State) (status : Nat) :
    ((State.deny s status)).1.kept = s.kept := by simp [State.deny]

@[simp ↓] theorem State.okay_kept (s : State) :
    ((State.okay s)).1.kept = s.kept := by simp [State.okay]

@[simp ↓] theorem State.respond_kept (s : State) (status : Nat) (data : List Byte) :
    (State.respond s status data).kept = s.kept := by simp [State.respond]

@[simp ↓] theorem State.logCob_kept (s : State) (cmd : Nat) (status : Nat) :
    (State.logCob s cmd status).kept = s.kept := by simp [State.logCob]

@[simp ↓] theorem State.command_kept (s : State) (cmd : Nat) (nor : Bool) (run : State → Reply) (h : ∀ u, (run u).1.kept = u.kept) :
    Out.kept (s.command cmd nor run) = some s.kept := by
  unfold State.command
  dsimp only
  repeat' split
  all_goals simp [h]

@[simp ↓] theorem State.checkArgs_kept (s : State) (len : Nat) (ok : Bool) (run : Reply) (h : run.1.kept = s.kept) :
    (s.checkArgs len ok run).1.kept = s.kept := by
  unfold State.checkArgs
  repeat' split
  all_goals simp [h]

@[simp ↓] theorem State.checkArea_kept (s : State) (f : MbxFault) (run : List Byte → Reply) (h : ∀ b, (run b).1.kept = s.kept) :
    (s.checkArea f run).1.kept = s.kept := by
  unfold State.checkArea
  dsimp only
  repeat' split
  all_goals simp [h]

@[simp ↓] theorem State.flash_kept (s : State) (f : MbxFault) (run : Reply) (h : run.1.kept = s.kept) : (s.flash f run).1.kept = s.kept := by
  unfold State.flash
  split
  · simp
  · exact h

@[simp ↓] theorem State.badCommand_kept (s : State) :
    (State.badCommand s).kept = s.kept := by simp [State.badCommand]

@[simp ↓] theorem State.writeReg_kept (s : State) (addr : Nat) (data : Word) (be : Nat) (rq : WriteReq) :
    Out.kept (State.writeReg s addr data be rq) = some s.kept := by simp [State.writeReg]

@[simp ↓] theorem execRegisterWrite_kept (addr : Nat) (data : Word) (be : Nat) (rq : WriteReq) (s : State) :
    Out.kept (execRegisterWrite addr data be rq s) = some s.kept := State.memWrite_kept _ _ _ _ (State.writeReg_kept ..)

theorem State.memWriteOpen_kept (s : State) (addr : Nat) (f : State → Out) (h : Out.kept (f s) = some s.kept) :
    Out.kept (State.memWriteOpen s addr f) = some s.kept := by
  unfold State.memWriteOpen
  dsimp only
  split
  · exact h
  · simp

@[simp ↓] theorem execMailboxRequestWrite_kept (addr : Nat) (data : Word) (be : Nat) (s : State) :
    (Out.kept (execMailboxRequestWrite addr data be s)) = some s.kept := State.memWriteOpen_kept _ _ _ (by dsimp only; repeat' split <;> simp)

@[simp ↓] theorem execGetInfo_kept (s : State) :
    (Out.kept (execGetInfo s)) = some s.kept := by simp [execGetInfo]

@[simp ↓] theorem State.setSensor_kept (s : State) (i : Nat) (x : SensorSt) :
    (State.setSensor s i x).kept = s.kept := by simp [State.setSensor]

@[simp ↓] theorem State.refreshAlarmed_kept (s : State) :
    (State.refreshAlarmed s).kept = s.kept := by simp [State.refreshAlarmed]

@[simp ↓] theorem execGetSensors_kept (s : State) :
    (Out.kept (execGetSensors s)) = some s.kept := by simp [execGetSensors]

@[simp ↓] theorem execSetThresh_kept (s : State) :
    (Out.kept (execSetThresh s)) = some s.kept := by simp [execSetThresh]

@[simp ↓] theorem State.envRelease_kept (s : State) (m : Nat) :
    (State.envRelease s m).kept = s.kept := by simp [State.envRelease]

@[simp ↓] theorem execEnvRelease_kept (s : State) :
    (Out.kept (execEnvRelease s)) = some s.kept := by simp [execEnvRelease]

@[simp ↓] theorem State.envHold_kept (s : State) (m : Nat) :
    (State.envHold s m).kept = s.kept := by simp [State.envHold]

@[simp ↓] theorem State.warnStep_kept (s : State) (i d : Nat) (was now : LevelSt) :
    (State.warnStep s i d was now).kept = s.kept := by simp [State.warnStep]

@[simp ↓] theorem State.alarmStep_kept (s : State) (i d : Nat) (act : Bool) (was now : LevelSt) :
    (State.alarmStep s i d act was now).kept = s.kept := by simp [State.alarmStep]

@[simp ↓] theorem State.convert_kept (s : State) (i : Nat) (r : Int) :
    (State.convert s i r).kept = s.kept := by simp [State.convert]

@[simp ↓] theorem execSensorConversion_kept (readings : List (Nat × Int)) (s : State) :
    (Out.kept (execSensorConversion readings s)) = some s.kept := by simp [execSensorConversion]

@[simp ↓] theorem State.raiseCeiling_kept (s : State) (seq : Nat) :
    (State.raiseCeiling s seq).kept = s.kept := by simp [State.raiseCeiling]

@[simp ↓] theorem execLogRead_kept (s : State) : Out.kept (execLogRead s) = some s.kept := by
  unfold execLogRead
  refine State.command_kept _ _ _ _ fun u => ?_
  dsimp only
  refine State.checkArgs_kept _ _ _ _ ?_
  simp

@[simp ↓] theorem State.mirrorOne_kept (s : State) (e : LogEntry) :
    (State.mirrorOne s e).kept = s.kept := by simp [State.mirrorOne]

@[simp ↓] theorem execLogMirror_kept (s : State) :
    (Out.kept (execLogMirror s)) = some s.kept := by
  unfold execLogMirror
  dsimp only
  repeat' split
  all_goals simp

@[simp ↓] theorem execStructStore_kept (f : MbxFault) (s : State) : Out.kept (execStructStore f s) = some s.kept := by
  unfold execStructStore
  refine State.command_kept _ _ _ _ fun u => State.checkArgs_kept _ _ _ _ (State.checkArea_kept _ _ _ fun b => ?_)
  dsimp only
  repeat' split
  all_goals simp

@[simp ↓] theorem execGetNonce_kept (s : State) : Out.kept (execGetNonce s) = some s.kept := by
  unfold execGetNonce
  refine State.command_kept _ _ _ _ fun u => ?_
  split
  · simp
  · simp

@[simp ↓] theorem execNonceExpiry_kept (s : State) :
    (Out.kept (execNonceExpiry s)) = some s.kept := by
  unfold execNonceExpiry
  repeat' split
  all_goals simp

@[simp ↓] theorem State.setKey_kept (s : State) (i : Nat) (k : Option (List Byte)) :
    (State.setKey s i k).kept = s.kept := by simp [State.setKey]

@[simp ↓] theorem execKeyEnrol_kept (f : MbxFault) (s : State) : Out.kept (execKeyEnrol f s) = some s.kept := by
  unfold execKeyEnrol
  refine State.command_kept _ _ _ _ fun u => ?_
  dsimp only
  repeat' split
  all_goals simp

@[simp ↓] theorem execKeyRevoke_kept (f : MbxFault) (s : State) : Out.kept (execKeyRevoke f s) = some s.kept := by
  unfold execKeyRevoke
  refine State.command_kept _ _ _ _ fun u => ?_
  dsimp only
  split
  · simp
  · refine State.checkArgs_kept _ _ _ _ ?_
    repeat' split
    all_goals simp

@[simp ↓] theorem execSetPolicy_kept (f : MbxFault) (s : State) : Out.kept (execSetPolicy f s) = some s.kept := by
  unfold execSetPolicy
  refine State.command_kept _ _ _ _ fun u => ?_
  dsimp only
  split
  · simp
  · refine State.checkArgs_kept _ _ _ _ ?_
    repeat' split
    all_goals simp

@[simp ↓] theorem State.showFw_kept (s : State) (slot : Nat) :
    (State.showFw s slot).kept = s.kept := by simp [State.showFw]

@[simp ↓] theorem State.takeover_kept (s : State) (planned : Bool) :
    (State.takeover s planned).kept = s.kept := by simp [State.takeover]

@[simp ↓] theorem execCoreSwitch_kept (s : State) : Out.kept (execCoreSwitch s) = some s.kept := by
  unfold execCoreSwitch
  refine State.command_kept _ _ _ _ fun u => State.checkArgs_kept _ _ _ _ ?_
  split <;> simp

@[simp ↓] theorem execFwUpdate_kept (f : MbxFault) (s : State) : Out.kept (execFwUpdate f s) = some s.kept := by
  unfold execFwUpdate
  refine State.command_kept _ _ _ _ fun u => ?_
  dsimp only
  refine State.checkArgs_kept _ _ _ _ (State.checkArea_kept _ _ _ fun b => ?_)
  split
  · simp
  · refine State.flash_kept _ _ _ ?_
    repeat' split
    all_goals simp

@[simp ↓] theorem execProbationEnd_kept (s : State) :
    (Out.kept (execProbationEnd s)) = some s.kept := by
  unfold execProbationEnd
  repeat' split
  all_goals simp

@[simp ↓] theorem State.tearStore_kept (s : State) :
    (State.tearStore s).kept = s.kept := by simp [State.tearStore]

@[simp ↓] theorem State.coreLost_kept (s0 : State) (work : CoreWork) :
    Out.kept (State.coreLost s0 work) = some s0.kept := by simp [State.coreLost]

@[simp ↓] theorem execHeartbeatMiss_kept (work : CoreWork) (s : State) :
    Out.kept (execHeartbeatMiss work s) = some s.kept := by simp [execHeartbeatMiss]

@[simp ↓] theorem execCoreException_kept (work : CoreWork) (s : State) :
    Out.kept (execCoreException work s) = some s.kept := by simp [execCoreException]

@[simp ↓] theorem execStandbyReady_kept (ok : Bool) (s : State) :
    (Out.kept (execStandbyReady ok s)) = some s.kept := by simp [execStandbyReady]

@[simp ↓] theorem execSafeStore_kept (f : MbxFault) (s : State) : Out.kept (execSafeStore f s) = some s.kept := by
  unfold execSafeStore
  refine State.command_kept _ _ _ _ fun u => State.checkArgs_kept _ _ _ _ (State.flash_kept _ _ _ ?_)
  simp

@[simp ↓] theorem execCalStore_kept (f : MbxFault) (s : State) : Out.kept (execCalStore f s) = some s.kept := by
  unfold execCalStore
  refine State.command_kept _ _ _ _ fun u => State.checkArgs_kept _ _ _ _ (State.flash_kept _ _ _ ?_)
  simp

@[simp ↓] theorem execCalRestore_kept (s : State) : Out.kept (execCalRestore s) = some s.kept := by
  unfold execCalRestore
  refine State.command_kept _ _ _ _ fun u => ?_
  dsimp only
  refine State.checkArgs_kept _ _ _ _ ?_
  split <;> simp

@[simp ↓] theorem execSetSubsys_kept (f : MbxFault) (s : State) : Out.kept (execSetSubsys f s) = some s.kept := by
  unfold execSetSubsys
  refine State.command_kept _ _ _ _ fun u => State.checkArgs_kept _ _ _ _ (State.flash_kept _ _ _ ?_)
  simp

@[simp ↓] theorem execCalAutostore_kept (s : State) :
    (Out.kept (execCalAutostore s)) = some s.kept := by simp [execCalAutostore]

/-! ### Power.lean -/

@[simp ↓] theorem State.updPwr_kept (s : State) (g : Nat) (f : PwrSt → PwrSt) :
    (State.updPwr s g f).kept = s.kept := by simp [State.updPwr]

@[simp ↓] theorem State.setPower_kept (s : State) (g : Nat) (v : Nat) :
    (State.setPower s g v).kept = s.kept := by simp [State.setPower]

@[simp ↓] theorem State.setTransit_kept (s : State) (g : Nat) (b : Bool) :
    (State.setTransit s g b).kept = s.kept := by simp [State.setTransit]

@[simp ↓] theorem State.parkChan_kept (s : State) (n : Nat) (t : Nat) :
    (State.parkChan s n t).kept = s.kept := by simp [State.parkChan]

@[simp ↓] theorem State.enterPark_kept (s : State) (g : Nat) (t : Nat) :
    (State.enterPark s g t).kept = s.kept := by simp [State.enterPark]

@[simp ↓] theorem State.enterIdle_kept (s : State) (g : Nat) :
    (State.enterIdle s g).kept = s.kept := by simp [State.enterIdle]

@[simp ↓] theorem State.enterRun_kept (s : State) (g : Nat) :
    (State.enterRun s g).kept = s.kept := by simp [State.enterRun]

@[simp ↓] theorem State.leaveRun_kept (s : State) (g : Nat) :
    (State.leaveRun s g).kept = s.kept := by simp [State.leaveRun]

@[simp ↓] theorem State.leaveIdle_kept (s : State) (g : Nat) :
    (State.leaveIdle s g).kept = s.kept := by simp [State.leaveIdle]

@[simp ↓] theorem State.offChan_kept (s : State) (n : Nat) :
    (State.offChan s n).kept = s.kept := by simp [State.offChan]

@[simp ↓] theorem State.leavePark_kept (s : State) (g : Nat) :
    (State.leavePark s g).kept = s.kept := by simp [State.leavePark]

@[simp ↓] theorem State.pwrStep_kept (s : State) (g : Nat) (goal : Nat) (t : Nat) :
    (State.pwrStep s g goal t).kept = s.kept := by simp [State.pwrStep]

@[simp ↓] theorem State.pwrContinue_kept (s : State) (g : Nat) (t : Nat) :
    (State.pwrContinue s g t).kept = s.kept := by
  unfold State.pwrContinue
  dsimp only
  repeat' split
  all_goals simp

@[simp ↓] theorem State.pwrRefuse_kept (s : State) (g : Nat) (f : Option Fld) :
    (State.pwrRefuse s g f).kept = s.kept := by
  unfold State.pwrRefuse
  repeat' split
  all_goals simp

@[simp ↓] theorem State.pwrAccept_kept (s : State) (g : Nat) (target : Nat) (stamp : Option Nat) :
    (State.pwrAccept s g target stamp).kept = s.kept := by simp [State.pwrAccept]

@[simp ↓] theorem State.pwrCommand_kept (s : State) (g : Nat) (target : Nat) (stamp : Option Nat) :
    (State.pwrCommand s g target stamp).kept = s.kept := by
  unfold State.pwrCommand
  dsimp only
  repeat' split
  all_goals simp

@[simp ↓] theorem execClusterPowerCmd_kept (clusters : Fin 65536) (target : Fin 4) (at_ : Bool) (s : State) :
    (Out.kept (execClusterPowerCmd clusters target at_ s)) = some s.kept := by simp [execClusterPowerCmd]

@[simp ↓] theorem execPowerTransitionStart_kept (g : Clu) (s : State) :
    (Out.kept (execPowerTransitionStart g s)) = some s.kept := by
  unfold execPowerTransitionStart
  repeat' split
  all_goals simp

@[simp ↓] theorem execParkSettled_kept (g : Clu) (s : State) :
    (Out.kept (execParkSettled g s)) = some s.kept := by
  unfold execParkSettled
  dsimp only
  repeat' split
  all_goals simp

@[simp ↓] theorem execIdleReached_kept (g : Clu) (s : State) :
    (Out.kept (execIdleReached g s)) = some s.kept := by
  unfold execIdleReached
  dsimp only
  repeat' split
  all_goals simp

@[simp ↓] theorem State.reHold_kept (s : State) (t : Nat) :
    (State.reHold s t).kept = s.kept := by simp [State.reHold]

@[simp ↓] theorem State.tileBit_kept (s : State) (k : Nat) (t : Nat) (b : Bool) :
    (State.tileBit s k t b).kept = s.kept := by simp [State.tileBit]

@[simp ↓] theorem execTileUp_kept (tiles : Fin 16) (s : State) :
    (Out.kept (execTileUp tiles s)) = some s.kept := by simp [execTileUp]

@[simp ↓] theorem execDramCmd_kept (target : Fin 4) (s : State) :
    (Out.kept (execDramCmd target s)) = some s.kept := by simp [execDramCmd]

@[simp ↓] theorem execSupplySenseFall_kept (t : Tile) (u_cyc : Nat) (s : State) :
    (Out.kept (execSupplySenseFall t u_cyc s)) = some s.kept := by simp [execSupplySenseFall]

@[simp ↓] theorem execSupplySenseRecover_kept (t : Tile) (s : State) :
    (Out.kept (execSupplySenseRecover t s)) = some s.kept := by simp [execSupplySenseRecover]

/-! ### Boot.lean -/

@[simp ↓] theorem execBootWatchdog_kept (s : State) :
    (Out.kept (execBootWatchdog s)) = some s.kept := by
  unfold execBootWatchdog
  repeat' split
  all_goals simp

@[simp ↓] theorem execTallyClear_kept (s : State) :
    (Out.kept (execTallyClear s)) = some s.kept := by simp [execTallyClear]

@[simp ↓] theorem execTallyClearRecord_kept (s : State) :
    (Out.kept (execTallyClearRecord s)) = some s.kept := by simp [execTallyClearRecord]

@[simp ↓] theorem State.andThen_kept (s : State) (f : State → Out) (h : ∀ u, Out.kept (f u) = some u.kept) : (s.andThen f).kept = s.kept := by
  unfold State.andThen
  have := h s
  split
  · rename_i t ht
    rw [ht] at this
    simpa using this
  · rfl

@[simp ↓] theorem State.tapReset_kept (s : State) :
    (State.tapReset s).kept = s.kept := rfl

@[simp ↓] theorem State.beginReset_kept (s : State) (cause : Nat) :
    (State.beginReset s cause).kept = s.kept := by simp [State.beginReset]

@[simp ↓] theorem execPwrRstCmd_kept (key : Fin 256) (s : State) :
    (Out.kept (execPwrRstCmd key s)) = some s.kept := by
  unfold execPwrRstCmd
  repeat' split
  all_goals simp

/-! ### Fault.lean -/

@[simp ↓] theorem execFaultClear_kept (s : State) :
    (Out.kept (execFaultClear s)) = some s.kept := by simp [execFaultClear]

@[simp ↓] theorem State.faultRelease_kept (s : State) :
    (State.faultRelease s).kept = s.kept := by simp [State.faultRelease]

@[simp ↓] theorem execTileIsolate_kept (key : Fin 256) (tiles : Fin 16) (s : State) :
    (Out.kept (execTileIsolate key tiles s)) = some s.kept := by simp [execTileIsolate]

@[simp ↓] theorem State.clkSlew_kept (s : State) (b lost : Bool) :
    (State.clkSlew s b lost).kept = s.kept := by simp [State.clkSlew]

@[simp ↓] theorem State.clkIdle_kept (s : State) :
    (State.clkIdle s).kept = s.kept := by simp [State.clkIdle]

@[simp ↓] theorem State.clkMiss_kept (s : State) (b : Bool) :
    (State.clkMiss s b).kept = s.kept := by simp [State.clkMiss]

@[simp ↓] theorem State.clkInternal_kept (s : State) :
    (State.clkInternal s).kept = s.kept := by simp [State.clkInternal]

@[simp ↓] theorem execRefclkLost_kept (b : Bool) (s : State) :
    Out.kept (execRefclkLost b s) = some s.kept := by simp [execRefclkLost]

@[simp ↓] theorem execRefclkGood_kept (b : Bool) (s : State) :
    (Out.kept (execRefclkGood b s)) = some s.kept := by simp [execRefclkGood]

@[simp ↓] theorem execClockSelect_kept (b : Bool) (s : State) :
    Out.kept (execClockSelect b s) = some s.kept := by simp [execClockSelect]

@[simp ↓] theorem execClockSwitchDone_kept (s : State) :
    (Out.kept (execClockSwitchDone s)) = some s.kept := by
  unfold execClockSwitchDone
  repeat' split
  all_goals simp

@[simp ↓] theorem execScrub_kept (mem : Fin 7) (clu : Clu) (addr : Nat) (ue : Bool) (s : State) :
    Out.kept (execScrub mem clu addr ue s) = some s.kept := by
  unfold execScrub
  dsimp only
  repeat' split
  all_goals simp

/-! ### Scan.lean -/

@[simp ↓] theorem State.decideSegs_kept (s : State) :
    (State.decideSegs s).kept = s.kept := by simp [State.decideSegs]

@[simp ↓] theorem State.scanCells_kept (s : State) (b : BScan) :
    (State.scanCells s b).kept = s.kept := by simp [State.scanCells]

@[simp ↓] theorem State.tapDo_kept (s : State) (f : State → State) (h : ∀ u, (f u).kept = u.kept) :
    Out.kept (State.tapDo s f) = some s.kept := by
  unfold State.tapDo
  split <;> simp [h]

@[simp ↓] theorem execTapReset_kept (s : State) :
    (Out.kept (execTapReset s)) = some s.kept := by simp [execTapReset]

@[simp ↓] theorem execTrstN_kept (s : State) :
    (Out.kept (execTrstN s)) = some s.kept := by simp [execTrstN]

/-! ### Bus.lean -/

@[simp ↓] theorem State.busTouch_kept (s : State) (a : Nat) :
    (State.busTouch s a).kept = s.kept := by simp [State.busTouch]

/-! ### DmaBurst.lean -/

@[simp ↓] theorem State.dmaRead_kept (s : State) (d : Nat) (m : MoveSt) (n : Nat) :
    (State.dmaRead s d m n).kept = s.kept := by simp [State.dmaRead]

@[simp ↓] theorem State.updMove_kept (s : State) (d : Nat) (f : MoveSt → MoveSt) :
    (State.updMove s d f).kept = s.kept := by simp [State.updMove]

@[simp ↓] theorem State.takeToken_kept (s : State) (m : MoveSt) :
    (State.takeToken s m).kept = s.kept := by simp [State.takeToken]

@[simp ↓] theorem State.dmaBegin_kept (s : State) (d : Nat) (m : MoveSt) (host : List Byte) (n : Nat) :
    (State.dmaBegin s d m host n).kept = s.kept := by simp [State.dmaBegin]

@[simp ↓] theorem State.dmaServed_kept (s : State) (d : Nat) :
    (State.dmaServed s d).kept = s.kept := by simp [State.dmaServed]

/-! ### Due.lean -/

@[simp ↓] theorem State.run_kept (s : State) (f : State → Out) (h : Out.kept (f s) = some s.kept) : (s.run f).kept = s.kept := by
  unfold State.run
  cases e : f s with
  | next t => simpa [e] using h
  | fault x => rfl
  | refused r => rfl

@[simp ↓] theorem State.item_kept (p : Option Nat → Bool) (stamp : Option Nat) (f : State → Out) (s : State)
    (h : Out.kept (f s) = some s.kept) : (State.item p stamp f s).kept = s.kept := by
  unfold State.item
  split
  · exact run_kept _ _ h
  · rfl

@[simp ↓] theorem State.laneDue_kept (s : State) (p : Option Nat → Bool) (l : Lane) (k : Nat) : (s.laneDue p l k).kept = s.kept := by
  induction k generalizing s with
  | zero => rfl
  | succ k ih =>
    unfold State.laneDue
    dsimp only
    split
    · rfl
    · rw [ih, run_kept _ _ (by simp)]

@[simp ↓] theorem State.duePass_kept (s : State) (p : Option Nat → Bool) : (s.duePass p).kept = s.kept := by
  unfold State.duePass
  dsimp only
  repeat rw [over_kept _ _ _ (by intros; simp)]

theorem State.jumpStep_kept (a : State × Option Nat) : (State.jumpStep a).1.kept = a.1.kept := by
  unfold State.jumpStep
  split <;> simp

@[simp ↓] theorem State.jumpPass_kept (s : State) (fuel : Nat) : (s.jumpPass fuel).kept = s.kept := by
  have key : ∀ (xs : List Nat) (a : State × Option Nat), (xs.foldl (fun a _ => State.jumpStep a) a).1.kept = a.1.kept := by
    intro xs
    induction xs with
    | nil => exact fun a => rfl
    | cons x xs ih =>
      intro a
      rw [List.foldl_cons, ih, jumpStep_kept]
  exact key _ (s, some 0)

@[simp ↓] theorem State.powerFirst_kept (s : State) :
    (State.powerFirst s).kept = s.kept := by simp [State.powerFirst]

@[simp ↓] theorem State.settle_kept (s : State) : s.settle.kept = s.kept := by
  unfold State.settle
  split <;> simp

/-! ### Tick.lean -/

@[simp ↓] theorem State.chainRelease_kept (s : State) :
    (State.chainRelease s).kept = s.kept := by
  unfold State.chainRelease
  simp

@[simp ↓] theorem State.hourTick_kept (s : State) :
    (State.hourTick s).kept = s.kept := by simp [State.hourTick]

@[simp ↓] theorem State.tickPhase_kept (s : State) (phref : Int) :
    (State.tickPhase s phref).kept = s.kept := by simp [State.tickPhase]

@[simp ↓] theorem State.tickSample_kept (s : State) (inp : TickIn) :
    (State.tickSample s inp).kept = s.kept := by simp [State.tickSample]

@[simp ↓] theorem State.pgEdgeTick_kept (s : State) (n : Nat) :
    (State.pgEdgeTick s n).kept = s.kept := by
  unfold State.pgEdgeTick
  repeat' split
  all_goals simp

@[simp ↓] theorem State.pulseTick_kept (s0 : State) (n : Nat) :
    (State.pulseTick s0 n).kept = s0.kept := by simp [State.pulseTick]

@[simp ↓] theorem State.auxTick_kept (s : State) (inp : TickIn) :
    (State.auxTick s inp).kept = s.kept := by simp [State.auxTick]

@[simp ↓] theorem State.tickEngine_kept (s : State) (inp : TickIn) (sums : List (Nat × List (Nat × Int × Nat))) (old : Nat → Sample) :
    (State.tickEngine s inp sums old).kept = s.kept := by simp [State.tickEngine]

@[simp ↓] theorem State.tickChain_kept (s : State) :
    (State.tickChain s).kept = s.kept := by simp [State.tickChain]

@[simp ↓] theorem State.tickShares_kept (s : State) :
    (State.tickShares s).kept = s.kept := by simp [State.tickShares]

@[simp ↓] theorem State.pinTick_kept (s : State) (low : Bool) :
    (State.pinTick s low).kept = s.kept := by simp [State.pinTick]

end Sys2Proof.Machine
end

