-- ==== Sys2Proof/Laws/Good.lean ====
section
/-!
SUPPORT. The operations that write a memory: each keeps its canonical form, and leaves the queue. `f_good` says so of `f`.
-/

namespace Sys2Proof.Machine

/-- The queue is `p`, and the three memories have their canonical form if `W`. -/
def Good (p : List Instr) (W : Prop) (k : Kept) : Prop :=
  k.2.2.2 = p ∧ (W → Mem.wf k.1 = true ∧ Mem.wf k.2.1 = true ∧ Mem.wf k.2.2.1 = true)
/-- A next state with a good queue and good memories. -/
def Out.Good (p : List Instr) (W : Prop) (o : Out) : Prop := ∃ t, o = .next t ∧ Machine.Good p W t.kept

variable {p : List Instr} {W : Prop}

@[simp] theorem Out.good_next {t : State} : Out.Good p W (.next t) ↔ Machine.Good p W t.kept :=
  ⟨fun ⟨_, e, h⟩ => by cases e; exact h, fun h => ⟨t, rfl, h⟩⟩

theorem Out.good_of_kept {o : Out} {k : Kept} (e : Out.kept o = some k) (h : Machine.Good p W k) : Out.Good p W o := by
  cases o with
  | next t =>
    simp only [Out.kept_next, Option.some.injEq] at e
    exact ⟨t, rfl, e ▸ h⟩
  | fault f => nomatch f
  | refused r => simp [Out.kept] at e

theorem Good.seqMem {m b c : Mem} {q : List Instr} {m' : Mem} (h : Good p W (m, b, c, q)) (hm : Mem.wf m = true → Mem.wf m' = true) :
    Good p W (m', b, c, q) := ⟨h.1, fun w => ⟨hm (h.2 w).1, (h.2 w).2⟩⟩
theorem Good.banks {m b c : Mem} {q : List Instr} {b' : Mem} (h : Good p W (m, b, c, q)) (hm : Mem.wf b = true → Mem.wf b' = true) :
    Good p W (m, b', c, q) := ⟨h.1, fun w => ⟨(h.2 w).1, hm (h.2 w).2.1, (h.2 w).2.2⟩⟩
theorem Good.capMem {m b c : Mem} {q : List Instr} {c' : Mem} (h : Good p W (m, b, c, q)) (hm : Mem.wf c = true → Mem.wf c' = true) :
    Good p W (m, b, c', q) := ⟨h.1, fun w => ⟨(h.2 w).1, (h.2 w).2.1, hm (h.2 w).2.2⟩⟩

theorem State.good_foldl {α : Type} (f : State → α → State) (xs : List α) (s : State) (h : Good p W s.kept)
    (hf : ∀ t x, Good p W t.kept → Good p W (f t x).kept) : Good p W (xs.foldl f s).kept := by
  induction xs generalizing s with
  | nil => exact h
  | cons x xs ih => exact ih _ (hf _ _ h)
theorem State.good_over {α : Type} (f : State → α → State) (xs : List α) (s : State) (h : Good p W s.kept)
    (hf : ∀ t x, Good p W t.kept → Good p W (f t x).kept) : Good p W (s.over xs f).kept := good_foldl f xs s h hf
theorem State.good_toTile (s : State) (t a : Nat) (f : State → Out) (h : Good p W s.kept)
    (hf : Out.Good p W (f s)) : Out.Good p W (s.toTile t a f) := by
  unfold State.toTile
  split
  · exact hf
  · simp [h]
theorem State.good_toTileReq (s : State) (t a : Nat) (rq : Req) (f : State → Out) (h : Good p W s.kept)
    (hf : Out.Good p W (f s)) : Out.Good p W (s.toTileReq t a rq f) := by
  unfold State.toTileReq
  split
  · exact hf
  · simp [h]
theorem State.good_ite {c : Prop} [Decidable c] {a b : State} (ha : c → Good p W a.kept) (hb : ¬ c → Good p W b.kept) :
    Good p W (if c then a else b).kept := by
  split
  · exact ha ‹_›
  · exact hb ‹_›
theorem Out.good_ite {c : Prop} [Decidable c] {a b : Out} (ha : c → Out.Good p W a) (hb : ¬ c → Out.Good p W b) :
    Out.Good p W (if c then a else b) := by
  split
  · exact ha ‹_›
  · exact hb ‹_›

/-- A record update of the memories keeps what they keep. -/
theorem State.good_seqMem {s : State} {m : Mem} (h : Good p W s.kept) (hm : Mem.wf s.seqMem = true → Mem.wf m = true) :
    Good p W (m, s.banks, s.capMem, s.pending) := Good.seqMem h hm
theorem State.good_banks {s : State} {m : Mem} (h : Good p W s.kept) (hm : Mem.wf s.banks = true → Mem.wf m = true) :
    Good p W (s.seqMem, m, s.capMem, s.pending) := Good.banks h hm
theorem State.good_capMem {s : State} {m : Mem} (h : Good p W s.kept) (hm : Mem.wf s.capMem = true → Mem.wf m = true) :
    Good p W (s.seqMem, s.banks, m, s.pending) := Good.capMem h hm

@[simp] theorem Good.ite {c : Prop} [Decidable c] {a b : Kept} :
    Good p W (if c then a else b) ↔ if c then Good p W a else Good p W b := by split <;> rfl
@[simp] theorem Out.Good_ite {c : Prop} [Decidable c] {a b : Out} :
    Out.Good p W (if c then a else b) ↔ if c then Out.Good p W a else Out.Good p W b := by split <;> rfl

theorem Mem.wf_foldl {α : Type} (f : Mem → α → Mem) (xs : List α) (m : Mem) (h : Mem.wf m = true)
    (hf : ∀ m x, Mem.wf m = true → Mem.wf (f m x) = true) : Mem.wf (xs.foldl f m) = true := by
  induction xs generalizing m with
  | nil => exact h
  | cons x xs ih => exact ih _ (hf _ _ h)

theorem State.command_good (s : State) (cmd : Nat) (nor : Bool) (run : State → Reply) (h : Good p W s.kept)
    (hr : Good p W (run s).1.kept) : Out.Good p W (s.command cmd nor run) := by
  unfold State.command
  dsimp only
  repeat' split
  all_goals simp [h, hr]
theorem State.checkArgs_good (s : State) (len : Nat) (ok : Bool) (run : Reply) (h : Good p W s.kept) (hr : Good p W run.1.kept) :
    Good p W (s.checkArgs len ok run).1.kept := by
  unfold State.checkArgs
  repeat' split
  all_goals simp [h, hr]
theorem State.checkArea_good (s : State) (f : MbxFault) (run : List Byte → Reply) (h : Good p W s.kept)
    (hr : ∀ b, Good p W (run b).1.kept) : Good p W (s.checkArea f run).1.kept := by
  unfold State.checkArea
  dsimp only
  repeat' split
  all_goals simp [h, hr]
theorem State.andThen_good (s : State) (f : State → Out) (h : Out.Good p W (f s)) : Good p W (s.andThen f).kept := by
  obtain ⟨t, e, ht⟩ := h
  unfold State.andThen
  rw [e]
  exact ht

end Sys2Proof.Machine
end

