-- ==== Sys2Proof/Laws/GoodUnits.lean ====
section
/-!
SUPPORT. `good` lemmas: measurement records, captures, host writes, structure banks, DMA programs, the host link, mailbox loads.
-/

set_option linter.unusedSimpArgs false

namespace Sys2Proof.Machine

variable {p : List Instr} {W : Prop}

@[simp] theorem execRecordWritten_good (g : Clu) (s : State) (h : Good p W s.kept) : Out.Good p W (execRecordWritten g s) := by
  unfold execRecordWritten
  split
  · simp [h]
  · dsimp only
    refine Out.good_ite (fun _ => by simp [h]) (fun _ => Out.good_ite (fun _ => by simp [h]) (fun _ => ?_))
    refine Out.good_next.2 ?_
    suffices hx : Good p W (State.wr64 _ _ _).kept by
      split
      · rw [State.after_kept]; exact hx
      · exact hx
    simp only [State.wr64_kept, State.incWrap_kept, State.updCluster_kept, State.updApt_kept, State.kept_mk]
    refine State.good_seqMem (s := State.updCluster _ _ _) ?_ fun hm => Mem.wf_foldl _ _ _ hm fun m x hx => Mem.wf_writeLE _ _ _ _ hx
    simp [h]
@[simp] theorem State.rawWord_good (s : State) (n : Nat) (c : RawCfg) (w : Word) (h : Good p W s.kept) : Good p W (s.rawWord n c w).kept := by
  unfold State.rawWord
  dsimp only
  split
  · exact h
  · simp only [updRaw_kept, State.kept_mk]
    refine State.good_seqMem h fun hm => ?_
    split
    · exact Mem.wf_writeLE _ _ _ _ hm
    · exact hm
@[simp] theorem State.rawTick_good (s : State) (n : Nat) (h : Good p W s.kept) :
    Good p W (State.rawTick s n).kept := by
  unfold State.rawTick
  dsimp only
  repeat' (first | (simp [h]; done) | split)

@[simp] theorem State.capTick_good (s : State) (g : Nat) (h : Good p W s.kept) : Good p W (s.capTick g).kept := by
  unfold State.capTick
  dsimp only
  split
  · exact h
  · simp only [State.updCap_kept, State.kept_mk]
    refine State.good_capMem ?_ fun hm => Mem.wf_foldl _ _ _ hm fun m x hx => Mem.wf_foldl _ _ _ hx fun m k hk => Mem.wf_writeLE _ _ _ _ hk
    split <;> simp [h]
@[simp] theorem State.capClose_good (s : State) (g : Nat) (h : Good p W s.kept) : Good p W (s.capClose g).kept := by
  unfold State.capClose
  dsimp only
  split
  · exact h
  · repeat' split
    all_goals
      simp only [State.raiseIf_kept, State.wr64_kept, State.setFld_kept, State.setCapState_kept, State.updCap_kept, State.kept_mk]
      refine State.good_capMem h fun hm => Mem.wf_foldl _ _ _ hm fun m x hx => ?_
      split
      · exact Mem.wf_writeLE _ _ _ _ hx
      · exact hx
@[simp] theorem State.capEnd_good (s : State) (g : Nat) (h : Good p W s.kept) : Good p W (s.capEnd g).kept := by
  unfold State.capEnd
  simp [h]
@[simp] theorem State.capSettle_good (s : State) (g : Nat) (h : Good p W s.kept) : Good p W (s.capSettle g).kept := by
  unfold State.capSettle
  repeat' split
  all_goals simp [h]

theorem State.memWriteOpen_good (s : State) (addr : Nat) (f : State → Out) (h : Good p W s.kept) (hf : Out.Good p W (f s)) :
    Out.Good p W (s.memWriteOpen addr f) := by
  unfold State.memWriteOpen
  dsimp only
  split
  · exact hf
  · simp [h]

@[simp] theorem execBar2Write_good (addr : Nat) (bytes : List Byte) (s : State) (h : Good p W s.kept) :
    Out.Good p W (execBar2Write addr bytes s) := State.memWriteOpen_good _ _ _ h (by
  split
  · simp [h]
  · simp only [Out.good_next, State.kept_mk]
    exact State.good_seqMem h (Mem.wf_writeBytes _ _ _))

@[simp] theorem State.bankWrite_good (s : State) (g b a : Nat) (bytes : List Byte) (vc : Nat) (hdr : Tlp) (h : Good p W s.kept) :
    Good p W (s.bankWrite g b a bytes vc hdr).kept := by
  unfold State.bankWrite
  split
  · simp [h]
  · simp only [State.stbyCode_kept, State.kept_mk]
    exact State.good_banks h (Mem.wf_writeBytes _ _ _)
theorem State.memWrite_good (s : State) (rq : Req) (addr : Nat) (f : State → Out) (h : Good p W s.kept) (hf : Out.Good p W (f s)) :
    Out.Good p W (s.memWrite rq addr f) := by
  unfold State.memWrite
  split
  · exact hf
  · simp [h]
@[simp] theorem State.writeBank_good (s : State) (addr : Nat) (data : Word) (be : Nat) (rq : Req) (h : Good p W s.kept) :
    Out.Good p W (s.writeBank addr data be rq) := by
  unfold State.writeBank
  dsimp only
  split
  · simp [h]
  · exact State.good_toTileReq _ _ _ _ _ h (by simp [h])
@[simp] theorem execStandbyBankWrite_good (addr : Nat) (data : Word) (be : Nat) (rq : Req) (s : State) (h : Good p W s.kept) :
    Out.Good p W (execStandbyBankWrite addr data be rq s) := State.memWrite_good _ _ _ _ h (State.writeBank_good _ _ _ _ _ h)

@[simp] theorem State.dmaWriteBack_good (s : State) (d : Nat) (h : Good p W s.kept) : Good p W (s.dmaWriteBack d).kept := by
  unfold State.dmaWriteBack
  split
  · dsimp only
    simp only [State.kept_mk]
    exact State.good_seqMem h fun hm => Mem.wf_foldl _ _ _ hm fun m k hk => Mem.wf_writeLE _ _ _ _ hk
  · exact h
@[simp] theorem State.dmaStop_good (s : State) (d : Nat) (code : Nat) (h : Good p W s.kept) :
    Good p W (State.dmaStop s d code).kept := by
  unfold State.dmaStop
  simp [h]
@[simp] theorem State.dmaLinkLost_good (s : State) (h : Good p W s.kept) : Good p W s.dmaLinkLost.kept := by
  unfold State.dmaLinkLost
  refine State.good_over _ _ _ h fun t d ht => ?_
  split
  · split <;> simp [ht]
  · exact ht
@[simp] theorem State.dmaBusStop_good (s : State) (space kind addr : Nat) (h : Good p W s.kept) :
    Good p W (s.dmaBusStop space kind addr).kept := by
  unfold State.dmaBusStop
  simp only [State.setFld_kept, State.wr64_kept, State.raise_kept]
  refine State.good_over _ _ _ h fun t d ht => ?_
  split <;> simp [ht]
@[simp] theorem execLinkError_good (cls : Nat) (addr : Nat) (rq : Req) (s : State) (h : Good p W s.kept) :
    Out.Good p W (execLinkError cls addr rq s) := by
  unfold execLinkError
  dsimp only
  repeat' split
  all_goals simp [h]
@[simp] theorem State.stackError_good (s : State) (a : Nat) (h : Good p W s.kept) : Good p W (s.stackError a).kept := by
  unfold State.stackError
  simp [h]
@[simp] theorem State.dmaGo_good (s : State) (d : Nat) (pc : Nat) (h : Good p W s.kept) :
    Good p W (State.dmaGo s d pc).kept := by
  unfold State.dmaGo
  simp [h]
@[simp] theorem State.dmaExec_good (s : State) (d op : Nat) (f : State) (h : Good p W s.kept) (hf : Good p W f.kept) :
    Good p W (s.dmaExec d op f).kept := by
  unfold State.dmaExec
  dsimp only
  repeat' split
  all_goals simp [h, hf]
@[simp] theorem State.dmaIssued_good (s : State) (d : Nat) (m : MoveSt) (h : Good p W s.kept) : Good p W (s.dmaIssued d m).kept := by
  unfold State.dmaIssued
  repeat' split
  all_goals simp [h]
@[simp] theorem execDmaResume_good (d : Dma) (s : State) (h : Good p W s.kept) : Out.Good p W (execDmaResume d s) := by
  unfold execDmaResume
  dsimp only
  repeat' split
  all_goals simp [h]
@[simp] theorem State.dmaNextBurst_good (s : State) (d : Nat) (h : Good p W s.kept) : Good p W (s.dmaNextBurst d).kept := by
  unfold State.dmaNextBurst
  repeat' split
  all_goals simp [h]
@[simp] theorem execDmaMove_good (d : Dma) (s : State) (h : Good p W s.kept) : Out.Good p W (execDmaMove d s) := by
  unfold execDmaMove
  dsimp only
  refine Out.good_next.2 (State.dmaExec_good _ _ _ _ h ?_)
  split <;> simp [h]
@[simp] theorem execDmaBarrierDone_good (d : Dma) (s : State) (h : Good p W s.kept) :
    Out.Good p W (execDmaBarrierDone d s) := by
  unfold execDmaBarrierDone
  repeat' split
  all_goals simp [h]
@[simp] theorem execDmaLoop_good (d : Dma) (s : State) (h : Good p W s.kept) : Out.Good p W (execDmaLoop d s) := by
  unfold execDmaLoop
  dsimp only
  refine Out.good_next.2 (State.dmaExec_good _ _ _ _ h ?_)
  repeat' split
  all_goals simp [h]
@[simp] theorem State.dmaWait_good (s : State) (d k : Nat) (f : WaitFor) (h : Good p W s.kept) : Good p W (s.dmaWait d k f).kept := by
  unfold State.dmaWait
  dsimp only
  refine State.dmaExec_good _ _ _ _ h ?_
  repeat' split
  all_goals simp [h]
@[simp] theorem execDmaWaitEvent_good (d : Dma) (s : State) (h : Good p W s.kept) :
    Out.Good p W (execDmaWaitEvent d s) := by
  unfold execDmaWaitEvent
  simp [h]
@[simp] theorem execDmaWaitKick_good (d : Dma) (s : State) (h : Good p W s.kept) :
    Out.Good p W (execDmaWaitKick d s) := by
  unfold execDmaWaitKick
  simp [h]
@[simp] theorem execDmaWaitStamp_good (d : Dma) (s : State) (h : Good p W s.kept) :
    Out.Good p W (execDmaWaitStamp d s) := by
  unfold execDmaWaitStamp
  simp [h]
@[simp] theorem execDmaWaitSatisfied_good (d : Dma) (s : State) (h : Good p W s.kept) :
    Out.Good p W (execDmaWaitSatisfied d s) := by
  unfold execDmaWaitSatisfied
  repeat' split
  all_goals simp [h]
@[simp] theorem State.dmaSignal_good (s : State) (d k : Nat) (f : State → Nat → Nat → State) (h : Good p W s.kept)
    (hf : ∀ x v, (f s x v).kept = s.kept) : Good p W (s.dmaSignal d k f).kept := by
  unfold State.dmaSignal
  dsimp only
  refine State.dmaExec_good _ _ _ _ h ?_
  repeat' split
  all_goals simp [h, hf]
@[simp] theorem execDmaSignalEvent_good (d : Dma) (s : State) (h : Good p W s.kept) : Out.Good p W (execDmaSignalEvent d s) :=
  Out.good_next.2 (State.dmaSignal_good _ _ _ _ h fun x v => by simp)
@[simp] theorem execDmaSignalTrackFill_good (d : Dma) (s : State) (h : Good p W s.kept) : Out.Good p W (execDmaSignalTrackFill d s) :=
  Out.good_next.2 (State.dmaSignal_good _ _ _ _ h fun x v => by simp)
@[simp] theorem execDmaSignalGroupFill_good (d : Dma) (s : State) (h : Good p W s.kept) : Out.Good p W (execDmaSignalGroupFill d s) :=
  Out.good_next.2 (State.dmaSignal_good _ _ _ _ h fun x v => by simp)
@[simp] theorem execDmaSignalRingConsume_good (d : Dma) (s : State) (h : Good p W s.kept) : Out.Good p W (execDmaSignalRingConsume d s) :=
  Out.good_next.2 (State.dmaSignal_good _ _ _ _ h fun x v => by dsimp only; split <;> simp)
@[simp] theorem execDmaEnd_good (d : Dma) (s : State) (h : Good p W s.kept) : Out.Good p W (execDmaEnd d s) := by
  unfold execDmaEnd
  dsimp only
  refine Out.good_next.2 (State.dmaExec_good _ _ _ _ h ?_)
  split <;> simp [h]
@[simp] theorem execDmaStart_good (d : Dma) (s : State) (h : Good p W s.kept) :
    Out.Good p W (execDmaStart d s) := by
  unfold execDmaStart
  simp [h]
@[simp] theorem execDmaAbort_good (d : Dma) (s : State) (h : Good p W s.kept) :
    Out.Good p W (execDmaAbort d s) := by
  unfold execDmaAbort
  repeat' split
  all_goals simp [h]

@[simp] theorem State.loadSection_good (s : State) (g b : Nat) (bytes : List Byte) (h : Good p W s.kept) :
    Good p W (s.loadSection g b bytes).1.kept := by
  unfold State.loadSection
  simp only [State.kept_mk]
  exact State.good_banks h (Mem.wf_writeBytes _ _ _)

@[simp] theorem State.sealOne_good (s : State) (secs : List (Nat × List Byte)) (g : Nat) (h : Good p W s.kept) :
    Good p W (s.sealOne secs g).1.kept := by
  unfold State.sealOne
  dsimp only
  split
  · exact h
  · split
    · exact h
    · split
      · exact h
      · suffices hx : ∀ (xs : List (Nat × List Byte)) (a : State × Nat) (f : State × Nat → Nat × List Byte → State × Nat),
            (∀ a x, Good p W a.1.kept → Good p W (f a x).1.kept) → Good p W a.1.kept → Good p W (xs.foldl f a).1.kept from
          hx _ _ _ (fun a x ha => by simp [ha]) h
        intro xs a f hf ha
        induction xs generalizing a with
        | nil => exact ha
        | cons x xs ih => exact ih _ (hf _ _ ha)

@[simp] theorem State.linkDown_good (s : State) (h : Good p W s.kept) : Good p W (s.linkDown).kept := by
  unfold State.linkDown
  dsimp only
  split <;> simp [h]
@[simp] theorem execSealedLoad_good (f : MbxFault) (s : State) (h : Good p W s.kept) : Out.Good p W (execSealedLoad f s) := by
  unfold execSealedLoad
  refine State.command_good _ _ _ _ h ?_
  refine State.checkArgs_good _ _ _ _ h (State.checkArea_good _ _ _ h fun b => ?_)
  dsimp only
  split
  · simp [h]
  split
  · simp [h]
  · suffices hx : ∀ (xs : List Nat) (a : State × List Byte) (f : State × List Byte → Nat → State × List Byte),
        (∀ a x, Good p W a.1.kept → Good p W (f a x).1.kept) → Good p W a.1.kept → Good p W (xs.foldl f a).1.kept from
      hx _ _ _ (fun a x ha => by split <;> simp [ha]) h
    intro xs a f hf ha
    induction xs generalizing a with
    | nil => exact ha
    | cons x xs ih => exact ih _ (hf _ _ ha)
@[simp] theorem State.tileReset_good (s : State) (t : Nat) (h : Good p W s.kept) : Good p W (s.tileReset t).kept := by
  unfold State.tileReset
  dsimp only
  rw [State.reHold_kept]
  rw [State.foldl_kept _ _ _ (by intros; simp)]
  repeat' split
  all_goals
    simp only [State.setBit_kept, State.kept_mk]
    exact Good.capMem (Good.banks h (Mem.wf_filter _ _)) (Mem.wf_filter _ _)

end Sys2Proof.Machine
end

