-- ==== Sys2Proof/Laws/GoodSystem.lean ====
section
/-!
SUPPORT. `good` lemmas: power, boot, isolation, the test port, DMA bursts, the sample tick.
-/

set_option linter.unusedSimpArgs false

namespace Sys2Proof.Machine

variable {p : List Instr} {W : Prop}

@[simp] theorem execWidthChangeDone_good (s : State) (h : Good p W s.kept) : Out.Good p W (execWidthChangeDone s) := by
  unfold execWidthChangeDone
  dsimp only
  simp [h]
@[simp] theorem execDlDown_good (s : State) (h : Good p W s.kept) : Out.Good p W (execDlDown s) := by
  unfold execDlDown
  split <;> simp [h]
@[simp] theorem State.dramEnter_good (s : State) (v : Nat) (h : Good p W s.kept) : Good p W (s.dramEnter v).kept := by
  unfold State.dramEnter
  simp only [State.setBit_kept, State.setFld_kept, State.kept_mk]
  exact State.good_seqMem h fun hm => by split <;> simp [hm]
@[simp] theorem execDramTransitionDone_good (ok : Bool) (s : State) (h : Good p W s.kept) : Out.Good p W (execDramTransitionDone ok s) := by
  unfold execDramTransitionDone
  split <;> simp [h]
@[simp ↓] theorem execTileDown_kept (tiles : Fin 16) (s : State) : Out.kept (execTileDown tiles s) = some s.kept := by
  unfold execTileDown
  rw [Out.kept_next, State.foldl_kept _ _ _ fun t x => ?_]
  split <;> simp
@[simp] theorem State.tileFall_good (s : State) (t : Nat) (h : Good p W s.kept) : Good p W (s.tileFall t).kept := by
  unfold State.tileFall
  dsimp only
  repeat' split
  all_goals simp [h]
@[simp] theorem State.endpointReset_good (s : State) (elog : Bool) (h : Good p W s.kept) : Good p W (s.endpointReset elog).kept := by
  unfold State.endpointReset
  refine State.dmaLinkLost_good _ ?_
  simp [h]
@[simp] theorem execPerstN_good (low : Bool) (s : State) (h : Good p W s.kept) : Out.Good p W (execPerstN low s) := by
  unfold execPerstN
  dsimp only
  split
  · simp [h]
  · refine Out.good_next.2 (State.good_ite (fun _ => by simp [h]) (fun _ => ?_))
    exact State.endpointReset_good _ _ (by simp [h])
@[simp] theorem execHotReset_good (s : State) (h : Good p W s.kept) : Out.Good p W (execHotReset s) := by
  unfold execHotReset
  simp [h]
@[simp] theorem execIsolationComplete_good (s : State) (h : Good p W s.kept) : Out.Good p W (execIsolationComplete s) := by
  unfold execIsolationComplete
  dsimp only
  simp only [Out.good_next, State.kept_mk]
  exact State.good_foldl _ _ _ h fun t x ht => by simp [ht]

/-! Boot -/
@[simp] theorem State.bootStruct_good (s : State) (secs : List (Nat × List Byte)) (g : Nat) (h : Good p W s.kept) :
    Good p W (s.bootStruct secs g).kept := by
  have hx : ∀ (xs : List (Nat × List Byte)) (a : State × Nat), Good p W a.1.kept →
      Good p W (xs.foldl (fun (acc : State × Nat) x => ((acc.1.loadSection g 0 x.2).1, (acc.1.loadSection g 0 x.2).2.code)) a).1.kept := by
    intro xs
    induction xs with
    | nil => exact fun a ha => ha
    | cons x xs ih => exact fun a ha => ih _ (by simp [ha])
  unfold State.bootStruct
  dsimp only
  rw [State.over_kept _ _ _ (by intros; simp)]
  refine State.good_foldl _ _ _ ?_ fun t x ht => by simp [ht]
  split
  · rw [State.wr_kept, State.updStat_kept]; exact hx _ _ h
  · exact hx _ _ h
@[simp] theorem State.tileLoad_good (s : State) (t : Nat) (safe : Option SafeTable) (cal : Option CalTable) (file : Option (List Byte))
    (suspect : List Nat) (h : Good p W s.kept) : Good p W (s.tileLoad t safe cal file suspect).kept := by
  have h5 : ∀ u : State, Good p W u.kept → Good p W (match file with
    | some bs => (List.range 4).foldl (fun (u : State) c => u.bootStruct (fileSections bs) (4 * t + c)) u
    | none => u).kept := by
    intro u hu
    split
    · exact State.good_foldl _ _ _ hu fun t x ht => by simp [ht]
    · exact hu
  unfold State.tileLoad
  dsimp only
  rw [State.reHold_kept, State.over_kept _ _ _ (by intros; simp)]
  refine h5 _ ?_
  rw [State.over_kept _ _ _ (by intros; simp), State.over_kept _ _ _ (by intros; simp)]
  repeat' split
  all_goals simp [h]
@[simp] theorem execTileUpDone_good (t : Tile) (ok : Bool) (suspect : List (Fin 32)) (s : State) (h : Good p W s.kept) :
    Out.Good p W (execTileUpDone t ok suspect s) := by
  unfold execTileUpDone
  dsimp only
  repeat' split
  all_goals simp [h]

@[simp ↓] theorem BootRun.note_kept (b : BootRun) (n : Nat) (k : TallyKind) (alt : Bool) (detail ms data : Nat) (quads : List Nat) :
    (b.note n k alt detail ms data quads).s.kept = b.s.kept := by
  unfold BootRun.note
  dsimp only
  split <;> simp
@[simp ↓] theorem BootRun.report_kept (b : BootRun) (n outcome : Nat) (alt : Bool) (detail ms : Nat) (more : Bool) :
    (b.report n outcome alt detail ms more).s.kept = b.s.kept := by
  unfold BootRun.report
  dsimp only
  repeat' split
  all_goals simp
@[simp ↓] theorem BootRun.openTally_kept (b : BootRun) (fresh : Bool) (bad : List Nat) : (b.openTally fresh bad).s.kept = b.s.kept := by
  unfold BootRun.openTally
  dsimp only
  split <;> simp
@[simp ↓] theorem BootRun.hang_kept (b : BootRun) (n : Nat) (alt : Bool) (start : Nat) : (b.hang n alt start).s.kept = b.s.kept := by
  unfold BootRun.hang
  dsimp only
  repeat' split
  all_goals simp
theorem BootRun.effect_good (b : BootRun) (inp : BootIn) (n : Nat) (ok alt : Bool) (h : Good p W b.s.kept) :
    Good p W (b.effect inp n ok alt).s.kept := by
  unfold BootRun.effect
  dsimp only
  split
  all_goals try (simp [h]; done)
  · split <;> simp [h]
  · refine State.dramEnter_good _ _ ?_
    simp only [State.kept_mk]
    exact State.good_seqMem h fun _ => Mem.wf_nil
  · refine State.good_foldl _ _ _ ?_ fun t x ht => by simp [ht]
    split <;> simp [h]
  · split <;> simp [h]
  · split <;> simp [h]
theorem BootRun.method_good (b : BootRun) (inp : BootIn) (n : Nat) (alt : Bool) (h : Good p W b.s.kept) :
    Good p W (b.method inp n alt).1.s.kept := by
  unfold BootRun.method
  dsimp only
  split
  · simp [h]
  · have h1 : ∀ x : BootRun, x.s.kept = b.s.kept → ∀ ok, Good p W (x.effect inp n ok alt).s.kept :=
      fun x hx ok => BootRun.effect_good _ _ _ _ _ (hx ▸ h)
    split
    · simp only [BootRun.report_kept, BootRun.note_kept]
      refine h1 _ ?_ _
      split <;> simp
    · dsimp only
      split
      · simp only [BootRun.report_kept, BootRun.note_kept]
        split <;> simp [h]
      · refine h1 _ ?_ _
        simp only [BootRun.report_kept, BootRun.note_kept]
        split <;> simp
theorem BootRun.step_good (b : BootRun) (inp : BootIn) (all : List TallyRec) (wdt : Bool) (n : Nat) (h : Good p W b.s.kept) :
    Good p W (b.step inp all wdt n).s.kept := by
  unfold BootRun.step
  dsimp only
  have he : ∀ x : BootRun, x.s.kept = b.s.kept → Good p W (x.effect inp n false false).s.kept :=
    fun x hx => BootRun.effect_good _ _ _ _ _ (hx ▸ h)
  have hm : ∀ (x : BootRun) (a : Bool), x.s.kept = b.s.kept → Good p W (x.method inp n a).1.s.kept :=
    fun x a hx => BootRun.method_good _ _ _ _ (hx ▸ h)
  split
  · exact h
  split
  · split
    · exact he _ (by simp)
    · simp [h]
  split
  · exact h
  generalize hb : (if b.hung = true then b else { b with s := b.s.setFld PWR_BOOT fPWR_BOOT_STEP n }) = c
  have hc : c.s.kept = b.s.kept := by rw [← hb]; split <;> simp
  clear hb
  repeat' split
  all_goals first
    | exact hm _ _ hc
    | exact BootRun.method_good _ _ _ _ (hm _ _ hc)
    | (simp only [BootRun.report_kept]; exact he _ (by simp [hc]))
    | simp [hc, h]
@[simp] theorem execBoot_good (inp : BootIn) (s : State) (h : Good p W s.kept) : Out.Good p W (execBoot inp s) := by
  have hx : ∀ (all : List TallyRec) (wdt : Bool) (xs : List Nat) (b : BootRun), Good p W b.s.kept →
      Good p W (xs.foldl (fun (b : BootRun) n => b.step inp all wdt n) b).s.kept := by
    intro all wdt xs
    induction xs with
    | nil => exact fun b hb => hb
    | cons x xs ih => exact fun b hb => ih _ (BootRun.step_good _ _ _ _ _ hb)
  unfold execBoot
  split
  · simp [h]
  · dsimp only
    have hk := hx (s.nor.tallySpoil inp.badRecs).tallyAll (s.bit PWR_RST_CAUSE fPWR_RST_CAUSE_BOOT_WDT) (List.range 16)
      { s := s.wr PWR_BOOT_COUNT 0, start := s.releaseMs, ms := s.releaseMs } (by simp [h])
    refine Out.good_next.2 (State.good_ite (fun _ => ?_) (fun _ => ?_))
    all_goals
      rw [State.kept_mk, State.kept_fold, State.foldl_kept _ _ _ (by intros; simp)]
      exact hk
@[simp] theorem State.deviceReset_good (s : State) (cause : Nat) (h : Good p W s.kept) : Good p W (s.deviceReset cause).kept := by
  unfold State.deviceReset
  dsimp only
  rw [State.over_kept _ _ _ (by intros; simp)]
  have hr : Good p W (([] : Mem), ([] : Mem), ([] : Mem), s.pending) := ⟨h.1, fun _ => ⟨Mem.wf_nil, Mem.wf_nil, Mem.wf_nil⟩⟩
  split
  · simp only [State.setFld_kept, State.setBit_kept, State.wr_kept, State.kept_mk]; exact hr
  · simp only [State.setFld_kept, State.setBit_kept, State.wr_kept, State.kept_mk]; exact hr
@[simp] theorem execPowerOn_good (straps : Fin 8) (s : State) (h : Good p W s.kept) : Out.Good p W (execPowerOn straps s) := by
  unfold execPowerOn
  refine Out.good_next.2 (State.deviceReset_good _ _ ?_)
  simp [h]

theorem State.andThen_of_kept (s : State) (f : State → Out) (e : Out.kept (f s) = some s.kept) : (s.andThen f).kept = s.kept := by
  unfold State.andThen
  cases hf : f s with
  | next t => rw [hf] at e; simpa using e
  | fault x => nomatch x
  | refused r => rfl
@[simp] theorem State.setTest_good (s : State) (m : Nat) (h : Good p W s.kept) : Good p W (s.setTest m).kept := by
  unfold State.setTest
  dsimp only
  split
  · rw [State.andThen_of_kept _ _ (by simp), State.andThen_of_kept _ _ (by simp)]
    refine State.andThen_good _ _ (execDlDown_good _ ?_)
    simp [h]
  · simp [h]
@[simp] theorem State.updateIR_good (s : State) (op : Nat) (testMode : Bool) (dr len : Nat) (h : Good p W s.kept) :
    Good p W (s.updateIR op testMode dr len).kept := by
  unfold State.updateIR
  dsimp only
  simp only [State.kept_mk, State.kept_fold]
  split <;> (refine State.setTest_good _ _ ?_; simp [h])
@[simp] theorem State.boundary_good (s : State) (op : Nat) (testMode : Bool) (x : TapScan) (h : Good p W s.kept) :
    Good p W (s.boundary op testMode x).kept := by
  unfold State.boundary
  dsimp only
  repeat' split
  all_goals simp [h]
theorem State.tapDo_good (s : State) (f : State → State) (h : Good p W s.kept) (hf : Good p W (f s).kept) :
    Out.Good p W (s.tapDo f) := by
  unfold State.tapDo
  split
  · simp [h]
  · exact Out.good_next.2 hf
@[simp] theorem execIdcode_good (s : State) (h : Good p W s.kept) : Out.Good p W (execIdcode s) :=
  State.tapDo_good _ _ h (by simp [h])
@[simp] theorem execClamp_good (s : State) (h : Good p W s.kept) : Out.Good p W (execClamp s) :=
  State.tapDo_good _ _ h (by simp [h])
@[simp] theorem execHighz_good (s : State) (h : Good p W s.kept) : Out.Good p W (execHighz s) :=
  State.tapDo_good _ _ h (by simp [h])
@[simp] theorem execEcidcode_good (s : State) (h : Good p W s.kept) : Out.Good p W (execEcidcode s) :=
  State.tapDo_good _ _ h (by simp [h])
@[simp] theorem execBypass_good (s : State) (h : Good p W s.kept) : Out.Good p W (execBypass s) :=
  State.tapDo_good _ _ h (by simp [h])
@[simp] theorem execSamplePreload_good (scan : TapScan) (s : State) (h : Good p W s.kept) : Out.Good p W (execSamplePreload scan s) :=
  State.tapDo_good _ _ h (by simp [h])
@[simp] theorem execExtest_good (scan : TapScan) (s : State) (h : Good p W s.kept) : Out.Good p W (execExtest scan s) :=
  State.tapDo_good _ _ h (by simp [h])
@[simp] theorem execExtestPulse_good (scan : TapScan) (s : State) (h : Good p W s.kept) : Out.Good p W (execExtestPulse scan s) :=
  State.tapDo_good _ _ h (by simp [h])
@[simp] theorem execExtestTrain_good (scan : TapScan) (s : State) (h : Good p W s.kept) : Out.Good p W (execExtestTrain scan s) :=
  State.tapDo_good _ _ h (by simp [h])
@[simp] theorem execSegsel_good (sel : Fin 131072) (s : State) (h : Good p W s.kept) : Out.Good p W (execSegsel sel s) :=
  State.tapDo_good _ _ h (by simp [h])
@[simp] theorem execTestLock_good (on : Bool) (s : State) (h : Good p W s.kept) : Out.Good p W (execTestLock on s) := by
  unfold execTestLock
  dsimp only
  split <;> simp [h]

theorem State.acts_good (s : State) (fs : List (Bool × (State → Out))) (h : Good p W s.kept)
    (hf : ∀ f ∈ fs.map (·.2), ∀ t : State, Good p W t.kept → Out.Good p W (f t)) : Good p W (s.acts fs).kept := by
  unfold State.acts
  induction fs generalizing s with
  | nil => exact h
  | cons x xs ih =>
    simp only [List.map_cons, List.forall_mem_cons] at hf
    refine ih _ ?_ hf.2
    dsimp only
    split
    · exact State.andThen_good _ _ (hf.1 s h)
    · exact h
theorem State.hubWrite_good (s : State) (a : Nat) (w : Word) (h : Good p W s.kept) : Good p W (s.hubWrite a w).kept := by
  unfold State.hubWrite
  dsimp only
  repeat' (with_reducible (refine State.good_ite (fun _ => ?_) (fun _ => ?_)))
  all_goals
    with_reducible (refine State.acts_good _ _ h ?_)
    simp only [List.map_cons, List.map_nil, List.forall_mem_cons, List.not_mem_nil, false_imp_iff, implies_true, and_true]
    repeat' (refine And.intro ?_ ?_)
  all_goals
    intro t ht
    first
      | (refine Out.good_of_kept (k := t.kept) ?_ ht; simp; done)
      | simp [ht]
theorem State.chanWrite_good (s : State) (n y a : Nat) (w : Word) (h : Good p W s.kept) : Good p W (s.chanWrite n y a w).kept := by
  unfold State.chanWrite
  dsimp only
  repeat' (with_reducible (refine State.good_ite (fun _ => ?_) (fun _ => ?_)))
  all_goals
    with_reducible (refine State.acts_good _ _ h ?_)
    simp only [List.map_cons, List.map_nil, List.forall_mem_cons, List.not_mem_nil, false_imp_iff, implies_true, and_true]
    repeat' (refine And.intro ?_ ?_)
  all_goals
    intro t ht
    refine Out.good_of_kept (k := t.kept) ?_ ht
    simp
theorem State.cluWrite_good (s : State) (g y a : Nat) (w : Word) (h : Good p W s.kept) : Good p W (s.cluWrite g y a w).kept := by
  unfold State.cluWrite
  dsimp only
  repeat' (with_reducible (refine State.good_ite (fun _ => ?_) (fun _ => ?_)))
  all_goals
    with_reducible (refine State.acts_good _ _ h ?_)
    simp only [List.map_cons, List.map_nil, List.forall_mem_cons, List.not_mem_nil, false_imp_iff, implies_true, and_true]
    repeat' (refine And.intro ?_ ?_)
  all_goals
    intro t ht
    refine Out.good_of_kept (k := t.kept) ?_ ht
    simp

theorem State.busWrite_good (s : State) (a : Nat) (w : Word) (h : Good p W s.kept) : Good p W (s.busWrite a w).kept := by
  unfold State.busWrite
  dsimp only
  refine State.good_ite (fun _ => hubWrite_good _ _ _ h) (fun _ => State.good_ite (fun _ => by simp [h]) (fun _ => ?_))
  refine State.good_ite (fun _ => ?_) (fun _ => State.good_ite (fun _ => chanWrite_good _ _ _ _ _ h) (fun _ => ?_))
  · refine State.acts_good _ _ h ?_
    simp only [List.map_cons, List.map_nil, List.forall_mem_cons, List.not_mem_nil, false_imp_iff, implies_true, and_true]
    intro t ht; simp [ht]
  refine State.good_ite (fun _ => ?_) (fun _ => cluWrite_good _ _ _ _ _ h)
  refine State.acts_good _ _ h ?_
  simp only [List.map_cons, List.map_nil, List.forall_mem_cons, List.not_mem_nil, false_imp_iff, implies_true, and_true]
  exact ⟨fun t ht => Out.good_of_kept (k := t.kept) (by simp) ht, fun t ht => Out.good_of_kept (k := t.kept) (by simp) ht⟩
@[simp] theorem State.busTouch_good (s : State) (a : Nat) (h : Good p W s.kept) : Good p W (s.busTouch a).kept := by
  simp [h]
@[simp] theorem State.dmaWriteLine_good (s : State) (d sp a : Nat) (bytes : List Byte) (h : Good p W s.kept) :
    Good p W (s.dmaWriteLine d sp a bytes).kept := by
  unfold State.dmaWriteLine
  split
  · simp only [State.kept_mk]
    exact State.good_seqMem h (Mem.wf_writeBytes _ _ _)
  · split
    · exact State.good_foldl _ _ _ h fun t x ht => busWrite_good _ _ _ ht
    · dsimp only
      rw [State.foldl_kept _ _ _ (by intros; simp)]
      simp [h]
@[simp] theorem State.dmaBeats_good (d k : Nat) (s : State) (h : Good p W s.kept) : Good p W (State.dmaBeats d k s).kept := by
  induction k using Nat.strongRecOn generalizing s with
  | _ k ih =>
    match k with
    | 0 => exact h
    | k + 1 =>
      unfold State.dmaBeats
      split
      · exact h
      split
      · exact h
      · dsimp only
        split
        · exact ih k (by omega) _ (dmaWriteLine_good _ _ _ _ _ (by simp [h]))
        · split
          · exact dmaWriteLine_good _ _ _ _ _ (by simp [h])
          · exact ih _ (by omega) _ (dmaWriteLine_good _ _ _ _ _ (by simp [h]))
@[simp] theorem execDmaBurst_good (d : Dma) (inp : BurstIn) (s : State) (h : Good p W s.kept) :
    Out.Good p W (execDmaBurst d inp s) := by
  unfold execDmaBurst
  dsimp only
  repeat' split
  all_goals simp [h]
@[simp] theorem execDmaBusError_good (space : Fin 3) (kind : Nat) (addr : Nat) (partials : List (Nat × Nat × List Byte)) (s : State)
    (h : Good p W s.kept) : Out.Good p W (execDmaBusError space kind addr partials s) := by
  unfold execDmaBusError
  extract_lets one s1
  have h1 : Good p W s1.kept := by
    refine State.dmaBusStop_good _ _ _ _ (State.good_foldl _ _ _ h fun t d ht => ?_)
    simp only [one]
    repeat' split
    all_goals simp [ht]
  clear_value s1
  dsimp only
  repeat' split
  all_goals simp [h1]

@[simp] theorem State.laterAct_good (s : State) (x : Later) (h : Good p W s.kept) : Good p W (s.laterAct x).kept := by
  cases x <;> simp only [State.laterAct]
  all_goals simp [h]
@[simp] theorem State.drain_good (s : State) (c : Bool) (h : Good p W s.kept) : Good p W (s.drain c).kept := by
  unfold State.drain
  refine State.good_foldl _ _ _ ?_ fun t x ht => by simp [ht]
  simp [h]
@[simp] theorem State.tickAct_good (s : State) (h : Good p W s.kept) : Good p W (s.tickAct).kept := by
  unfold State.tickAct
  dsimp only
  rw [State.over_kept _ _ _ (by intros; simp), State.over_kept _ _ _ (by intros; simp), State.over_kept _ _ _ (by intros; simp)]
  refine State.good_over _ _ _ ?_ fun t x ht => State.capSettle_good _ _ ht
  rw [State.over_kept _ _ _ (by intros; simp), State.over_kept _ _ _ (by intros; simp), State.over_kept _ _ _ (by intros; simp),
    State.over_kept _ _ _ (by intros; simp), State.over_kept _ _ _ ?_, State.over_kept _ _ _ (by intros; simp)]
  · simp only [State.chainRelease_kept]
    refine State.drain_good _ _ ?_
    simp [h]
  · intro t x
    split
    · split <;> simp
    · simp
@[simp] theorem State.tickRecord_good (s : State) (h : Good p W s.kept) : Good p W s.tickRecord.kept := by
  unfold State.tickRecord
  dsimp only
  refine State.good_over _ _ _ (State.good_over _ _ _ ?_ fun t x ht => State.rawTick_good _ _ ht) fun t x ht => State.capTick_good _ _ ht
  rw [State.over_kept _ _ _ (by intros; simp), State.over_kept _ _ _ (by intros; simp)]
  exact h
@[simp] theorem State.sampleTick_good (s : State) (inp : TickIn) (h : Good p W s.kept) : Good p W (s.sampleTick inp).kept := by
  unfold State.sampleTick
  dsimp only
  simp only [State.pinTick_kept]
  refine State.drain_good _ _ ?_
  simp only [State.fadesEnd_kept, State.tickShares_kept, State.tickChain_kept]
  refine State.tickRecord_good _ ?_
  simp only [State.tickEngine_kept, State.tickSample_kept]
  refine State.tickAct_good _ ?_
  simp [h]
@[simp] theorem execSampleTick_good (inp : TickIn) (s : State) (h : Good p W s.kept) : Out.Good p W (execSampleTick inp s) := by
  unfold execSampleTick
  split
  · split <;> simp [h]
  · simp [h]

end Sys2Proof.Machine
end

