-- ==== Sys2Proof/Laws/Store.lean ====
section
/-!
SUPPORT. The two tables in NOR flash: what a store puts there is valid, and is the copy in force.
-/

namespace Sys2Proof.Machine

/-- TABLE_CRC does not read itself. -/
theorem CalTable.crcOf_crc (x : CalTable) (c : Nat) : ({ x with crc := c } : CalTable).crcOf = x.crcOf := by
  simp only [CalTable.crcOf, CalTable.sections, CalTable.word, CalTable.tap, CalTable.boardWord]

/-- The copy that a store of the calibration table writes is valid (R309). -/
@[simp] theorem CalTable.sealed_valid (x : CalTable) : (CalTable.sealed x).valid = true := by
  unfold CalTable.valid CalTable.sealed
  rw [Bool.and_eq_true, Bool.and_eq_true, beq_iff_eq, beq_iff_eq, beq_iff_eq]
  exact ⟨⟨rfl, rfl⟩, (CalTable.crcOf_crc { x with magic := 0x544C4143, format := 1, length := 128128 } _).symm⟩

/-- The copy that a store of the safe values writes is valid (R210). -/
@[simp] theorem SafeTable.sealed_valid (g : Nat) (xs : List Word) :
    (SafeTable.valid ⟨0x45464153, g, 512, safeCrc xs, xs⟩) = true := by simp [SafeTable.valid]

/-- One of the two copies is the one a store wrote, under the GEN it answers. -/
theorem storeCopy_mem {α : Type} (gen : α → Nat) (c : Option α × Option α) (mk : Nat → α) :
    (storeCopy gen c mk).1.1 = some (mk (storeCopy gen c mk).2) ∨ (storeCopy gen c mk).1.2 = some (mk (storeCopy gen c mk).2) := by
  obtain ⟨a | a, b | b⟩ := c <;> simp only [storeCopy] <;> try split
  all_goals simp

/-- A valid copy alone is the one in force. -/
theorem NorSt.calTable_one (x : CalTable) (h : x.valid = true) (n : NorSt) (hn : n.cal = (some x, none)) : n.calTable = some x := by
  unfold NorSt.calTable NorSt.calCopies
  rw [hn]
  simp only [Option.filter_some, h, if_true, Option.filter_none, newest]

/-- A store leaves everything but its own table. -/
theorem State.storeSafe_frame (s : State) : s.storeSafe.1 = { s with nor := { s.nor with safe := s.storeSafe.1.nor.safe } } := rfl
theorem State.storeCal_frame (s : State) :
    s.storeCal.1 = { s with nor := { s.nor with cal := s.storeCal.1.nor.cal, restored := none } } := rfl

end Sys2Proof.Machine
end

