-- ==== Sys2Proof/Tests/Slice0.lean ====
section
/-!
SUPPORT. The model's own tests: for each statement states and operands that meet its premises, clause by clause, at a boundary value where
a clause has one; ill-formed commands refused by each check of WellFormed; single commands with results worked out from the rules. Three
premises rest on constants the spec leaves to the device (Config) and have no concrete witness: NOTES.md names them.
-/

open Sys2Proof Sys2Proof.Machine

-- One theorem after the other: together their kernel checks would hold a thread each.
section
set_option Elab.async false

/-- State.reset with every tile UP, the stacks ACTIVE, firmware running and memory requests enabled. -/
def Tests.up : State :=
  let s := ((State.reset.wr PWR_TILE_STAT 0xF).setFld PWR_DRAM_STAT fPWR_DRAM_STAT_STATE 2).setBit MBX_STAT fMBX_STAT_BUSY false
  { s with host := { s.host with memEnable := true } }
/-- Cluster 0 in a power state. -/
def Tests.at (p : Nat) : State := Tests.up.setFld (PWR_CLU_STAT 0) fPWR_CLU_STAT_STATE p
/-- Cluster 0 in a power state with channel 0's descriptor words in a valid active bank. -/
def Tests.dsc (p : Nat) (ws : List Nat) : State :=
  let s := (Tests.at p).setBit (CLU_BANK_STAT 0) fCLU_BANK_STAT_ACTIVE_VALID true
  { s with banks := ws.zipIdx.foldl (fun m w => m.writeLE (bankBase 0 0 + 0x80 + 4 * w.2) w.1 4) s.banks }
/-- Firmware running, a request of a command with arguments in the request area. -/
def Tests.req (cmd : Nat) (args : List Byte) : State :=
  { Tests.up with cob := { Tests.up.cob with up := true, req := Mem.writeBytes [] 0 (leBytes cmd 4 ++ leBytes args.length 4 ++ args) } }
/-- A request with a header of zeros on VC0. -/
def Tests.rq : Req := ⟨0, ⟨0, 0, 0, 0⟩⟩

/-! ### The operands of a statement and a state that meet its premises, clause by clause -/

theorem test_hyp_MemoriesStayCanonical : State.reset.memWf := by unfold State.memWf; decide +kernel
theorem test_hyp_QueueOnlyShrinks : ∃ t, step { State.reset with pending := [.hotReset] } = .next t ∧ t.pending = [] := ⟨_, rfl, by decide +kernel⟩
theorem test_hyp_RegisterWriteBits :
    ((regAt (CH_SAFE_CODE 0 / 4 * 4)).isSome = true ∧ ¬(bar4Base + 0x8000 ≤ HUB_HALT_CTL ∧ HUB_HALT_CTL < bar4Base + 0x8400) ∧
      (regAt (HUB_HALT_CTL / 4 * 4)).isSome = true ∧ Tests.up.answers HUB_HALT_CTL = true ∧ maskAt HUB_HALT_CTL .sh = 0 ∧ HUB_HALT_CTL ≠ MBX_GO ∧
      Tests.up.memOn = true ∧ Tests.up.dma = [] ∧ State.reset.memOn = false ∧ State.reset.elogRepeats 0x0A Tests.rq.hdr = false ∧
      regAt 0xFFFFFC = none ∧ memAt 0xFFFFFC = none ∧ Tests.up.answers 0xFFFFFC = true) ∧
    (∀ n, HUB_HALT_CTL / 4 * 4 ≠ CH_ENG_STAT n) :=
  ⟨by decide +kernel, fun n => by have h : HUB_HALT_CTL / 4 * 4 < 0x1000000 := by decide +kernel
                                  unfold CH_ENG_STAT chBase cluBase tileBase; omega⟩
/-- Messages may go out; vector 0's entry is masked, its condition true and its bit pending. -/
def Tests.msg : State :=
  let s := ((Tests.up.wr HUB_INT_STAT 1).wr HUB_INT_EN 1).wr PCI_VEC_EN_LO 1
  { s with host := { s.host with msixEnable := true, pba := 1, cfg := { s.host.cfg with busMaster := true } } }
theorem test_hyp_RegisterWriteBits_messages : (Tests.msg.msixWord 0 3).getLsbD 0 = true ∧ Tests.msg.host.pba.testBit 0 = true ∧
    Tests.msg.vecCond 0 = true ∧ Tests.msg.host.shut = false ∧ Tests.msg.memOn = true ∧ 0 ∈ vecsOf HUB_INT_EN ∧
    (∃ t, exec (.registerWrite HUB_INT_EN 1 15 ⟨Tests.rq, 0⟩) Tests.msg = .next t ∧ t.vecCond 0 = true) :=
  ⟨by decide +kernel, by decide +kernel, by decide +kernel, by decide +kernel, by decide +kernel, by decide +kernel,
    ⟨_, rfl, by decide +kernel⟩⟩
/-- Cluster 15's shadows frozen by a commit that is pending, with one write of its last channel's setpoint held. -/
def Tests.frozen (held : List HeldWrite) : State :=
  Tests.up.updCluster 15 (fun c => { c with commit := { pend := some ⟨⟨2, none⟩, false, false⟩, held } })
theorem test_hyp_FrozenWrites : let a := CH_SETPOINT 511
    (regAt (a / 4 * 4)).isSome = true ∧ (Tests.frozen []).answers (a / 4 * 4) = true ∧
    ¬(bar4Base + 0x8000 ≤ a / 4 * 4 ∧ a / 4 * 4 < bar4Base + 0x8400) ∧ a / 4 * 4 ≠ MBX_GO ∧ (Tests.frozen []).memOn = true ∧ maskAt (a / 4 * 4) .sh ≠ 0 ∧
    ((Tests.frozen []).com (grpOf (a / 4 * 4))).frozen = true ∧
    (((Tests.frozen []).com (grpOf a)).held.any (fun w => w.addr == a)) = false ∧
    (((Tests.frozen [⟨a, 1, 15⟩]).com (grpOf a)).held.any (fun w => w.addr == a)) = true := by decide +kernel
theorem test_hyp_ReadLoadsLatch : isLo (CLU_COMMIT_AT_LO 15) = true ∧ Tests.up.answers (CLU_COMMIT_AT_LO 15) = true ∧
    isLo PHB_NOW_LO = true ∧ Tests.up.answers PHB_NOW_LO = true ∧ memAt PHB_NOW_LO = none ∧ isHi (PHB_NOW_LO + 4) = true ∧
    isLo (PHB_NOW_LO + 4) = false ∧ Tests.up.answers (PHB_NOW_LO + 4) = true ∧ memAt (PHB_NOW_LO + 4) = none ∧ isLo HUB_HALT_CTL = false ∧
    memAt (0x4FFFFFC - 0xF0000) = some (4, 15) ∧ isLo (0x4FFFFFC - 0xF0000) = false ∧ Tests.up.answers (0x4FFFFFC - 0xF0000) = true ∧
    State.reset.memOn = false ∧ State.reset.elogRepeats 0x0A Tests.rq.hdr = false := by decide +kernel
theorem test_hyp_Bar2Access : Tests.up.dramActive = true ∧ Tests.up.memOn = true ∧ ({ State.reset with host := Tests.up.host } : State).memOn = true ∧
    ({ State.reset with host := Tests.up.host } : State).dramActive = false ∧ State.reset.memOn = false ∧
    State.reset.elogRepeats 0x0A Tests.rq.hdr = false ∧ Tests.up.elogRepeats 0x0A Tests.rq.hdr = false ∧ 0xFFFFFFFE + [1, 2].length ≤ 2 ^ 32 ∧
    Tests.up.elogRepeats 0x22 Tests.rq.hdr = false ∧ (0xFFFFFF00 ≤ 0xFFFFFFFF ∧ 0xFFFFFFFF < 0xFFFFFF00 + 256) ∧
    State.reset.dramActive = false ∧ State.reset.dramLogged = false := by decide +kernel
theorem test_hyp_LinkErrorsAreLogged : State.reset.host.cfg.ecrcCheck = false ∧
    ({ Tests.up with host := { Tests.up.host with cfg := { Tests.up.host.cfg with ecrcCheck := true } } } : State).host.cfg.ecrcCheck = true ∧
    (∀ cls : Fin 16, Tests.up.elogRepeats cls Tests.rq.hdr = false) ∧
    tileWrite (.pgStart 511 false) = some (3, PG_GO 511) ∧ State.reset.tileUp 3 = false ∧ State.reset.firstDiscard 3 = false ∧
    (let s := State.reset.setBitAt PWR_TILE_STAT 11
     s.tileUp 3 = false ∧ s.firstDiscard 3 = true ∧ s.answers (CH_SETPOINT 511) = false) ∧
    tileWriteReq (CH_SETPOINT 511) Tests.rq (.registerWrite (CH_SETPOINT 511) 0 15 ⟨Tests.rq, 0⟩) ∧
    CH_SETPOINT 511 < 0x5000000 ∧ (bankOf 0x4EFFFFC).isSome = true := by
  refine ⟨?_, ?_, ?_, ?_, ?_, ?_, ?_, ⟨?_, rfl⟩, ?_, ?_⟩ <;> decide +kernel
theorem test_hyp_StructureBankWrites : bankOf (0x4F00000 / 4 * 4) = none ∧ bankOf (0x4EFFFFF / 4 * 4) = some (15, 1) ∧
    bankOf (0x1100000 / 4 * 4) = some (0, 0) ∧ Tests.up.tileUp 3 = true ∧ Tests.up.tileUp 0 = true ∧
    Tests.up.memOn = true ∧ 1 ≠ Tests.up.activeBank 15 ∧ 0 = Tests.up.activeBank 0 ∧ Tests.up.polSigned = false ∧ Tests.up.bankPending 15 = false ∧
    Tests.up.elogRepeats 0x20 Tests.rq.hdr = false := by decide +kernel
/-- A bank commit is pending in cluster 15. -/
def Tests.bankCommit : State :=
  Tests.up.updCluster 15 (fun c => { c with commit := { pend := some ⟨⟨1, none⟩, true, true⟩ } })
/-- A check runs in cluster 15. -/
def Tests.checking : State := Tests.up.setFld (CLU_BANK_STAT 15) fCLU_BANK_STAT_CODE 2
theorem test_hyp_ValidateAndInvalidate : Tests.up.tileUp 3 = true ∧ Tests.up.bankPending 15 = false ∧
    Tests.up.fld (CLU_BANK_STAT 15) fCLU_BANK_STAT_CODE ≠ 2 ∧ Tests.up.polSigned = false ∧ Tests.bankCommit.bankPending 15 = true ∧
    Tests.checking.fld (CLU_BANK_STAT 15) fCLU_BANK_STAT_CODE = 2 ∧ ({ Tests.up with polSigned := true } : State).bankPending 15 = false ∧
    Tests.bankCommit.tileUp 3 = true := by decide +kernel
theorem test_hyp_ValidationEnds : Tests.checking.fld (CLU_BANK_STAT 15) fCLU_BANK_STAT_CODE = 2 ∧ (Tests.checking.checkBank 15 1).code ≠ 1 ∧
    (let s := (Tests.checking.wr (CLU_INT_EN 15) 0xFFFFFFFF).wr PCI_VEC_EN_HI 0x80
     s.vecCond 39 = false ∧ ∃ t, exec (.validationDone 15) s = .next t ∧ t.vecCond 39 = true) :=
  ⟨by decide +kernel, by decide +kernel, by decide +kernel, _, rfl, by decide +kernel⟩
theorem test_hyp_CommitIsAccepted : Tests.up.tileUp 3 = true ∧ (Tests.up.com 15).frozen = false ∧ (Tests.up.com 16).frozen = false ∧
    (Tests.up.setBit (CLU_BANK_STAT 15) fCLU_BANK_STAT_STBY_VALID true).bit (CLU_BANK_STAT 15) fCLU_BANK_STAT_STBY_VALID = true := by decide +kernel
theorem test_hyp_BankCommitNeedsValid : Tests.up.bit (CLU_BANK_STAT 15) fCLU_BANK_STAT_STBY_VALID = false ∧
    bankOf (0x4EFFFFF / 4 * 4) = some (15, 1 - Tests.bankCommit.activeBank 15) ∧ Tests.bankCommit.memOn = true ∧ Tests.bankCommit.tileUp 3 = true ∧
    ((Tests.bankCommit.cluster 15).commit.pend.map PendCommit.bank) = some true ∧
    Tests.bankCommit.elogRepeats 0x20 Tests.rq.hdr = false := by decide +kernel
theorem test_hyp_CommitInFreezeIsHeld : ((Tests.frozen []).com 15).frozen = true ∧ (Tests.frozen []).tileUp 3 = true ∧
    ((Tests.frozen []).com 15).heldCommit = none ∧
    (((Tests.frozen []).updCom 15 (fun c => { c with heldCommit := some ⟨false, false, 0⟩ })).com 15).heldCommit ≠ none := by decide +kernel
/-- A hub commit is pending for a stamp far ahead, or due at the coming tick. -/
def Tests.hubCommit (at_ : Bool) (due : Sched) (held : List HeldWrite) : State :=
  { Tests.up with hubCommit := { pend := some ⟨due, false, at_⟩, held } }
theorem test_hyp_CommitCancelRules : (Tests.hubCommit true ⟨2, some (2 ^ 40)⟩ []).due ⟨2, some (2 ^ 40)⟩ = false ∧
    ((Tests.hubCommit true ⟨2, some (2 ^ 40)⟩ []).com 16).pend = some ⟨⟨2, some (2 ^ 40)⟩, false, true⟩ ∧ (Tests.up.com 16).pend = none ∧
    (Tests.hubCommit true ⟨1, none⟩ []).due ⟨1, none⟩ = true ∧ Tests.up.tileUp 3 = true := by decide +kernel
theorem test_hyp_CommitTakesShadows : (Tests.hubCommit true ⟨1, none⟩ []).due ⟨1, none⟩ = true ∧ Tests.bankCommit.due ⟨1, none⟩ = true ∧
    (Tests.bankCommit.com 15).held = [] ∧ (Tests.up.com 16).pend = none ∧
    shadowOf 16 PHB_CTL = true ∧ regAt PHB_CTL ≠ none ∧ ((Tests.hubCommit true ⟨1, none⟩ [⟨PHB_CTL, 1, 1⟩]).com 16).held = [⟨PHB_CTL, 1, 1⟩] ∧
    shadowOf 16 (CH_SETPOINT 0) = false ∧ (Tests.frozen []).due ⟨2, none⟩ = false := by decide +kernel
theorem test_hyp_CoefficientWrites : (255 < 256 ∧ (chBase 511 + 0x800 + 4 * 255 + 3) / 4 * 4 = chBase 511 + 0x800 + 4 * 255) ∧
    Tests.up.answers ((chBase 511 + 0x800 + 4 * 255 + 3) / 4 * 4) = true := by decide +kernel

theorem test_hyp_SampleTickAdvances : State.reset.hub.resetAt = none ∧ (∀ x, State.reset.hub.resetAt = some x → State.reset.tick + 1 < x.1) ∧
    State.reset.phase.index = [] ∧ ({ State.reset with hub := { resetAt := some (1, 4) } } : State).hub.resetAt = some (1, 4) ∧
    1 ≤ State.reset.tick + 1 ∧ ({ State.reset with phase := { nextJump := true } } : State).nextIsJump = true :=
  ⟨rfl, fun x h => (by cases h), rfl, rfl, Nat.le_refl 1, rfl⟩
/-- Channel 0 in RUN with slots 0 and 3, in gang 0 of one member, whose leader on this device is channel 0. -/
def Tests.gang : State :=
  let s := Tests.dsc 3 [0x1, 0x01000001, 0]
  { s with banks := s.banks.writeLE (bankBase 0 0 + 0x880) 0x100 4 }
/-- Values that a slot's calculation and a channel's selection may have. -/
def Tests.calc (step : Int) : ChanCalc := { (Tests.gang.chanCalc 0 {} []) with step }
theorem test_hyp_SampleTickAdvances_arithmetic : (∀ x ∈ [one / 2 - 1, -one, 0], StageKind.unit.clamp x = x) ∧
    (0 < (2 ^ 32 - 1 : Int) ∧ (2 ^ 32 - 1 : Int) < 2 ^ 32 ∧ max (0 - (2 ^ 32 - 1)) (-(2 ^ 32 - 1)) ≤ (0 : Int) ∧ brake 0 (2 ^ 32 - 1) ≤ 0) ∧
    (∃ e, Tests.gang.gangEntry 0 (Tests.gang.desc 0).gang = some e ∧ e.members ≠ 0) ∧
    (Tests.gang.desc 0).present 3 = true ∧ (Tests.gang.desc 0).present 0 = true ∧ (Tests.gang.desc 0).present 1 = false ∧
    ((Tests.gang.eng 0).entry || Tests.gang.haltRestart) = false ∧ (Tests.gang.chan 0).pg.release = none ∧
    ((Tests.gang.updEng 0 (fun e => { e with entry := true })).eng 0).entry = true ∧ (Tests.gang.inj 0).x = 0 ∧ (Tests.gang.burdenStep 0).1 = 0 ∧
    (Tests.calc 1).step ≠ 0 ∧ Tests.up.heldThrough 0 = true ∧ (Tests.up.wr (CH_SAFE_SRC 0) 0).heldThrough 0 = false ∧
    (let d := Tests.gang.chanSelect (Tests.calc 0) []
     d.cc.n < 512 ∧ d.sel.ctrl < 6 ∧ (Tests.gang.eng d.cc.n).slots.length = 4) := by
  refine ⟨by decide +kernel, by decide +kernel, ⟨⟨0, 1, 0, 0, 0, 0⟩, by decide +kernel⟩, ?_⟩
  decide +kernel
/-- PHB_CTL as live, and the state of the phase base. -/
def Tests.ph (ctl : Word) (st : Nat) : State := (Tests.up.wl PHB_CTL ctl).setPhState st
/-- The phase base with its own data as well. -/
def Tests.phx (ctl : Word) (st : Nat) (x : PhaseSt) : State := { Tests.ph ctl st with phase := x }
theorem test_hyp_ReferenceEvents : State.reset.phPeriodic = false ∧ (Tests.ph 1 phChain).chained = true ∧
    (let s (x : PhaseSt) (st : Nat) := Tests.phx 1 st { x with ready := some ⟨5 * unitT, 0, false⟩, peak := 100000 }
     (s {} phLocked).phPeriodic = true ∧ (s {} phLocked).chained = false ∧ (s {} phLocked).phMode = 1 ∧
     (s {} phLocked).phase.ready = some ⟨5 * unitT, 0, false⟩ ∧ ¬((s {} phLocked).sineLow = true) ∧ (s {} phAcquire).phState = phAcquire ∧
     ¬(2 ^ (61 - (s {} phLocked).fld PHB_REF_CFG fPHB_REF_CFG_WIN) < (phaseError 0).natAbs) ∧
     2 ^ (61 - (s {} phLocked).fld PHB_REF_CFG fPHB_REF_CFG_WIN) < (phaseError (2 ^ 63)).natAbs ∧
     (s {} phHoldover).phState = phHoldover ∧ 15 ≤ (s { validCount := 15 } phHoldover).phase.validCount) ∧
    (Tests.phx 1 phLocked { ready := some ⟨0, 0, false⟩ }).sineLow = true ∧
    (let s := Tests.ph 2 phAcquire
     s.phPeriodic = true ∧ s.phMode = 2 ∧ s.edgeTaken true = true ∧ s.edgeTaken false = false ∧ s.inRange none = true) ∧
    (Tests.ph 1 phLocked).phase.ready = none := by
  refine ⟨?_, ?_, ?_, ?_, ?_, ?_⟩ <;> decide +kernel
theorem test_hyp_LossOfReference : (let m : State := { Tests.ph 1 phLocked with tick := 2 ^ 40 }
     m.chained = false ∧ m.phState = phLocked ∧ m.phPeriodic = true ∧
     3 * 2 ^ 63 * unitT ≤ ((m.tick + 1) * unitT - max m.phase.entered (m.phase.lastEvent.getD 0)) * m.phase.held) ∧
    (Tests.ph 1 phAcquire).phState = phAcquire ∧ (Tests.ph 1 phAcquire).phMode = 1 ∧ (Tests.ph 1 phAcquire).sineLow = true ∧
    (Tests.ph 3 phLocked).phMode = 3 ∧ (Tests.ph 3 phLocked).lbit PHB_CTL fPHB_CTL_QHOLD = false ∧ (Tests.ph 3 phHoldover).phState = phHoldover ∧
    (let m : State := { Tests.ph 0x42 phAcquire with tick := 2 ^ 40 }
     m.phIndex = true ∧ 3 * 2 ^ 63 * unitT ≤ ((m.tick + 1) * unitT - max m.phase.entered (m.phase.lastEvent.getD 0)) * m.freeInc) := by
  refine ⟨?_, ?_, ?_, ?_, ?_, ?_, ?_, ?_⟩ <;> decide +kernel
theorem test_hyp_IndexAndCounts : (Tests.ph 0x42 phAcquire).phIndex = true ∧ (Tests.ph 0x42 phAcquire).chained = false ∧
    (Tests.ph 0x42 phAcquire).edgeTaken true = true ∧ (Tests.ph 3 phAcquire).phMode = 3 ∧ (Tests.ph 3 phAcquire).chained = false ∧
    State.reset.phIndex = false ∧ ((true != (Tests.ph 3 phAcquire).phase.qa) != (false != (Tests.ph 3 phAcquire).phase.qb)) = true ∧
    (Tests.ph 3 phAcquire).phase.qlast = none ∧
    (let s := Tests.phx 3 phHoldover { qlast := some 0, validCount := 15 }
     s.phState = phHoldover ∧ 15 ≤ s.phase.validCount ∧ 0 + 20 * cycT ≤ s.instant 20 ∧ ¬(0 + 20 * cycT ≤ s.instant 19) ∧ 0 + 160 * cycT ≤ s.instant 160) := by
  refine ⟨?_, ?_, ?_, ?_, ?_, ?_, ?_, ?_, ?_⟩ <;> decide +kernel
theorem test_hyp_EngineEvents :
    ((Tests.at 3).setFld (CH_ENG_STAT 0) fCH_ENG_STAT_GUARD_LEFT 1).fld (CH_ENG_STAT 0) fCH_ENG_STAT_GUARD_LEFT = 1 ∧
    (let s := (Tests.at 3).updEng 0 (fun e => { e with ran := true }); (s.eng 0).ran = true ∧ (s.eng 0).guardLoad = false) ∧ (Tests.up.cluster 15).test = none ∧
    ((Tests.up.updCluster 15 (fun c => { c with test := some (1, 7, 3) })).cluster 15).test = some (1, 7, 3) ∧ Tests.up.tick < 1 ∧
    16 ≤ ((Tests.up.updCluster 15 (fun c => { c with laneFails := [0, 0, 0, 0, 0, 0, 0, 16] })).cluster 15).laneFails.getD 7 0 ∧
    (Tests.up.rd (CLU_ENG_STAT 15)).getLsbD 7 = false ∧
    (let ups := [(⟨0, .slot0, true⟩ : Upset)]
     Tests.gang.recomputeFits 0 (ups.map (·.item)) = true ∧ (∀ u ∈ ups, u.recheckOk = true) ∧ ∀ u ∈ ups, u.item ≠ .model) ∧
    ((∀ u ∈ [(⟨0, .model, false⟩ : Upset)], u.item = .model) ∧ ¬ ∀ u ∈ [(⟨0, .model, false⟩ : Upset)], u.recheckOk = true) ∧
    (Tests.gang.desc 0).ffRail = false ∧ ((Tests.dsc 3 [0x5, 1]).desc 0).ffRail = true := by decide +kernel
/-- A state with something changed in a channel. -/
def Tests.ch (p n : Nat) (f : ChSt → ChSt) : State := (Tests.at p).updChan n f
/-- A coefficient bank swap of channel 511 is pending for a tick. -/
def Tests.coef (k : Nat) : State := Tests.ch 0 511 (fun c => { c with eng := { c.eng with coefPend := some ⟨k, none⟩ } })
theorem test_hyp_CoefficientSwaps : (Tests.up.eng 511).coefPend = none ∧ Tests.up.tileUp 3 = true ∧ ((Tests.coef 2).eng 511).coefPend = some ⟨2, none⟩ ∧
    (Tests.coef 2).due ⟨2, none⟩ = false ∧ (Tests.coef 1).due ⟨1, none⟩ = true ∧ (Tests.coef 1).tileUp 3 = true ∧
    (Tests.coef 1).inRun 511 = false ∧ (Tests.coef 1).rangeTickDue 511 = false ∧
    ((Tests.coef 1).updRng 511 (fun r => { r with prog := some ⟨0, 5, 0, 1, 1, 1, 0, 0, 0, false, 0⟩ })).rangeTickDue 511 = true := by decide +kernel
/-- Channel 0 in RUN with its model enabled, N = 1 and a count of 1. -/
def Tests.model : State := ((Tests.dsc 3 [0x11]).wl (CH_MODEL_CTL 0) 0x10000).setFld (CH_MODEL_STAT 0) fCH_MODEL_STAT_COUNT 1
theorem test_hyp_LoadModel : (Tests.model.desc 0).modelEn = true ∧ Tests.model.inRun 0 = true ∧ Tests.up.inRun 511 = false ∧
    ((Tests.ch 3 0 (fun c => { c with model := { c.model with settle := 1 } })).model 0).settle = 1 ∧
    (let lim := Tests.model.lfld (CH_MODEL_CTL 0) fCH_MODEL_CTL_N
     lim ≠ 0 ∧ lim ≤ Tests.model.fld (CH_MODEL_STAT 0) fCH_MODEL_STAT_COUNT ∧ Tests.model.bit (CH_MODEL_STAT 0) fCH_MODEL_STAT_EPISODE = false) ∧
    (let s := Tests.model.wl (CH_MODEL_CTL 0) (fCH_MODEL_CTL_ACTION.put 0x10000 3)
     (s.lfld (CH_MODEL_CTL 0) fCH_MODEL_CTL_ACTION).testBit 1 = true ∧ s.bit (PG_STAT 0) fPG_STAT_TRIPPED = false) ∧
    Tests.up.lfld (CH_MODEL_CTL 511) fCH_MODEL_CTL_N = 0 ∧ (Tests.up.model 511).settle ≠ 1 ∧
    ((Tests.up.chan 0).smp.bridged = false ∧ (Tests.up.chan 0).smp.ctrl ≠ 6 ∧ (Tests.up.model 0).settle = 0 ∧
      Tests.up.lfld (CH_MODEL_CTL 0) fCH_MODEL_CTL_FREEZE = 0) ∧ one / 2 ^ 16 ≤ one / 2 ^ 16 ∧ 127 < 128 ∧
    (let s : State := { Tests.gang with shares := [⟨0, 0, 0, 0, 5⟩] }
     s.shareMatch 0 = some 5) ∧ Tests.gang.shareMatch 0 = none ∧
    (∃ e, Tests.gang.gangEntry 0 (Tests.gang.desc 0).gang = some e ∧ e.members ≠ 127) :=
  ⟨by decide +kernel, by decide +kernel, by decide +kernel, by decide +kernel, by decide +kernel, by decide +kernel, by decide +kernel,
    by decide +kernel, by decide +kernel, by decide +kernel, by decide +kernel, by decide +kernel, by decide +kernel,
    ⟨⟨0, 1, 0, 0, 0, 0⟩, by decide +kernel⟩⟩
/-- Injection of channel 0: its control word, what it holds. -/
def Tests.inj (p : Nat) (x : InjSt) : State := Tests.ch p 0 (fun c => { c with inj := x })
theorem test_hyp_Injection : (Tests.inj 3 {}).inj 0 = {} ∧
    (let s := Tests.up.wl (CH_INJ_CTL 0) (fCH_INJ_CTL_NODE.put 0 1)
     s.lfld (CH_INJ_CTL 0) fCH_INJ_CTL_NODE = 1 ∧ (s.desc 0).present (s.lfld (CH_INJ_CTL 0) fCH_INJ_CTL_SLOT) = false) ∧
    Tests.up.lfld (CH_INJ_CTL 0) fCH_INJ_CTL_NODE = 0 ∧ ((Tests.inj 3 { active := true }).inj 0).active = true ∧
    ((Tests.inj 3 { pend := some ⟨1, none⟩ }).inj 0).pend = some ⟨1, none⟩ ∧ (Tests.inj 3 { pend := some ⟨1, none⟩ }).due ⟨1, none⟩ = true ∧
    (Tests.inj 3 { pend := some ⟨1, none⟩ }).inRun 0 = true ∧ (Tests.inj 2 { pend := some ⟨1, none⟩ }).inRun 0 = false ∧
    ((Tests.inj 3 { active := true }).inj 0).stopAt = none ∧
    (let s := (Tests.inj 3 { active := true, n := 1 }).wl (CH_INJ_LEN 0) 1
     (s.inj 0).active = true ∧ (s.lv (CH_INJ_LEN 0)).toNat ≠ 0 ∧ (s.lv (CH_INJ_LEN 0)).toNat ≤ (s.inj 0).n) := by decide +kernel
/-- The capture of cluster 0. -/
def Tests.cap (p : Nat) (x : CapSt) (st : Nat) : State := ((Tests.at p).updCap 0 (fun _ => x)).setCapState 0 st
theorem test_hyp_Capture : 2 ≤ (Tests.at 2).pwr 0 ∧ (Tests.at 2).tileUp 0 = true ∧ (Tests.at 1).pwr 0 < 2 ∧
    ((Tests.cap 2 { running := true } 2).cap 0).running = true ∧ ((Tests.cap 2 { running := true } 2).cap 0).forceFrom = none ∧
    (Tests.cap 2 { running := true } 2).capState 0 = 2 ∧ ((Tests.cap 2 { running := true } 2).cap 0).after = 0 ∧
    (let s := Tests.up.setFld (CLU_CAP_CFG 0) fCLU_CAP_CFG_TRIG 1
     s.fld (CLU_CAP_CFG 0) fCLU_CAP_CFG_TRIG = 1 ∧ s.isLate (s.rd64 (CLU_CAP_AT_LO 0)) = true) := by decide +kernel
/-- Channel 0 with ranges 0 and 5 enabled, scales given, and a range state. -/
def Tests.rng (p : Nat) (x : RangeSt) : State :=
  let s := ((Tests.ch p 0 (fun c => { c with rng := x })).wl (CH_IRANGE_CFG 0 0) 1).wl (CH_IRANGE_CFG 0 5) 1
  (((s.wl (CH_IRANGE_SCALE 0 0) 0x400000).wl (CH_IRANGE_SCALE 0 5) 0x400000).wl (CH_VRANGE_SCALE 0 0) 0x400000).wl (CH_VRANGE_SCALE 0 3) 0x400000
/-- A change from range 0 to 5 whose tick j is 0, MAKE 1, BLIND 2. -/
def Tests.prog : RangeProg := ⟨0, 5, 0, 1, 2, 1, 0, 0, 0, false, 0⟩
theorem test_hyp_RangeRequests : (Tests.rng 0 {}).pwr 0 = 0 ∧ ((Tests.rng 2 { req := some ⟨false, 5, ⟨2, none⟩⟩ }).rng 0).req ≠ none ∧
    (Tests.rng 2 {}).pwr 0 ≠ 0 ∧ ((Tests.rng 2 {}).rng 0).req = none ∧ (Tests.rng 2 {}).irangeOk 0 7 = false ∧ (Tests.rng 2 {}).irangeOk 0 5 = true ∧
    zeroScale ((Tests.rng 2 {}).iScale 0 ((Tests.rng 2 {}).irange 0)) = false ∧ 5 ≠ (Tests.rng 2 {}).irange 0 ∧
    (let r := (Tests.rng 3 {}).wr (CH_SAFE_SRC 0) 0; r.inRun 0 = true ∧ r.isHeld 0 = false) ∧ ((Tests.rng 2 {}).rng 0).prog = none ∧ (Tests.rng 2 {}).inRun 0 = false ∧
    zeroScale ((Tests.rng 2 {}).vScale 0 3) = false ∧ zeroScale ((Tests.rng 2 {}).vScale 0 ((Tests.rng 2 {}).vrange 0)) = false ∧
    3 ≠ (Tests.rng 2 {}).vrange 0 ∧ (Tests.rng 2 { req := some ⟨false, 5, ⟨2, none⟩⟩ }).due ⟨2, none⟩ = false ∧
    (Tests.rng 2 { req := some ⟨false, 5, ⟨1, none⟩⟩ }).due ⟨1, none⟩ = true ∧
    (let s := Tests.rng 2 { shunts := 1 }; s.irangeOk 0 0 = true ∧ 0 = s.irange 0 ∧ s.shuntsPlain 0 = true) := by decide +kernel
theorem test_hyp_RangeChanges : ((Tests.rng 3 { req := some ⟨false, 5, ⟨1, none⟩⟩ }).rng 0).req = some ⟨false, 5, ⟨1, none⟩⟩ ∧
    ((Tests.rng 3 { req := some ⟨false, 5, ⟨1, none⟩⟩ }).rng 0).prog = none ∧ 5 ≠ (Tests.rng 3 { req := some ⟨false, 5, ⟨1, none⟩⟩ }).irange 0 ∧
    ((Tests.rng 3 { prog := some Tests.prog }).rng 0).prog = some Tests.prog ∧ (Tests.rng 3 { prog := some Tests.prog }).tick + 1 = Tests.prog.j + Tests.prog.m ∧
    (let s : State := { Tests.rng 3 { prog := some Tests.prog } with tick := 1 }
     s.tick + 1 = Tests.prog.j + Tests.prog.bl ∧ Tests.prog.b < 6 ∧ s.tick + 1 ≠ Tests.prog.j + Tests.prog.m ∧ s.inRun 0 = true ∧
     s.lbit (CH_RANGE_CTL 0) fCH_RANGE_CTL_NORESCALE = false) ∧
    ((Tests.rng 3 { req := some ⟨true, 3, ⟨1, none⟩⟩ }).rng 0).req = some ⟨true, 3, ⟨1, none⟩⟩ ∧
    (Tests.rng 3 { req := some ⟨true, 3, ⟨1, none⟩⟩ }).due ⟨1, none⟩ = true ∧ 3 < 4 ∧
    ((Tests.dsc 3 [1, 5]).desc 0).present 0 = true ∧ ((Tests.dsc 3 [1, 5]).desc 0).src 0 = 1 ∧ ((Tests.dsc 3 [1, 1]).desc 0).src 0 = 0 := by
  decide +kernel
/-- Channel 0 in RUN with automatic ranging to range `top`, one count up. -/
def Tests.auto (top : Nat) : State :=
  (((((Tests.dsc 3 [1, 1, 0xFF]).updChan 0 (fun c => { c with rng := { up := 1 } })).wl (CH_RANGE_AUTO 0)
    (fCH_RANGE_AUTO_N_UP.put (fCH_RANGE_AUTO_MAX.put 1 top) 1)).wl (CH_IRANGE_CFG 0 5) 1).wl (CH_IRANGE_SCALE 0 5) 0x400000)
theorem test_hyp_AutomaticRanging : (Tests.auto 5).autoOn 0 = true ∧ max 1 ((Tests.auto 5).lfld (CH_RANGE_AUTO 0) fCH_RANGE_AUTO_N_UP) ≤ ((Tests.auto 5).rng 0).up ∧
    ((Tests.auto 5).rng 0).req = none ∧ ((Tests.auto 5).rng 0).prog = none ∧ (Tests.auto 5).inHoldoff 0 = false ∧
    ((Tests.auto 5).updRng 0 (fun r => { r with prog := some Tests.prog })).autoOn 0 = true ∧
    (((Tests.auto 5).updRng 0 (fun r => { r with prog := some Tests.prog })).rng 0).prog ≠ none ∧
    (Tests.auto 5).autoTarget 0 true = some 5 ∧ (Tests.auto 4).autoTarget 0 true = none ∧ (Tests.auto 4).autoOn 0 = true ∧
    ((Tests.ch 3 0 (fun c => { c with rng := { holdEnd := some 1 } })).rng 0).holdEnd = some 1 := by decide +kernel

/-- Channel 0, biased, with its aperture unit bound and a state of that unit. -/
def Tests.apt (p : Nat) (x : AptSt) : State := (Tests.dsc p [0x21]).updChan 0 (fun c => { c with apt := x })
/-- An aperture run of 10 samples once, with a ring of 64 bytes at 0. -/
def Tests.aptCfg : AptCfg := ⟨10, 10, 1, false, false, 0, false, 0, 64⟩
theorem test_hyp_ApertureRuns : Tests.up.tileUp 3 = true ∧ (Tests.up.desc 511).aptEn = false ∧ (Tests.apt 2 {}).tileUp 0 = true ∧
    ((Tests.apt 2 {}).desc 0).aptEn = true ∧ (Tests.apt 1 {}).biased 0 = false ∧ ((Tests.apt 2 { cfg := some Tests.aptCfg }).apt 0).cfg ≠ none ∧
    (((Tests.apt 2 {}).wl (APT_LEN_LO 0) 0).wl (APT_LEN_HI 0) 0).lv64 (APT_LEN_LO 0) = 0 ∧
    (let s := (Tests.apt 2 {}).wl (APT_LEN_LO 0) 1
     (s.desc 0).aptEn = true ∧ (s.apt 0).cfg = none ∧ s.biased 0 = true ∧ s.lv64 (APT_LEN_LO 0) ≠ 0 ∧ s.tileUp 0 = true) ∧
    (let s := Tests.apt 2 { cfg := some Tests.aptCfg, ap := some ⟨0, 1, 0, 0, 0, 0, 0, 0, 0, 0, true, 0, none, 0, 0⟩ }
     (s.apt 0).ap ≠ none ∧ (s.apt 0).stopAt = none ∧ (s.apt 0).cfg ≠ none ∧ atOrAfter s.nextStamp 1 = true) ∧
    (let s := Tests.apt 2 { cfg := some { Tests.aptCfg with len := 2 ^ 62, period := 2 ^ 62 }, next := some 0 }
     (s.apt 0).ap = none ∧ (s.aptDueStart 0).map Prod.fst = some 0 ∧ atOrAfter s.nextStamp ((0 + 2 ^ 62) % 2 ^ 64) = false) ∧
    (let s := Tests.apt 2 { cfg := some Tests.aptCfg, ap := some ⟨0, 1, 0, 0, 2 ^ 24 - 1, 0, 0, 0, 0, 0, true, 0, none, 1, 0⟩ }
     ((s.apt 0).ap.map Aperture.n) = some (2 ^ 24 - 1) ∧ ((s.apt 0).ap.map Aperture.wPend) = some 1) := by decide +kernel
/-- An open aperture with one sample of weight 1 and one waiting. -/
def Tests.ap : Aperture := { s := 0, e := 1, n := 1, w := 1, wPend := 1, rseq := 1 }
theorem test_hyp_ApertureRuns_records : Tests.ap.n ≠ 0 ∧ Tests.ap.w ≠ 0 ∧ Tests.ap.wPend ≠ 0 ∧
    (let s := Tests.apt 2 { cfg := some Tests.aptCfg, ap := some Tests.ap, stopAt := some 1 }
     (s.apt 0).ap = some Tests.ap ∧ (s.apt 0).stopAt = some 1 ∧ 1 ≤ s.tick + 1 ∧ (s.cluster 0).fifo.length < 64 ∧
     (s.chan (s.aptSrc 0)).smp.rseq ≠ Tests.ap.rseq ∧ (s.chan (s.aptSrc 0)).smp.accVr = Tests.ap.vr ∧ (s.desc 0).aptGang = false ∧
     (s.chan (s.aptSrc 0)).smp.accIr = Tests.ap.ir) ∧
    64 ≤ ((Tests.up.updCluster 0 (fun c => { c with fifo := List.replicate 64 ⟨0, [], 0, 0, 0, 0, 64, false⟩ })).cluster 0).fifo.length ∧
    (let s := Tests.up.updChan 0 (fun c => { c with smp := { c.smp with bridged := true, holdover := true } })
     (s.chan (s.aptSrc 0)).smp.bridged = true ∧ (s.chan (s.aptSrc 0)).smp.holdover = true) := by decide +kernel
/-- A record of channel 0 waits in cluster 0's writer, for a ring of len bytes at 0. -/
def Tests.record (len : Nat) : State :=
  { (Tests.apt 2 {}).updCluster 0 (fun c => { c with fifo := [⟨0, [1, 2], 3, 0, 0, 0, len, false⟩] }) with tick := 1 }
theorem test_hyp_RecordsAreWritten : ((Tests.record 64).cluster 0).fifo = [⟨0, [1, 2], 3, 0, 0, 0, 64, false⟩] ∧ 0 < (Tests.record 64).tick ∧
    (Tests.record 64).recsNow 0 < 4 ∧ (Tests.record 64).memUp 0 = true ∧ 0 = ((Tests.record 64).apt 0).run ∧ State.reset.memUp 0 = false ∧
    (let s := (Tests.record 64).updChan 0 (fun c => { c with apt := { run := 1, tails := [(0, 0, 32)] } })
     0 ≠ (s.apt 0).run ∧ (0, 0, 32) ∈ (s.apt 0).tails ∧ s.ringOf 0 0 = (0, 32) ∧ (32 / 32 * 32 + 64 - 0 % 64) % 64 = 32) ∧ ((Tests.record 64).apt 0).wr = 0 ∧ ((Tests.record 64).rd (APT_RING_RD 0)).toNat = 0 ∧
    (0 / 32 * 32 + 64 - 0 % 64) % 64 ≠ 32 ∧ ((Tests.record 0).cluster 0).fifo.map RecEntry.ringLen = [0] ∧
    (let s := (Tests.record 64).updChan 0 (fun c => { c with apt := { c.apt with wr := 32 } }); (s.apt 0).wr = 32 ∧ s.recsNow 0 < 4) ∧
    (0 / 32 * 32 + 64 - 32 % 64) % 64 = 32 ∧ (0 / 32 * 32 + 64 - 0 % 64) % 64 = 0 ∧ Tests.up.recsNow 15 = 0 ∧ (Tests.up.cluster 15).fifo = [] := by decide +kernel
/-- Channel 0 with a state of raw capture. -/
def Tests.raw (p : Nat) (x : RawSt) : State := (Tests.dsc p [0x21]).updChan 0 (fun c => { c with raw := x })
def Tests.rawCfg : RawCfg := ⟨0, 0, false, false, 0, false, 0, 64⟩
theorem test_hyp_RawCapture : (Tests.raw 2 {}).tileUp 0 = true ∧ ((Tests.raw 2 {}).raw 0).cfg = none ∧ ((Tests.raw 2 {}).desc 0).aptEn = true ∧
    (Tests.raw 2 {}).biased 0 = true ∧ (Tests.raw 1 {}).biased 0 = false ∧ (Tests.up.desc 511).aptEn = false ∧
    (let s := Tests.raw 2 { cfg := some Tests.rawCfg, pend := some ⟨1, none⟩ }
     (s.raw 0).pend = some ⟨1, none⟩ ∧ s.due ⟨1, none⟩ = true ∧ s.tick + 1 < 2 ^ 64 ∧ (s.raw 0).cfg ≠ none ∧ (s.raw 0).running = false) ∧
    (let s := Tests.raw 2 { cfg := some Tests.rawCfg, running := true, written := 64 }
     (s.raw 0).running = true ∧ (s.raw 0).cfg = some Tests.rawCfg ∧ Tests.rawCfg.len ≠ 0 ∧ (s.raw 0).advanced + 64 ≤ (s.raw 0).written ∧
     Tests.rawCfg.stopFull = false) ∧
    (let s := Tests.raw 2 { cfg := some { Tests.rawCfg with stopFull := true }, running := true, written := 64, stopAt := none }
     (s.raw 0).running = true ∧ (s.raw 0).cfg = some { Tests.rawCfg with stopFull := true } ∧ (s.raw 0).advanced + 64 ≤ (s.raw 0).written ∧
     Tests.rawCfg.len ≤ (s.raw 0).advanced + 64 ∧ s.memUp 0 = true ∧ s.dma = []) ∧
    (Tests.rawCfg.sel = 0 ∧ Tests.rawCfg.decim = 0 ∧ Tests.rawCfg.uncal = false ∧ Tests.rawCfg.tag = false ∧ 0 < Tests.rawCfg.len ∧
     Tests.rawCfg.len % 8 = 0 ∧ Tests.rawCfg.base + Tests.rawCfg.len ≤ 2 ^ 32 ∧ 64 % 8 = 0) ∧ ((Tests.raw 2 { cfg := some Tests.rawCfg, running := true }).raw 0).written < 0 + 64 := by decide +kernel
theorem test_hyp_SafeCodeSources : Tests.up.tileUp (511 / 128) = true ∧ Tests.up.tileUp (0 / 128) = true ∧ (Tests.up.eng 0).sel < 8 ∧
    Tests.up.ctrl 0 = 7 ∧ (Tests.up.setFld (CH_LOOP_STAT 0) fCH_LOOP_STAT_CTRL 3).ctrl 0 ≠ 7 ∧ Tests.gang.biased 0 = true ∧
    (let s := (Tests.gang.wr (CH_SAFE_SRC 0) 0).updEng 0 (fun e => { e with hold := 0xFFFFF })
     s.isHeld 0 = false ∧ s.inRun 0 = true ∧ ((s.applyCode 0).dac 0).last / 16384 ≠ (s.dac 0).last / 16384) ∧
    0xFFFFF < 2 ^ 20 ∧ one - 2 ^ 108 ≤ one ∧ -one ≤ -one ∧ -one < one - 2 ^ 108 := by decide +kernel
/-- Channel 511 with a state of its DAC path. -/
def Tests.dac (x : DacSt) (tick : Nat) : State := { Tests.up.updChan 511 (fun c => { c with dac := x }) with tick }
theorem test_hyp_ModesAndSupervision : ((Tests.dac { modeStart := some 3 } 10).dac 511).modeStart = some 3 ∧
    (Tests.dac { modeStart := some 3 } 10).tick + 1 = 3 + 8 ∧ (Tests.dac { modeStart := some 3 } 18).tick + 1 = 3 + 16 ∧
    (Tests.dac { modeStart := some 3 } 9).tick + 1 ≠ 3 + 8 ∧
    (∀ compl : Bool,
      let s := ((Tests.dac {} 0).wl (CH_DAC_SUP_CTL 511)
        (fCH_DAC_SUP_CTL_OPEN_ACT.put (fCH_DAC_SUP_CTL_OPEN_N.put (fCH_DAC_SUP_CTL_COMPL_N.put (fCH_DAC_SUP_CTL_COMPL_ACT.put 0 7) 1) 1) 4)).wr
        (CH_DAC_STAT 511) (fCH_DAC_STAT_OPEN_CNT.put (fCH_DAC_STAT_COMPL_CNT.put 0 1) 1)
      let cnt := s.fld (CH_DAC_STAT 511) (if compl then fCH_DAC_STAT_COMPL_CNT else fCH_DAC_STAT_OPEN_CNT)
      let lim := s.lfld (CH_DAC_SUP_CTL 511) (if compl then fCH_DAC_SUP_CTL_COMPL_N else fCH_DAC_SUP_CTL_OPEN_N)
      let act := s.lfld (CH_DAC_SUP_CTL 511) (if compl then fCH_DAC_SUP_CTL_COMPL_ACT else fCH_DAC_SUP_CTL_OPEN_ACT)
      lim ≠ 0 ∧ lim ≤ cnt ∧ (if compl then (s.dac 511).complRaised else (s.dac 511).openRaised) = false ∧ act = if compl then 7 else 4) ∧
    ((Tests.dac { openRaised := true } 0).dac 511).openRaised = true := by decide +kernel
/-- Channel 0's window V with its high comparator enabled, blanking it obeys, its route, and the end of the blanking timer. -/
def Tests.win (p route : Nat) (ends : Option Nat) (f : WinSt → WinSt) : State :=
  ((Tests.dsc p [1, 0, 0xFF, route]).updChan 0 (fun c => { c with blank := ⟨ends⟩, winV := f c.winV })).wl (WIN_CTL 0 0)
    (fWIN_CTL_BLANK.put (fWIN_CTL_EN_HI.put 0 1) 1)
theorem test_hyp_ComparatorsTrip : let s := Tests.win 1 3 none id
    let b := Tests.win 1 3 (some 41) id
    s.pwr 0 ≠ 0 ∧ (s.cluster 0).settling = false ∧ s.cmpEnabled 0 .v true = true ∧ s.tied 0 .v = false ∧ b.tied 0 .v = false ∧
    s.winMasked 0 .v (s.inst 399) = false ∧
    b.winMasked 0 .v (b.inst 399) = true ∧ b.pwr 0 ≠ 0 ∧ b.cmpEnabled 0 .v true = true ∧ (b.cluster 0).settling = false ∧
    s.bit (PG_STAT 0) fPG_STAT_TRIPPED = false ∧ (Tests.win 1 0 none id).route 0 .v = 0 := by decide +kernel
theorem test_hyp_ReturnAndBlanking : (let s := Tests.win 1 3 (some 1) id
     (s.chan 0).blank.ends = some 1 ∧ 1 ≤ s.inst 399 ∧ s.outside 0 .v = false ∧ s.outside 0 .i = false) ∧
    (let s := (Tests.win 1 3 (some 1) id).setLatch 0 .v true true
     s.lbit (WIN_CTL 0 0) fWIN_CTL_BLANK = true ∧ s.outside 0 .v = true ∧ s.winTesting 0 .v = false ∧ s.pwr 0 ≠ 0) ∧
    (let s := Tests.win 1 3 none (fun x => { x with test := 1 })
     s.pwr 0 ≠ 0 ∧ (s.tieLevel 0 .v).isSome = true ∧ s.tieLevel 0 .i = none ∧ 0 ∈ chansOf 0) ∧
    (∀ e, ((Tests.win 1 3 (some 41) id).chan 0).blank.ends = some e → (Tests.win 1 3 (some 41) id).inst 399 < e) ∧
    (Tests.win 0 3 none id).pwr 0 = 0 ∧ (Tests.win 1 3 none id).cmpEnabled 0 .v false = false ∧
    (Tests.win 1 3 none (fun x => { x with test := 3 })).tied 0 .v = true ∧ (Tests.win 1 3 none id).tied 0 .v = false :=
  ⟨by decide +kernel, by decide +kernel, by decide +kernel, fun e h => by
    have h2 : ((Tests.win 1 3 (some 41) id).chan 0).blank.ends = some 41 := by decide +kernel
    rw [h2] at h; cases h; decide +kernel, by decide +kernel⟩
theorem test_hyp_WindowSelfCheck : (fWIN_TEST_MODE.get ((Tests.win 1 0 none id).rd (WIN_TEST 0 0) &&& ~~~(beMask 1 &&& 0x0FFF0003) ||| (3 &&& (beMask 1 &&& 0x0FFF0003))) = 3) ∧
    (Tests.win 1 0 none id).inTest 0 (otherWin .v) = false ∧ (Tests.win 0 0 none id).pwr 0 = 0 ∧ (Tests.win 1 0 none id).pwr 0 ≠ 0 ∧
    (Tests.win 1 0 none (fun x => { x with test := 1 })).inTest 0 (otherWin .i) = true ∧
    (let s : State := { Tests.win 1 0 none (fun x => { x with test := 3, step := 3 }) with tick := 31 }
     (s.win 0 .v).test = 3 ∧ (s.win 0 .v).step + 1 = 4 ∧ s.tick + 1 = (s.win 0 .v).autoStart + 8 * 4) ∧
    (let s := ({ Tests.win 1 0 none (fun x => { x with test := 3, step := 2 }) with tick := 23 } : State).setLatch 0 .v true true
     (s.win 0 .v).test = 3 ∧ (s.win 0 .v).step + 1 = 3 ∧ s.tick + 1 = (s.win 0 .v).autoStart + 8 * 3 ∧ s.autoResult 0 .v 3 = 2 ∧
      (∀ i, i < 3 - 1 → s.fld (WIN_TEST_STAT 0 0) ⟨8 + 2 * i, 2⟩ ≠ 2)) := by decide +kernel
/-- Channel 511 with a state of its pulse generator. -/
def Tests.pg (x : PgSt) : State := Tests.up.updChan 511 (fun c => { c with pg := x })
def Tests.pgRun (marker : Bool) : PgRun := ⟨false, marker, 0, false, 1, 2, 3, 4, 1, ⟨1, none⟩, none, [], none⟩
theorem test_hyp_PulseRuns : Tests.up.tileUp 3 = true ∧ (Tests.up.chan 511).pg.run = none ∧ ((Tests.pg { run := some (Tests.pgRun false) }).chan 511).pg.run ≠ none ∧
    ((Tests.pg { run := some (Tests.pgRun false) }).chan 511).pg.run = some (Tests.pgRun false) ∧ (Tests.pg { run := some (Tests.pgRun false) }).due ⟨1, none⟩ = true ∧
    (let s := (Tests.pg { run := some (Tests.pgRun true) }).updChan 480 (fun c => { c with trk := { c.trk with marks := 1, marksNow := 0 } })
     (s.chan 511).pg.run = some (Tests.pgRun true) ∧ (Tests.pgRun true).t0 = none ∧ (Tests.pgRun true).due.notBefore ≤ s.tick + 1 ∧ s.markerEdge (s.feedTrack 511) 0 = true) ∧
    (let r := { Tests.pgRun false with t0 := some 0 }
     r.marker = false ∧ r.unit = false ∧ r.stopAt = none ∧ r.t0 = some 0 ∧ 0 + 40 ≤ r.steps r.delay + 1 * r.dist ∧
     ((Tests.pg { run := some r }).chan 511).pg.run = some r) := by decide +kernel
theorem test_hyp_TripRelease : Tests.up.bit (PG_STAT 511) fPG_STAT_TRIPPED = false ∧
    (let s := Tests.up.setBit (PG_STAT 511) fPG_STAT_TRIPPED true
     s.bit (PG_STAT 511) fPG_STAT_TRIPPED = true ∧ s.tripInputs 511 (40 * s.tick) = 0) ∧
    (let s := ((Tests.win 1 1 none id).setLatch 0 .v true true).setBit (PG_STAT 0) fPG_STAT_TRIPPED true
     s.bit (PG_STAT 0) fPG_STAT_TRIPPED = true ∧ s.tripInputs 0 (40 * s.tick) ≠ 0 ∧ s.quietNow 0 (40 * s.tick + 39) = false) ∧
    (let s := (Tests.up.setBit (PG_STAT 511) fPG_STAT_TRIPPED true).wl (PG_REL_CTL 511) (fPG_REL_CTL_HOLDOFF.put (fPG_REL_CTL_AUTO.put 0 1) 1)
     s.lbit (PG_REL_CTL 511) fPG_REL_CTL_AUTO = true ∧ s.quietNow 511 (40 * s.tick + 39) = true ∧
     max 1 (s.lfld (PG_REL_CTL 511) fPG_REL_CTL_HOLDOFF) ≤ (s.chan 511).pg.quiet + 1 ∧ (s.chan 511).pg.exhausted = false) ∧
    Tests.up.lbit (PG_REL_CTL 511) fPG_REL_CTL_AUTO = false ∧
    (let s (x : PgSt) := (Tests.pg x).setBit (PG_STAT 511) fPG_STAT_TRIPPED true
     ((s { release := some (0, true) }).chan 511).pg.release = some ((s {}).tick, true) ∧ (s {}).tripInputs 511 (40 * (s {}).tick) = 0 ∧
     ((s { release := some (0, true) }).chan 511).pg.syncCause = false ∧
     ((s { release := some (0, true), syncCause := true }).chan 511).pg.syncCause = true ∧
     (s {}).bit (PG_STAT 511) fPG_STAT_TRIPPED = true ∧ ((s {}).lfld (WIN_BLANK_CTL 511) fWIN_BLANK_CTL_SRC).testBit 3 = false) := by
  decide +kernel

/-- Channel 0 of a cluster in power state p with a track state and its track's own data. -/
def Tests.trk (p st : Nat) (x : TrackSt) : State := ((Tests.at p).setTrState 0 st).setTrk 0 x
/-- A segment of 64 samples; with wait, a wait segment; with code, a bad one. -/
def Tests.seg (wait : Bool) (code : Nat) : Seg :=
  { segOf 4096 0 [] with wait, code, len := 64, a := 0, b := 2 ^ 31 }
def Tests.play (wait : Bool) : Play := ⟨Tests.seg wait 0, 0, 0, 0, 0, 0, 63, false⟩
theorem test_hyp_TrackArming : Tests.up.tileUp 3 = true ∧ Tests.up.biased 511 = false ∧
    (Tests.trk 2 trStopped {}).biased 0 = true ∧ (Tests.trk 2 trStopped {}).trState 0 = trStopped ∧
    (Tests.trk 2 trStopped {}).fld (SEQ_TABLE_LEN 0) fSEQ_TABLE_LEN_TABLE_LEN = 0 ∧
    (let s := (Tests.trk 2 trStopped {}).setFld (SEQ_TABLE_LEN 0) fSEQ_TABLE_LEN_TABLE_LEN 4
     s.biased 0 = true ∧ s.trState 0 = trStopped ∧ s.fld (SEQ_TABLE_LEN 0) fSEQ_TABLE_LEN_TABLE_LEN = 4 ∧
     s.fld (SEQ_START_IDX 0) fSEQ_START_IDX_START_IDX = 0 ∧ (s.rd (SEQ_TABLE_BASE 0)).toNat = 0 ∧ fSEQ_CTL_STREAM.get (s.lv (SEQ_CTL 0)) = 0) ∧
    (Tests.trk 2 trArming {}).trState 0 = trArming ∧ (Tests.trk 3 trReady {}).trState 0 = trReady ∧ (Tests.trk 3 trReady {}).biased 0 = true ∧
    ((Tests.trk 3 trReady {}).trk 0).startPend = none ∧ (Tests.trk 2 trStopped {}).seqUp 0 = true ∧
    (let s := Tests.trk 2 trArming { len := 1 }; (s.queuedSeg 0 (s.trk 0) 0).isSome = true) ∧
    (let s : State := { Tests.trk 2 trArming { len := 1 } with hub := { Tests.up.hub with stackBad := true } }
     s.seqUp 0 = false ∧ s.queuedSeg 0 (s.trk 0) 0 = none) := by decide +kernel
theorem test_hyp_TrackCommands : (Tests.trk 2 trStopped {}).trState 0 = trStopped ∧ (Tests.trk 3 trPlaying {}).trState 0 ≠ trStopped ∧
    (let x := (Tests.trk 3 trPlaying { len := 4096 }).trk 0; 4095 < x.len ∧ x.inRing 0xFFF = false) ∧
    ¬(0 < ((Tests.trk 3 trPlaying {}).trk 0).len) ∧ ((Tests.trk 3 trPlaying {}).trk 0).stream = false ∧
    (let s := Tests.trk 3 trUnderrun { stream := true, last := 3 }
     (s.trk 0).stream = true ∧ s.trState 0 = trUnderrun ∧ 0 ≤ s.fld (SEQ_CREDIT 0) fSEQ_CREDIT_OWED ∧
     s.fld (SEQ_CREDIT 0) fSEQ_CREDIT_OWED < 1 ∧ (s.trk 0).paid = false ∧ (s.trk 0).resumeAt = none ∧ (s.trk 0).creditFrom = none ∧ s.fld (SEQ_CREDIT 0) fSEQ_CREDIT_CREDIT ≤ (s.trk 0).last + 1 - (s.trk 0).first) ∧
    ((Tests.trk 3 trPlaying { stream := true }).trk 0).stream = true ∧
    (let s := Tests.trk 3 trReady {}
     s.biased 0 = true ∧ s.trState 0 = trReady ∧ (s.trk 0).startPend = none ∧ s.biased 32 = false) ∧
    (0x80000001 : Word).getLsbD 31 = true ∧ Tests.up.tileUp (15 / 4) = true := by decide +kernel
theorem test_hyp_TrackEvents :
    (let t (code : Nat) (w : Bool) := Tests.trk 3 trReady { startPend := some ⟨1, none⟩, queued := [Tests.seg w code] }
     (∀ w code, (((t code w).trk 0).startPend = some ⟨1, none⟩) ∧ ((t code w).trk 0).inRing (Tests.seg w code).idx = false) ∧
     (let r := Tests.trk 3 trReady { startPend := some ⟨1, none⟩, queued := [Tests.seg false 0], stream := true, last := 3 }
      (r.trk 0).inRing (Tests.seg false 0).idx = true ∧ r.creditAt 0 (r.tick + 1) = 0) ∧
     (t 0 false).trState 0 = trReady ∧ (t 0 false).due ⟨1, none⟩ = true ∧ (t 0 false).stopsNext 0 = false ∧ ((t 0 false).trk 0).lost = false ∧
     (t 0 false).queuedSeg 0 ((t 0 false).trk 0) ((t 0 false).trk 0).startIdx = some (Tests.seg false 0) ∧ (Tests.seg false 0).code = 0 ∧
     (t 2 false).queuedSeg 0 ((t 2 false).trk 0) ((t 2 false).trk 0).startIdx = some (Tests.seg false 2) ∧ (Tests.seg false 2).code ≠ 0 ∧
     (t 0 true).queuedSeg 0 ((t 0 true).trk 0) ((t 0 true).trk 0).startIdx = some (Tests.seg true 0) ∧ (Tests.seg true 0).wait = true ∧
     atOrAfter (t 0 true).nextStamp ((t 0 true).startPlay (Tests.seg true 0) ⟨1, none⟩).start = false) ∧
    (let s := Tests.trk 3 trReady { startPend := some ⟨1, none⟩, stopAt := some 1, lost := true }
     s.stopsNext 0 = true ∧ (s.trk 0).lost = true) ∧ Tests.up.dma = [] ∧
    (let t (c : Choice) := Tests.trk 3 trPlaying { play := some (Tests.play false), choice := some c }
     ∀ c, ((t c).trk 0).choice = some c ∧ ((t c).trk 0).play = some (Tests.play false)) ∧
    (Tests.trk 3 trPlaying {}).trState 0 ≠ trUnderrun ∧
    (let c : Choice := ⟨some (Tests.seg false 0), 5, true, some (Tests.play false)⟩
     let s := Tests.trk 3 trUnderrun { play := some (Tests.play false), choice := some c }
     (s.trk 0).choice = some c ∧ s.trState 0 = trUnderrun ∧ c.play = some (Tests.play false) ∧ (Tests.play false).seg.code = 0 ∧
     s.creditAt 0 (s.tick + 1) = 0 ∧ (s.trk 0).creditFrom = none ∧ (s.trk 0).resumeAt = none) ∧ (Tests.play false).seg.wait = false ∧
    (∀ u, (⟨some (Tests.seg false 0), 5, u, some (Tests.play false)⟩ : Choice).underrun = u) ∧
    (let s := Tests.trk 3 trWaiting { play := some (Tests.play true) }
     s.trState 0 = trWaiting ∧ (s.trk 0).play = some (Tests.play true) ∧ (Tests.play true).began = false ∧ s.stopsNext 0 = false ∧ atOrAfter s.nextStamp (Tests.play true).start = true ∧
     (s.trk 0).inRing (Tests.play true).seg.idx = false ∧ atOrAfter s.nextStamp (2 ^ 62) = false) ∧
    (let s := Tests.trk 3 trUnderrun { resumeAt := some (1, 0) }
     s.trState 0 = trUnderrun ∧ (s.trk 0).resumeAt = some (s.tick + 1, 0) ∧ s.stopsNext 0 = false) ∧
    (let s := Tests.trk 3 trPlaying { play := some (Tests.play false), hostReq := some ⟨1, 0, some 0⟩ }
     (s.trk 0).hostReq = some ⟨1, 0, some 0⟩ ∧ (s.trk 0).play = some (Tests.play false) ∧ (s.trk 0).choice = none ∧ 0 ≤ s.tick ∧ atOrAfter s.now 0 = true ∧
     (s.queuedSeg 0 (s.trk 0) 1).isSome = true) ∧
    (let s (k : Nat) := Tests.trk 3 trPlaying { play := some { Tests.play false with i := 3, seg := { Tests.seg false 0 with kind := k } } }
     (∀ k, ((s k).trk 0).play = some { Tests.play false with i := 3, seg := { Tests.seg false 0 with kind := k } }) ∧
     (s 0).trState 0 = trPlaying ∧ ((s 0).trk 0).stopAt ≠ some ((s 0).tick + 1) ∧ (s 0).seqUp 0 = true ∧ ((s 0).trk 0).staged = [] ∧
     (Tests.seg false 0).head = none ∧ ¬((Tests.seg false 0).len ≤ 3 + 1) ∧ (Tests.seg false 0).interp = false) ∧
    (let s := Tests.trk 3 trPlaying { play := some (Tests.play false) }
     (Tests.seg false 0).len ≤ (Tests.play false).i + 1 ∧ (s.makeChoice 0 (Tests.play false) (s.tick + 1) s.nextStamp).isSome = true) ∧
    ((Tests.seg false 0).skip < 256 ∧ { Tests.seg false 0 with d := 2 ^ 32 - 1 }.d < 2 ^ 32) ∧
    ((Tests.trk 3 trPlaying { trgEnd := some 1 }).trk 0).trgEnd = some (Tests.up.tick + 1) :=
  ⟨⟨fun w code => ⟨rfl, rfl⟩, by decide +kernel⟩, by decide +kernel, by decide +kernel, fun c => ⟨rfl, rfl⟩, by decide +kernel, by decide +kernel,
    by decide +kernel, fun u => rfl, by decide +kernel, by decide +kernel, by decide +kernel, ⟨fun k => rfl, by decide +kernel⟩, by decide +kernel,
    by decide +kernel, by decide +kernel⟩
/-- Event-lane group 0 of cluster 0 in a state, with its own data. -/
def Tests.grp (p st : Nat) (g : GrpSt) (tick : Nat) : State :=
  { ((Tests.at p).setGrpState 0 st).updGrp 0 (fun _ => g) with tick }
theorem test_hyp_EventLaneCommands : Tests.up.tileUp 3 = true ∧
    (let s := (Tests.grp 2 grDone {} 0).setFld (EVL_GRP_LEN 0 0) fEVL_GRP_LEN_LEN 1
     2 ≤ s.pwr 0 ∧ s.grpState 0 = grDone ∧ s.fld (EVL_GRP_LEN 0 0) fEVL_GRP_LEN_LEN ≠ 0) ∧
    (Tests.grp 2 grPlaying {} 0).grpState 0 ≠ grStopped ∧ (Tests.grp 2 grArming {} 0).grpState 0 = grArming ∧
    (let bad := [(⟨15, true⟩ : PlaneUe), ⟨16, false⟩].filter (fun p => p.plane < 16)
     bad ≠ [] ∧ bad.all (fun p => p.staged) = true) ∧ ([(⟨0, false⟩ : PlaneUe)].all (fun p => !p.staged)) = true ∧ Tests.up.memUp 0 = true ∧
    State.reset.memUp 0 = false ∧ ((Tests.grp 2 grPlaying { stopAt := some 1 } 0).grp 0).stopAt ≠ none ∧ (Tests.grp 2 grReady {} 0).grpState 0 = grReady ∧ 2 ≤ (Tests.grp 2 grReady {} 0).pwr 0 ∧
    (Tests.grp 1 grReady {} 0).pwr 0 < 2 ∧ (Tests.grp 2 grStopped {} 0).grpState 0 = grStopped ∧
    ((Tests.grp 2 grUnderrun { mode := 2 } 0).grp 0).mode = 2 ∧ ((Tests.grp 2 grPlaying { mode := 0 } 0).grp 0).mode ≠ 2 := by decide +kernel
/-- Cluster 0 in IDLE whose lane 0 is owned by channel 0 (an input or not), its group playing, the lane with its own data. -/
def Tests.lane (input : Bool) (x : LaneSt) : State :=
  let s := (Tests.grp 2 grPlaying {} 0).setBit (CLU_BANK_STAT 0) fCLU_BANK_STAT_ACTIVE_VALID true
  let s : State := { s with banks := s.banks.writeLE (bankBase 0 0 + 0xA80) (if input then 65 else 1) 4 }
  s.updLane 0 (fun _ => x)
theorem test_hyp_EventLaneEvents :
    (let s (st : Nat) (g : GrpSt) : State := { Tests.grp 2 st g 0 with phase := { Tests.up.phase with p := 2 ^ 64 - 1, delta := 2 ^ 64, next := 2 ^ 65 - 1 } }
     let c := (s 0 {}).nextStamp / 2 ^ 32 % 2 ^ 32
     c = 1 ∧ c ≠ (s 0 {}).now / 2 ^ 32 % 2 ^ 32 ∧ ((s 0 {}).grp 0).c0 = none ∧ (Tests.up.nextStamp / 2 ^ 32 % 2 ^ 32 = Tests.up.now / 2 ^ 32 % 2 ^ 32) ∧
     (s 0 {}).boundaryTaken 0 c = false ∧ (s grPlaying { c0 := some 0, cyc := 1 }).boundaryTaken 0 c = true ∧
     (let r := s grReady { c0 := some 1, len := 1, fixed := some ⟨1, 0, []⟩ }
      (r.grp 0).lost = false ∧ r.grpState 0 = grReady ∧ (r.grp 0).c0 = some c ∧ (r.grp 0).mode ≠ 2 ∧ (r.grp 0).len ≠ 0 ∧ (r.grp 0).fixed = some ⟨1, 0, []⟩ ∧ r.boundaryTaken 0 c = false) ∧
     (let r := s grPlaying { c0 := some 1, len := 1, v := 511 }
      r.grpState 0 = grPlaying ∧ (r.grp 0).c0 = some 1 ∧ (r.grp 0).mode = 0 ∧ r.boundaryTaken 0 c = false ∧ c = ((r.grp 0).cyc + 1) % 2 ^ 32 ∧ 512 * (r.grp 0).len ≤ (r.grp 0).v + (c + 2 ^ 32 - (r.grp 0).cyc) % 2 ^ 32) ∧
     (let r := s grPlaying { c0 := some 1, len := 1, v := 511, mode := 2 }
      (r.grp 0).mode = 2 ∧ r.boundaryTaken 0 c = false ∧ c = ((r.grp 0).cyc + 1) % 2 ^ 32 ∧ (r.grp 0).v / 512 ≠ ((r.grp 0).v + (c + 2 ^ 32 - (r.grp 0).cyc) % 2 ^ 32) / 512 ∧ r.blockCreditAt 0 (r.tick + 1) = 0)) ∧
    (let s := Tests.lane false { edges := [⟨0, true, .strobe true⟩] }
     (s.lane 0).edges.find? (fun e => e.second == true && atOrAfter s.nextStamp (e.stamp % 2 ^ 64)) = some ⟨0, true, .strobe true⟩ ∧
     s.lanePlays 0 = true ∧ (s.grp 0).stopAt = none ∧
     (s.lane 0).edges.find? (fun e => e.second == false && atOrAfter s.nextStamp (e.stamp % 2 ^ 64)) = none ∧
     ((Tests.lane false {}).updGrp 0 (fun _ => { stopAt := some 1 })).tick + 1 = 1) ∧
    (let s := Tests.lane true {}
     399 < 400 ∧ s.laneOwned 0 = true ∧ s.laneInput 0 = true ∧ (s.lane 0).swapWait = none ∧ s.pwr 0 ≠ 0 ∧ (Tests.lane false {}).laneInput 0 = false) := by
  decide +kernel
theorem test_hyp_EventLaneEvents_edges : (∀ k ∈ [EdgeKind.level true, .watchOn, .watchOff],
      let s := Tests.lane false { edges := [⟨0, true, k⟩], watch := some 0, seen := some 0 }
      (s.lane 0).edges.find? (fun e => e.second == true && atOrAfter s.nextStamp (e.stamp % 2 ^ 64)) = some ⟨0, true, k⟩ ∧
      s.lanePlays 0 = true ∧ true ≠ (s.lane 0).level ∧ (s.lane 0).watch.isSome = true) := by decide +kernel
/-- DMA channel 15 at instruction pc of a program of len instructions at 0, in a state, with the words of that instruction. -/
def Tests.dma (st pc len : Nat) (ws : List Nat) (x : DmaSt) : State :=
  let s := (((Tests.up.setFld (DMA_CH_STAT 15) fDMA_CH_STAT_STATE st).setFld (DMA_CH_STAT 15) fDMA_CH_STAT_PC pc).setFld
    (DMA_CH_PROG_LEN 15) fDMA_CH_PROG_LEN_LEN len).setDma 15 x
  { s with seqMem := ws.zipIdx.foldl (fun m w => m.writeLE (16 * pc + 4 * w.2) w.1 4) s.seqMem }
/-- A MOVE of a line within sequence memory from 0 to 64, with a request or a barrier, and lines written. -/
def Tests.mv (reqEn barrier : Bool) (lines : Nat) : MoveSt := ⟨0, 0, barrier, reqEn, 0, 0, 0, 0, 0, 64, 64, 0, lines, [], [], false⟩
theorem test_hyp_DmaCommands : (Tests.dma dmRunning 0 1 [] {}).dmaActive 15 = true ∧ (Tests.dma dmStopped 0 1 [] {}).dmaActive 15 = false ∧
    (Tests.dma dmStopped 0 1 [] {}).busStop = false ∧ 0 < (Tests.dma dmStopped 0 1 [] {}).fld (DMA_CH_PROG_LEN 15) fDMA_CH_PROG_LEN_LEN ∧
    (Tests.dma dmDone 0 0 [] {}).fld (DMA_CH_PROG_LEN 15) fDMA_CH_PROG_LEN_LEN = 0 ∧ (Tests.dma dmStopped 0 1 [] {}).dmaState 15 = dmStopped ∧
    (Tests.dma dmStopped 0 1 [] {}).fld (DMA_CH_STAT 15) fDMA_CH_STAT_CODE ∉ [1, 2, 0x1A] ∧
    (Tests.dma dmIdle 0 1 [] {}).dmaState 15 ≠ dmStopped ∧
    (let m : MoveSt := { Tests.mv false false 0 with buf := [(64, List.replicate 64 0)] }
     let s := Tests.dma dmRunning 0 1 [] { move := some m }
     s.dmaActive 15 = true ∧ (s.dmaCh 15).move = some m ∧ m.buf ≠ []) ∧ (Tests.dma dmRunning 0 1 [] {}).dmaCh 15 = {} ∧
    (Tests.dma dmStopped 0 1 [] {}).dmaPast 15 0 = false ∧ (Tests.dma dmStopped 1 1 [] {}).dmaPast 15 1 = true := by decide +kernel
theorem test_hyp_DmaExecutes : (Tests.dma dmRunning 0 2 [1, 0, 64, 64] {}).dmaAt 15 1 ∧
    (let s := Tests.dma dmRunning 0 2 [1, 0, 64, 64] {}; s.dmaCheck 15 (s.dmaMoveAt 15) = 0) ∧
    (let s := Tests.dma dmRunning 0 2 [0x80000001, 0, 64, 64] {}; s.dmaAt 15 1 ∧ s.dmaCheck 15 (s.dmaMoveAt 15) = 0x11) ∧
    (let s (m : MoveSt) := Tests.dma dmRunning 0 2 [] { move := some m }
     ((s (Tests.mv true false 0)).dmaCh 15).move = some (Tests.mv true false 0) ∧ (s (Tests.mv true false 0)).dmaActive 15 = true ∧
     (Tests.mv true false 0).lines < (Tests.mv true false 0).total ∧ (s (Tests.mv true false 0)).tokenWait (Tests.mv true false 0) = true ∧
     ((s (Tests.mv false true 0)).dmaCh 15).move = some (Tests.mv false true 0) ∧ (Tests.mv false true 0).lines < (Tests.mv false true 0).total ∧
     (Tests.mv false true 0).src + (Tests.mv false true 0).len ≤ (Tests.mv false true 0).dst ∧
     (s (Tests.mv false true 0)).dmaPc 15 + 1 < (s (Tests.mv false true 0)).fld (DMA_CH_PROG_LEN 15) fDMA_CH_PROG_LEN_LEN ∧
     (s (Tests.mv false true 0)).tokenWait (Tests.mv false true 0) = false ∧ (s (Tests.mv false true 0)).dmaGranted 0x8000 15 = true ∧
     ((s (Tests.mv false true 0)).setDma 31 { move := some (Tests.mv false true 0) }).dmaActive 31 = false ∧
     (let two := ((s (Tests.mv false true 0)).setFld (DMA_CH_STAT 14) fDMA_CH_STAT_STATE dmRunning).setDma 14 { move := some (Tests.mv false true 0) }
      two.dmaGranted 0xC000 14 = true ∧ two.dmaGranted 0xC000 15 = false ∧ two.dmaActive 14 = true ∧ two.tokenWait (Tests.mv false true 0) = false) ∧
     (let far : MoveSt := { Tests.mv false true 0 with dsp := 2 }
      far.lines < far.total ∧ (s far).host.linkUp = false ∧ (s far).tokenWait far = false ∧
      ∀ up rt, ({ s far with host := { (s far).host with linkUp := up, retraining := rt } } : State).host.retraining = rt) ∧
     (Tests.mv false true 1).total ≤ (Tests.mv false true 1).lines ∧ (Tests.mv false true 0).shuf ≠ 2 ∧ (Tests.mv false true 0).ssp = 0 ∧
     (let bad : State := { s (Tests.mv false true 0) with hub := { (s (Tests.mv false true 0)).hub with stackBad := true } }
      bad.hub.stackBad = true ∧ bad.dmaGranted 0x8000 15 = true ∧ (bad.dmaCh 15).move = some (Tests.mv false true 0)) ∧
     (let hostBar : MoveSt := { Tests.mv false true 1 with dsp := 2 }
      ((s hostBar).dmaCh 15).move = some hostBar ∧ hostBar.total ≤ hostBar.lines ∧ (s hostBar).dmaActive 15 = true) ∧
     (let r := Tests.dma dmRunning 0 2 [0x11, 0, 64, 64] { skip := 64 }
      r.dmaAt 15 1 ∧ r.dmaCheck 15 (r.dmaMoveAt 15) = 0 ∧ (r.dmaMoveAt 15).total ≤ (r.dmaCh 15).skip / 64 ∧ (r.dmaMoveAt 15).dsp ≠ 2)) ∧
    (let s (x : DmaSt) := Tests.dma dmRunning 3 4 [2 + 16 * 2, 0, 0, 0] x
     (s {}).dmaAt 15 2 ∧ (s {}).dmaPc 15 < (s {}).fld (DMA_CH_PROG_LEN 15) fDMA_CH_PROG_LEN_LEN ∧ bits ((s {}).dmaWord 15 0) 4 12 < (s {}).dmaPc 15 ∧
     ((s {}).dmaCh 15).loop = none ∧ (s {}).dmaWord 15 3 ≠ 1 ∧ (Tests.dma dmRunning 3 4 [2 + 16 * 2, 0, 0, 1] {}).dmaWord 15 3 = 1 ∧ (s { loop := some ⟨3, 2, 0, 0, 0⟩ }).dmaAt 15 2 ∧
     ((s { loop := some ⟨3, 2, 0, 0, 0⟩ }).dmaCh 15).loop = some ⟨3, 2, 0, 0, 0⟩ ∧ (s { loop := some ⟨3, 2, 0, 0, 0⟩ }).dmaPc 15 = 3 ∧
     (s { loop := some ⟨1, 0, 0, 0, 0⟩ }).dmaAt 15 2 ∧ ((s { loop := some ⟨1, 0, 0, 0, 0⟩ }).dmaCh 15).loop = some ⟨1, 0, 0, 0, 0⟩) ∧
    (let s := Tests.dma dmRunning 0 4 [2, 0, 0, 0] {}; s.dmaAt 15 2 ∧ s.dmaPc 15 ≤ bits (s.dmaWord 15 0) 4 12) ∧
    (∀ k : Fin 3, let s := Tests.dma dmRunning 0 4 [3 + 16 * k, 0, 0, 0] {}
     s.dmaAt 15 3 ∧ bits (s.dmaWord 15 0) 4 2 = k ∧ bits (s.dmaWord 15 0) 6 2 = 0 ∧ bits (s.dmaWord 15 0) 14 18 = 0 ∧ s.dmaWord 15 3 = 0 ∧
     bits (s.dmaWord 15 0) 8 6 = 0 ∧ s.dmaWord 15 1 = 0 ∧ s.dmaWord 15 2 = 0) ∧
    (let s (w : WaitFor) := Tests.dma dmWaiting 0 4 [] { wait := some w }
     ((s (.event 63)).dmaCh 15).wait = some (.event 63) ∧ ((s (.event 63)).setFld (DMA_EVT_CNT 63) fDMA_EVT_CNT_COUNT 1).fld (DMA_EVT_CNT 63) fDMA_EVT_CNT_COUNT ≠ 0 ∧
     (∀ x < 15, ((s (.event 63)).dmaCh x).wait ≠ some (.event 63)) ∧ ((s .kick).dmaCh 15).wait = some .kick ∧
     ((s .kick).setFld (DMA_CH_KICKS 15) fDMA_CH_KICKS_KICKS 1).fld (DMA_CH_KICKS 15) fDMA_CH_KICKS_KICKS ≠ 0 ∧
     ((s (.stamp 0)).dmaCh 15).wait = some (.stamp 0) ∧ atOrAfter (s (.stamp 0)).now 0 = true) ∧
    (∀ k : Fin 4, let s := Tests.dma dmRunning 0 4 [4 + 16 * k + 65536 * 31, 0, 0, 0] {}
     s.dmaAt 15 4 ∧ bits (s.dmaWord 15 0) 8 8 = 0 ∧ bits (s.dmaWord 15 0) 25 7 = 0 ∧ s.dmaWord 15 2 = 0 ∧ s.dmaWord 15 3 = 0 ∧
     bits (s.dmaWord 15 0) 4 4 = k ∧ bits (s.dmaWord 15 0) 16 9 = 31 ∧ s.tileUp (31 / 8) = true ∧ s.tileUp (31 / 128) = true ∧
     64 ≤ ((s.wr (APT_RING_LEN 31) 64).rd (APT_RING_LEN 31)).toNat) ∧
    (let s := Tests.dma dmRunning 0 1 [15, 0, 0, 0] {}
     s.dmaAt 15 15 ∧ bits (s.dmaWord 15 0) 4 28 = 0 ∧ s.dmaWord 15 1 = 0 ∧ s.dmaWord 15 2 = 0 ∧ s.dmaWord 15 3 = 0) := by
  unfold State.dmaAt
  refine ⟨?_, ?_, ?_, ?_, ?_, ?_, ?_, ?_, ?_, ?_⟩ <;> decide +kernel
theorem test_hyp_ProgramEnds : let s (w : List Nat) (x : DmaSt) := Tests.dma dmRunning 1 2 w x
    (s [] {}).fld (DMA_CH_PROG_LEN 15) fDMA_CH_PROG_LEN_LEN ≤ (s [] {}).dmaPc 15 + 1 ∧
    ((s [] { move := some (Tests.mv false true 1) }).dmaCh 15).move = some (Tests.mv false true 1) ∧ (s [] { move := some (Tests.mv false true 1) }).dmaActive 15 = true ∧
    (s [] { move := some (Tests.mv false false 0) }).dmaGranted 0x8000 15 = true ∧ (Tests.mv false false 0).total ≤ (Tests.mv false false 0).lines + 4 ∧ (s [2, 0, 0, 1] {}).dmaAt 15 2 ∧
    bits ((s [2, 0, 0, 1] {}).dmaWord 15 0) 4 12 < (s [2, 0, 0, 1] {}).dmaPc 15 ∧ ((s [2, 0, 0, 1] {}).dmaCh 15).loop = none ∧
    (s [2, 0, 0, 1] {}).dmaWord 15 3 = 1 ∧
    (∀ k : Fin 4, let t := s [4 + 16 * k + 65536 * 31, 0, 0, 0] {}
     t.dmaAt 15 4 ∧ bits (t.dmaWord 15 0) 8 8 = 0 ∧ bits (t.dmaWord 15 0) 25 7 = 0 ∧ t.dmaWord 15 2 = 0 ∧ t.dmaWord 15 3 = 0 ∧
     bits (t.dmaWord 15 0) 4 4 = k ∧ bits (t.dmaWord 15 0) 16 9 < 32) := by unfold State.dmaAt; decide +kernel

/-- The references given, a session (or none) in a state, and the tick before period `pos` of a step. -/
def Tests.sess (x : SessSt) (st pos : Nat) : State :=
  { (((Tests.up.wr CAL_REFV 3000000000).wr CAL_REFR 1000000000).setFld CAL_SESS_STAT fCAL_SESS_STAT_STATE st) with
    sess := x, tick := 4000000 + pos - 1 }
/-- Thirteen readings of a half: half of the range for the tile's reference, a burden reading. -/
def Tests.half : List Int := [700000000, 1, 2, 3, 4, 5, 6, 700000000, 1, 0, 0, 1]
/-- A slice's measurement of quad 127. -/
def Tests.meas (sl : Nat) (bad : Bool) (taps : List Int) : SliceMeas :=
  ⟨127, sl, taps, 2 ^ 30, 2 ^ 30, 0, 0, 0, bad, false⟩
theorem test_hyp_CalibrationSessions : (let s := Tests.sess {} 0 1
      s.inSession = false ∧ s.rd CAL_REFV ≠ 0 ∧ s.rd CAL_REFR ≠ 0 ∧ s.wtrim = none) ∧ State.reset.rd CAL_REFV = 0 ∧
    (Tests.sess { tiles := 1, any := true } 1 1).inSession = true ∧ (Tests.sess {} 0 1).stepPos ≠ 0 ∧
    (let s := Tests.sess { tiles := 1, quad := some 31 } 2 0
     s.stepPos = 0 ∧ s.sess.quad = some 31 ∧ s.fld CAL_SESS_STAT fCAL_SESS_STAT_TILE = 0 ∧ s.sess.tiles &&& (15 - 2 ^ 0) = 0 ∧ s.sess.bad = false ∧
     (Tests.sess { tiles := 9, quad := some 31 } 2 0).sess.tiles &&& (15 - 2 ^ 0) ≠ 0 ∧
     ∀ k : Fin 4, (halfCell (s.rd CAL_REFV).toNat (s.rd CAL_REFR).toNat Tests.half k).isSome = true) ∧
    (let s := Tests.at 1
     s.pwr 0 ≠ 0 ∧ s.inTest 0 .v = false ∧ s.inTest 0 .i = false ∧ s.inSession = false ∧ s.wtrim = none ∧ (Tests.at 0).pwr 0 = 0) ∧
    (let s : State := { Tests.at 1 with tick := 255, wtrim := some ⟨0, 1, 0, false⟩ }
     s.wtrim = some ⟨0, 1, 0, false⟩ ∧ s.tick + 1 = 0 + 256) ∧
    (let r : Ramp := ⟨CAL_BOARD_GAIN 511 0, true, 0, 256, 255, 1⟩
     let s : State := { Tests.up with ramps := [r] }
     s.ramps = [r] ∧ r.next ≤ s.tick + 1 ∧ CAL_BOARD_GAIN 0 0 ≤ r.addr ∧ r.addr < CAL_BOARD_GAIN 512 0 ∧
     ¬(CAL_BOARD_GAIN 0 0 ≤ QUAD_SL_GAIN 127 14 ∧ QUAD_SL_GAIN 127 14 < CAL_BOARD_GAIN 512 0)) ∧
    (∀ r ∈ ({ Tests.up with ramps := [⟨4, true, 0, 256, 0, 2⟩] } : State).ramps, Tests.up.tick + 1 < r.next) ∧
    (let s := Tests.up.setFld (QUAD_SLICE_MAP 127) (mapField 2) 4
     s.tileUp (127 / 32) = true ∧ s.perm 127 2 = 4 ∧ s.sliceFailed 127 (12 + 2) = false ∧
     (s.setFld (QUAD_SLICE_MAP 127) (mapField 2) 3).perm 127 2 = 3) ∧
    Tests.up.sessionReading = none ∧ ((Tests.sess { tiles := 1, quad := some 31 } 2 1000000).sessionReading).isSome = true := by decide +kernel
theorem test_hyp_trimTaps (s : State) (m : TrimMeas) (h : m.hi.1 = 32) : s.tapOk (4, 24, -32, 31) 0 m.hi.1 = false := by
  simp [State.tapOk, h]
/-- Quad 127 rotates, at period `pos` of a step of lane 1, its kinds as given. -/
def Tests.welt (x : QuadSt) (pos : Nat) : State := (Tests.sess {} 0 pos).setQuad 127 { x with rotating := true }
theorem test_hyp_WeltRotation : (Tests.welt {} 1).stepPos ≠ 0 ∧ (Tests.welt {} 1).stepPos ≠ 256 ∧ (Tests.welt {} 0).stepPos = 0 ∧
    (Tests.welt {} 0).quad.map (·.1) = [(127 : Quad)].map (·.val) ∧ (Tests.welt {} 0).inSession = false ∧ (Tests.welt {} 0).sess.quad = none ∧
    (Tests.welt {} 256).stepPos = 256 ∧ (Tests.welt {} 3200256).stepPos = 3200256 ∧ (Tests.welt {} 3200512).stepPos = 3200512 ∧
    (let s := Tests.welt { i := { serve := 1 } } 3200000
     s.rotatingQuads = [127] ∧ s.stepLane = 1 ∧ s.stepPos = 3200000 ∧ ((s.quadSt 127).kind 2).serve = s.stepLane ∧ s.sliceFailed 127 5 = false ∧
     (s.quadSt 127).restored.testBit 2 = false ∧ s.calibrating 127 5 = true) ∧
    (let s := (Tests.welt {} 3500448).setFld (QUAD_SLICE_MAP 127) (mapField 0) 4
     s.weltQuads = [127] ∧ s.stepPos = 3200512 + (if s.stepLane % 2 = 0 then 500000 else 299936) ∧ ((0 : Fin 3).val = 0 ↔ s.stepLane % 2 = 1) ∧
     s.kindRotates 127 0 = true) ∧
    (∀ b, [Tests.meas 5 b []].find? (fun x => x.quad == (127 : Quad).val && x.slice == 5) = some (Tests.meas 5 b [])) ∧
    (Tests.meas 5 true []).endCode = true ∧ (Tests.meas 5 false []).endCode = false ∧
    (Tests.welt {} 3200000).measOk (Tests.meas 5 false []) (2 ^ 30) 0 = false := by decide +kernel
/-- A passing measurement, where the production values of the device are the ideal ones (Config leaves them open). -/
theorem test_hyp_measOk (ht : ∀ a, Config.prodTap a = 0) (hg : Config.prodGain 1910 = 0x40000000) (ho : Config.prodOfs 1910 = 0)
    (hr : (Tests.welt {} 3200000).rd (QUAD_SL_GAIN 127 5) = 0x40000000) (hs : (Tests.welt {} 3200000).rd (QUAD_SL_OFS 127 5) = 0) :
    (Tests.welt {} 3200000).measOk (Tests.meas 5 false (List.replicate 12 0)) (2 ^ 30) 0 = true := by
  have h : ∀ a, (Tests.welt {} 3200000).tap a = 0 := fun a => ht a
  simp only [State.measOk, State.tapOk, ht, h, Tests.meas, show 15 * 127 + 5 = 1910 from rfl, hg, ho, hr, hs]
  decide +kernel
theorem test_hyp_HaltsAndLink_later : (let s : State := { Tests.up.setBit HUB_HALT_STAT fHUB_HALT_STAT_BALL_LOW true with later := [(0, .haltRelease)] }
     s.bit HUB_HALT_STAT fHUB_HALT_STAT_BALL_LOW = true ∧ s.later = [(s.tick, .haltRelease)]) ∧
    (let s := Tests.up.wr HUB_HALT_STAT 2
     (s.rd HUB_HALT_STAT).getLsbD 1 = true ∧ (s.rd HUB_HALT_STAT).getLsbD 3 = false ∧ s.bit HUB_HALT_STAT fHUB_HALT_STAT_BALL_LOW = false ∧
     s.wired 511 = false) ∧ Tests.up.host.retraining = false ∧ Tests.up.hub.perstLow = false ∧
    ({ Tests.up with hub := { Tests.up.hub with perstLow := true } } : State).hub.perstLow = true ∧ Tests.up.host.shut = true ∧
    ({ busMaster := true } : CfgRegs).busMaster = true := by decide +kernel
theorem test_hyp_HaltsAndLink : (let s : State := { Tests.up with host := { Tests.up.host with linkUp := true, memEnable := true } }
      s.host.linkUp = true ∧ s.host.retraining = false ∧ s.host.memEnable = true ∧ s.host.dstate ≠ .d3hot ∧ s.elogRepeats 0x24 Tests.rq.hdr = false) ∧
    State.reset.host.linkUp = false ∧ Tests.up.bit HUB_HALT_STAT fHUB_HALT_STAT_BALL_LOW = false ∧
    ((Tests.up.setBit HUB_HALT_STAT fHUB_HALT_STAT_BALL_LOW true).bit HUB_HALT_STAT fHUB_HALT_STAT_BALL_LOW = true) ∧
    (let s := (Tests.up.setBit PCI_LANE_CFG fPCI_LANE_CFG_AUTO_NARROW true)
     s.bit PCI_LANE_CFG fPCI_LANE_CFG_AUTO_NARROW = true ∧ (s.rd PCI_LINK_STAT).getLsbD (6 + 3) = true ∧
     ((s.setFld PCI_LINK_STAT fPCI_LINK_STAT_LANE_OK 7).rd PCI_LINK_STAT).getLsbD (6 + 3) = false ∧ s.elogRepeats 0x23 Tlp.zero = false ∧
     (s.setBit PCI_LANE_CFG fPCI_LANE_CFG_AUTO_NARROW false).bit PCI_LANE_CFG fPCI_LANE_CFG_AUTO_NARROW = false) ∧
    (let s : State := { Tests.up.setFld PCI_LINK_STAT fPCI_LINK_STAT_WIDTH 4 with host := { Tests.up.host with retraining := true, linkUp := true, partner := 4 } }
     s.host.retraining = true ∧ min (widthOf 12).1 s.host.partner = 2 ∧ 2 < s.fld PCI_LINK_STAT fPCI_LINK_STAT_WIDTH ∧ min (widthOf 6).1 s.host.partner = 0 ∧
     (s.setFld PCI_LINK_STAT fPCI_LINK_STAT_LANE_OK 12).fld PCI_LINK_STAT fPCI_LINK_STAT_LANE_OK = 12) ∧
    ((Tests.up.setBit HUB_HALT_CTL fHUB_HALT_CTL_DOWN_HALT true).bit HUB_HALT_CTL fHUB_HALT_CTL_DOWN_HALT = true) ∧
    (let m : MoveSt := { Tests.mv false false 0 with dsp := 2 }
     let s := Tests.dma dmRunning 0 1 [] { move := some m }
     (s.dmaCh 15).move = some m ∧ m.reqEn = false ∧ s.dmaState 15 = dmRunning ∧
     (let w : MoveSt := { Tests.mv false true 1 with dsp := 2 }; w.barrier = true ∧ w.total ≤ w.lines)) ∧
    (State.reset.host.linkUp = false ∧ min (widthOf (State.reset.fld PCI_LINK_STAT fPCI_LINK_STAT_LANE_OK)).1 4 ≠ 0 ∧
     State.reset.jtag.test.testBit 16 = false ∧ ({ State.reset with jtag := { test := 2 ^ 16 } } : State).jtag.test.testBit 16 = true) ∧
    (let s : State := { Tests.up.setFld SKL_INT_STAT fSKL_INT_STAT_ERR 1 with host := { Tests.up.host with pba := 2 ^ 6, funcMask := true } }
     s.host.pba.testBit 6 = true ∧ s.host.funcMask = true ∧ (s.msixWord 6 3).getLsbD 0 = true ∧
     (let u : State := { (s.wr PCI_VEC_EN_LO 64).setFld SKL_INT_EN fSKL_INT_STAT_ERR 1 with host := { s.host with msix := [(27, 2)] } }
      (u.msixWord 6 3).getLsbD 0 = false ∧ u.vecCond 6 = true) ∧
     (5 : Fin 6).val < s.host.bars.length) := by decide +kernel
/-- The device at a position of the chain, both ports up, with the state of its ports. -/
def Tests.skl (pos : Nat) (x : SklSt) : State :=
  { ((((Tests.up.setBit SKL_CTL fSKL_CTL_EN true).setBit SKL_STAT fSKL_STAT_POS_VALID true).setFld SKL_STAT fSKL_STAT_POS pos).setBit SKL_STAT
      fSKL_STAT_UP_OK true).setBit SKL_STAT fSKL_STAT_DN_OK true with skl := x }
/-- The same before it has a position. -/
def Tests.sklNew : State := (Tests.skl 0 {}).setBit SKL_STAT fSKL_STAT_POS_VALID false
def Tests.hdr (dn : Bool) : SklHdr := ⟨dn, 0, 255, 0, false⟩
theorem test_hyp_SkidlinePorts : State.reset.bit SKL_CTL fSKL_CTL_EN = false ∧ State.reset.portUp false = false ∧ State.reset.portUp true = false ∧
    (let s := State.reset.setBit SKL_CTL fSKL_CTL_POS_SRC true
     s.bit SKL_CTL fSKL_CTL_POS_SRC = true ∧ s.bit SKL_CTL fSKL_CTL_EN = false ∧ s.fld SKL_STAT fSKL_STAT_STRAPS = 0 ∧
     (s.setBit SKL_STAT fSKL_STAT_UP_OK true).portUp false = true ∧ (s.setFld SKL_STAT fSKL_STAT_STRAPS 7).fld SKL_STAT fSKL_STAT_STRAPS ≠ 0) ∧
    (State.reset.setBit SKL_CTL fSKL_CTL_POS_SRC false).bit SKL_CTL fSKL_CTL_POS_SRC = false ∧
    (Tests.skl 0 {}).bit SKL_CTL fSKL_CTL_EN = true ∧ ((Tests.skl 7 {}).setPhState phChain).chained = true ∧
    (Tests.skl 7 {}).portUp true = true ∧ State.reset.jtag.test.testBit 16 = false ∧
    (Tests.skl 0 {}).placed = true ∧ (Tests.skl 0 {}).hubTest = false ∧ (Tests.skl 7 {}).placed = true ∧
    (Tests.skl 7 { missRun := 4294967295 }).part = true ∧ ((Tests.skl 7 {}).setPhState phLocked).phState ≠ phChain ∧
    ({ (Tests.skl 7 {}).setPhState phHoldover with skl := { lost := true } } : State).chained = true ∧
    (let s := (Tests.skl 0 {}).setBit SKL_STAT fSKL_STAT_UP_OK false; s.portUp false = false ∧ s.part = true ∧ s.pos = 0) ∧
    ((Tests.skl 7 {}).setBit SKL_CTL fSKL_CTL_BREAK_HALT true).bit SKL_CTL fSKL_CTL_BREAK_HALT = true ∧
    (let s := (Tests.skl 7 { missRun := 3 }).setPhState phChain
     s.part = true ∧ s.pos ≠ 0 ∧ s.chained = true ∧ s.phase.chainNext = none ∧ s.phState = phChain ∧ 3 ≤ s.skl.missRun) ∧
    (({ Tests.up with tick := 4095 } : State).tick + 1) % 4096 = 0 ∧
    ((Tests.skl 7 {}).setBit SKL_CTL fSKL_CTL_FAULT_PIN true).bit SKL_CTL fSKL_CTL_FAULT_PIN = true ∧
    (Tests.skl 7 {}).bit SKL_CTL fSKL_CTL_FAULT_PIN = false := by decide +kernel
theorem test_hyp_sklGood (dn : Bool) : (Tests.skl 7 {}).sklGood (Tests.hdr dn) ∧ (Tests.skl 7 { rxUp := some 254, rxDn := some 254 }).sklGood (Tests.hdr dn) ∧
    Tests.sklNew.sklGood (Tests.hdr dn) := by
  cases dn
  · refine ⟨⟨by decide +kernel, rfl, rfl, fun q h => ?_⟩, ⟨by decide +kernel, rfl, rfl, fun q h => ?_⟩, by decide +kernel, rfl, rfl, fun q h => ?_⟩ <;> cases h; rfl
  · refine ⟨⟨by decide +kernel, rfl, rfl, fun q h => ?_⟩, ⟨by decide +kernel, rfl, rfl, fun q h => ?_⟩, by decide +kernel, rfl, rfl, fun q h => ?_⟩ <;> cases h; rfl
theorem test_hyp_SkidlineFrames : State.reset.portUp false = false ∧ (Tests.skl 7 {}).part = true ∧ (Tests.skl 7 {}).pos ≠ 0 ∧
    ((Tests.skl 7 {}).setPhState phLocked).phState ≠ phChain ∧ (Tests.skl 7 { lost := true, timeRun := 14 }).skl.lost = true ∧
    (Tests.skl 7 { lost := true, timeRun := 14 }).skl.timeRun < 15 ∧ (Tests.skl 6 {}).pos < 7 ∧ (Tests.hdr true).dn = true ∧
    (5 < (Tests.skl 6 { upSeen := true }).pos ∧ (Tests.skl 6 { upSeen := true }).skl.upSeen = true) ∧ 5 + 1 = (Tests.skl 6 {}).pos ∧
    (Tests.sklNew.part = false ∧ Tests.sklNew.skl.upSeen = false ∧ Tests.sklNew.bit SKL_CTL fSKL_CTL_EN = true ∧
      (Tests.sklNew.setBit SKL_CTL fSKL_CTL_POS_SRC false).bit SKL_CTL fSKL_CTL_POS_SRC = false) ∧
    (let s : State := { Tests.sklNew with skl := { barred := true } }; s.part = false ∧ s.skl.barred = true ∧ s.enumClash (Tests.hdr true) ⟨7, false, false, 0, 0, 0⟩ = false) ∧
    (let s := Tests.skl 7 { master := some Tests.up.nextP }
     (s.skl.master = some s.nextP) ∧ (s.setPhState phChain).phState = phChain ∧ s.skl.out = [] ∧ s.hubTest = false ∧ 7 ≤ 7 ∧ s.skl.upSeen = false ∧ 5 + 1 ≠ s.pos) ∧ Tests.sklNew.skl.barred = false ∧
    (∀ v : Fin 4, (⟨true, 0, 0, v + 1, false⟩ : SklHdr).stomped = false ∧ (Tests.skl 7 {}).portUp true = true) := by decide +kernel

/-- A number as `n` bytes, the most significant first. -/
def Tests.be (n v : Nat) : List Byte := (leBytes v n).reverse
/-- Arguments of 32-bit words. -/
def Tests.args (ws : List Nat) : List Byte := ws.flatMap (fun w => leBytes w 4)
/-- A key: the base point of the curve, and the same as enrolled in a slot. -/
def Tests.key : List Byte := Tests.be 48 p384Gx ++ Tests.be 48 p384Gy
def Tests.enrolled (s : State) (i : Nat) : State := { s with cob := { s.cob with keys := SMap.set none s.cob.keys i (some Tests.key) } }
/-- An unsigned file of one section for cluster 0, its CRC-32C (R43) worked out outside the model. -/
def Tests.file : List Byte := Tests.args [0x46535844, 0x100, 0x5120, 0, 0, 0, 1, 0, 0x50, 0, 0, 0, 0, 0, 0, 0xE861D9DF, 0x40, 16, 1, 0]
/-- A load of the file at 0 to clusters 0 (its tile DOWN, or not) with the file in sequence memory. -/
def Tests.load (cmd : Nat) (ws : List Nat) (bs : List Byte) : State := { Tests.req cmd (Tests.args ws) with seqMem := Mem.writeBytes [] 0 bs }
theorem test_hyp_MailboxRequests : (∀ k : Fin 2, (Tests.req (k + 1) []).mbxReq (k + 1) 0) ∧ (Tests.req 3 (Tests.args [43, 0, 0])).mbxReq 3 12 ∧
    (Tests.req 4 (Tests.args [65535])).mbxReq 4 4 ∧ (Tests.req 0x10 (Tests.args [1, 0, 255])).mbxReq 0x10 12 ∧ (Tests.req 0x28 []).mbxReq 0x28 0 ∧
    (Tests.load 0x20 [0, 80, 65535] Tests.file).mbxReq 0x20 12 ∧ (Tests.load 0x21 [0, 80] Tests.file).mbxReq 0x21 8 ∧
    (Tests.req 0x29 (Tests.args [3] ++ Tests.key)).mbxReq 0x29 100 ∧ (Tests.req 0x2A (Tests.args [3, 3] ++ List.replicate 96 1)).mbxReq 0x2A 104 ∧
    (∀ k : Fin 2, (Tests.req 0x2B (Tests.args [k])).mbxReq 0x2B 4) ∧ (Tests.load 0x30 [0, 80, 0] Tests.file).mbxReq 0x30 12 ∧
    (Tests.req 0x31 []).mbxReq 0x31 0 ∧ (∀ k : Fin 2, (Tests.req (0x40 + k) []).mbxReq (0x40 + k) 0) ∧
    (∀ w : Fin 4, (Tests.req 0x42 (Tests.args [w])).mbxReq 0x42 4) ∧ (Tests.req 0x50 (Tests.args [7])).mbxReq 0x50 4 := by
  unfold State.mbxReq; refine ⟨?_, ?_, ?_, ?_, ?_, ?_, ?_, ?_, ?_, ?_, ?_, ?_, ?_, ?_, ?_⟩ <;> decide +kernel
theorem test_hyp_setPolicyClear : (Tests.req 0x2B (Tests.args [0, 3] ++ List.replicate 96 1)).mbxReq 0x2B 104 := by
  unfold State.mbxReq; decide +kernel
/-- What a store gives is valid (R309), so a restore finds it. -/
theorem test_hyp_calTable (x : CalTable) : (CalTable.sealed x).valid = true ∧
    ({ cal := (some (CalTable.sealed x), none) } : NorSt).calTable = some (CalTable.sealed x) :=
  ⟨CalTable.sealed_valid x, NorSt.calTable_one _ (CalTable.sealed_valid x) _ rfl⟩
theorem test_hyp_MailboxCommands : Tests.up.memOn = true ∧ (0xFC : Nat) < 0x100 ∧ 0x10FC / 4 * 4 < 0x1100 ∧ State.reset.busy = true ∧ Tests.up.busy = false ∧ (Tests.req 1 []).reqWord 0 % 2 ^ 16 ≠ 2 ∧
    ((Tests.req 3 (Tests.args [43, 0, 0])).arg 0 = 43 ∧ (Tests.req 3 (Tests.args [44, 0, 0])).arg 0 % 256 = 44) ∧
    (Tests.req 4 (Tests.args [65535])).arg 0 = 65535 ∧
    (let s := Tests.req 0x10 (Tests.args [1, 0, 255]); s.arg 0 < 2 ∧ 1 ≤ s.arg 2 ∧ s.arg 2 < 256) ∧
    (let s := Tests.load 0x20 [0, 80, 65535] Tests.file
     s.arg 0 % 64 = 0 ∧ s.arg 0 + s.arg 1 ≤ 2 ^ 32 ∧ s.arg 2 < 65536 ∧ s.fileCheck s.polSigned (s.areaBytes (s.arg 0) (s.arg 1)) = 0 ∧
     s.fileCheck true (s.areaBytes (s.arg 0) (s.arg 1)) = 7 ∧ s.fileCheck s.polSigned [] = 6 ∧
     ((fileSections (s.areaBytes (s.arg 0) (s.arg 1))).any (fun x => x.1.testBit 0)) = true ∧ (s.arg 2).testBit 0 = true ∧
     s.tileGone 0 = false ∧ (s.wr PWR_TILE_STAT 0xE).tileGone 0 = true ∧ (Tests.load 0x20 [0, 80, 2] Tests.file).arg 2 = 2) ∧
    (let s := Tests.load 0x21 [0, 80] Tests.file
     s.arg 0 % 64 = 0 ∧ s.arg 0 + s.arg 1 ≤ 2 ^ 23 ∧ s.fileCheck s.polSigned (s.areaBytes (s.arg 0) (s.arg 1)) = 0) ∧
    (Tests.req 0x20 (Tests.args [1, 0, 0])).arg 0 % 64 ≠ 0 ∧
    (let s := Tests.req 0x29 (Tests.args [3] ++ Tests.key)
     s.arg 0 = 3 ∧ onCurve (keyPoint ((s.args.drop 4).take 96)).1 (keyPoint ((s.args.drop 4).take 96)).2 = true ∧ s.polSigned = false ∧
     s.userKey 3 = none ∧ ((Tests.enrolled s 3).userKey 3).isSome = true) ∧
    (let s := Tests.enrolled (Tests.req 0x2A (Tests.args [3, 3] ++ List.replicate 96 1)) 3
     s.arg 0 = 3 ∧ s.tailSlot = 3 ∧ (s.userKey 3).isSome = true ∧ s.keySlots.length = 1 ∧ s.polSigned = false ∧ s.tailCheck = 9) ∧
    (let s (k : Nat) := Tests.req 0x2B (Tests.args [k])
     (s 1).arg 0 = 1 ∧ (s 1).keySlots = [] ∧ (Tests.enrolled (s 1) 0).keySlots ≠ [] ∧ (s 0).arg 0 = 0 ∧ ({ s 0 with polSigned := true } : State).polSigned = true) ∧
    (let s := Tests.load 0x30 [0, 80, 0] Tests.file
     s.arg 2 = 0 ∧ s.arg 0 % 64 = 0 ∧ s.arg 0 + s.arg 1 ≤ 2 ^ 32 ∧ (fwCheck 0 (s.areaBytes (s.arg 0) (s.arg 1))).2 = 6) ∧
    (Tests.req 0x31 []).stby ≠ 1 ∧ ((Tests.req 0x31 []).setFld MBX_CORE fMBX_CORE_STBY_STATE 1).stby = 1 ∧
    (let s (w : Nat) := Tests.req 0x42 (Tests.args [w])
     (s 3).arg 0 = 3 ∧ (s 2).arg 0 = 2 ∧ (s 2).nor.calCopies.2 = none) ∧
    ((Tests.req 0x2B (Tests.args [2])).arg 0 = 2 ∧
     (let s : State := { Tests.enrolled (Tests.req 0x2B (Tests.args [0, 3] ++ List.replicate 96 1)) 3 with polSigned := true }
      s.arg 0 = 0 ∧ s.polSigned = true ∧ s.tailSlot = 3 ∧ s.tailCheck = 9)) := by
  refine ⟨?_, ?_, ?_, ?_, ?_, ?_, ?_, ?_, ?_, ?_, ?_, ?_, ?_, ?_, ?_, ?_, ?_, ?_, ?_, ?_⟩ <;> decide +kernel
/-- Firmware running, with the standby in a state and something of Cobbler's own. -/
def Tests.cob (stby : Nat) (f : CobSt → CobSt) : State :=
  { Tests.up.setFld MBX_CORE fMBX_CORE_STBY_STATE stby with cob := f { Tests.up.cob with up := true } }
theorem test_hyp_CobblerEvents : State.reset.cob.up = false ∧ (Tests.cob 0 id).cob.up = true ∧ (Tests.cob 0 id).stby = 0 ∧ (Tests.cob 1 id).stby = 1 ∧
    (Tests.cob 2 id).stby ≠ 1 ∧ Tests.up.cob.probation = none ∧ (Tests.cob 1 (fun c => { c with probation := some 1 })).cob.probation = some 1 ∧
    1 ≤ Tests.up.tick + 1 ∧ (({ Tests.up with tick := 1999 } : State).tick + 1) % 2000 = 0 ∧
    (let x : SensorSt := { (Tests.cob 0 id).sensor 0 with act := true, alarmHi := 9, aHi := { out := 3 }, warnHi := 9, wHi := { out := 3 }, reading := 10 }
     x.act = true ∧ x.alarm = false ∧ x.warn = false ∧ (x.read 0 10).alarm = true ∧ (x.read 0 10).warn = true ∧
     ((x.read 0 10).aHi.on && !x.aHi.on) = true ∧ (sensorScope 0).testBit 0 = true) ∧
    ((Tests.req 0x30 []).reqWord 0 % 2 ^ 16 = 0x30 ∧ ({ on := true, back := 3 } : LevelSt).on = true ∧ ({ out := 3 } : LevelSt).on = false) ∧
    (let e : LogEntry := ((Tests.cob 0 id).logEv 1 2 3 4 5 6).log.ring.headD ⟨0, 0, 0, 0, 0, 0, 0, 0⟩
     let s : State := { Tests.cob 0 id with log := { Tests.up.log with ring := [e], nor := [], unmirrored := 1, skipped := 0 } }
     s.log.unmirrored ≠ 0 ∧ s.log.skipped = 0 ∧ s.log.unmirrored ≤ s.log.ring.length ∧
     125000 * s.log.unmirrored ≤ min 64000000 (s.cob.credit + (s.tick - s.cob.creditAt)) ∧ s.log.nor.length + s.log.unmirrored ≤ 131072 ∧
     (let g : State := { s with log := { s.log with skipped := 1 } }
      g.log.skipped ≠ 0 ∧ g.log.unmirrored ≤ g.log.ring.length ∧
      125000 * (g.log.unmirrored + 1) ≤ min 64000000 (g.cob.credit + (g.tick - g.cob.creditAt)) ∧
      g.log.nor.length + g.log.unmirrored + 1 ≤ 131072 ∧
      (let p : State := { g with cob := { g.cob with credit := 249999 } }
       min 64000000 (p.cob.credit + (p.tick - p.cob.creditAt)) < 250000))) ∧
    (State.reset.cob.up = false ∧ ((State.reset.sensor 0).read 0 10).reading = 10) ∧
    (Tests.cob 0 (fun c => { c with nonce := some ([], 1) })).cob.nonce = some ([], 1) ∧
    (let s : State := { (Tests.cob 0 id).setBit CAL_CTL fCAL_CTL_AUTOSTORE true with hours := 24 }
     s.cob.up = true ∧ s.bit CAL_CTL fCAL_CTL_AUTOSTORE = true ∧ s.hours % 24 = 0 ∧ s.hours ≠ s.cob.storeHours) := by decide +kernel
/-- Cluster 15 in power state p, TRANSIT or not, with its passage. -/
def Tests.pwr (p : Nat) (transit : Bool) (x : PwrSt) (tick : Nat) : State :=
  { ((Tests.up.setFld (PWR_CLU_STAT 15) fPWR_CLU_STAT_STATE p).setBit (PWR_CLU_STAT 15) fPWR_CLU_STAT_TRANSIT transit).updCluster 15
    (fun c => { c with pwr := x }) with tick }
theorem test_hyp_PowerCommands_goals : (let s := Tests.pwr 1 false { pend := some ⟨2, ⟨1, none⟩⟩ } 0
     (s.pwrSt 15).pend = some ⟨2, ⟨1, none⟩⟩ ∧ (2 : Nat) ≤ (2 : Fin 4) ∧ ((1 : Fin 4) : Nat) < 2 ∧ s.pwr 15 = (1 : Fin 4) ∧ s.tileGone 3 = false) ∧
    (let s := Tests.pwr 1 true { goal := some 2 } 0
     s.transit 15 = true ∧ (s.pwrSt 15).pend = none ∧ (s.pwrSt 15).goal.getD (s.pwr 15) = 2 ∧ 2 < (3 : Fin 4) ∧ (0 : Fin 4).val < s.pwr 15 ∧
     (1 : Fin 4).val < 2 ∧ ¬((1 : Fin 4).val < s.pwr 15)) ∧
    (∃ x, ((Tests.pwr 1 false { goal := some 2 } 0).pwrSt 15).goal = some x ∧ (Tests.pwr 1 false { goal := some 2 } 0).pwr 15 < x) ∧
    Tests.up.tileOn 3 = true ∧ State.reset.tileOn 3 = false ∧ Tests.up.halted = false ∧ Tests.up.hub.supplyLow.testBit 3 = false ∧
    (∀ c, c < 4 → (Tests.up.fld MBX_ENV fMBX_ENV_HELD).testBit (4 * 3 + c) = false) ∧ (Tests.pwr 1 false {} 0).tileOn 3 = true ∧
    (let s := State.reset.wr PWR_TILE_STAT 0x80
     s.tileOn 3 = false ∧ s.fld (PWR_STEP 9) fPWR_STEP_OUTCOME ≠ 3 ∧
     (s.setFld (PWR_STEP 9) fPWR_STEP_OUTCOME 3).fld (PWR_STEP 9) fPWR_STEP_OUTCOME = 3 ∧
     (s.setFld (PWR_STEP 9) fPWR_STEP_OUTCOME 3).tileOn 3 = false) := by
  refine ⟨by decide +kernel, by decide +kernel, ⟨2, by decide +kernel⟩, ?_⟩
  decide +kernel
theorem test_hyp_PowerCommands : (32768 : Fin 65536).val.testBit 15 = true ∧ State.reset.tileGone 3 = true ∧ Tests.up.tileGone 3 = false ∧
    ({ Tests.up with jtag := { test := 32768 } } : State).jtag.test.testBit 15 = true ∧ Tests.up.activeValid 15 = false ∧
    (Tests.dsc 2 []).activeValid 0 = true ∧ (Tests.up.pwrSt 15).pend = none ∧ Tests.up.transit 15 = false ∧ (Tests.up.pwrSt 15).goal = none ∧
    Tests.up.pwr 15 ≠ 1 ∧ (Tests.pwr 1 true { goal := some 2 } 0).transit 15 = true ∧
    ((Tests.pwr 1 true {} 0).setFld (PWR_CLU_STAT 15) fPWR_CLU_STAT_TARGET 2).fld (PWR_CLU_STAT 15) fPWR_CLU_STAT_TARGET = 2 ∧
    (let s (p : Nat) := Tests.pwr p false { pend := some ⟨1, ⟨1, none⟩⟩ } 1
     ((s 0).pwrSt 15).pend = some ⟨1, ⟨1, none⟩⟩ ∧ (s 0).due ⟨1, none⟩ = true ∧ (s 0).pwr 15 = 0 ∧ (s 3).pwr 15 = 3) ∧
    (let s := Tests.pwr 2 false { pend := some ⟨3, ⟨1, none⟩⟩ } 1
     s.pwr 15 = 2 ∧ (s.pwrSt 15).entered + 2 ≤ s.tick + 1 ∧ s.due ⟨1, none⟩ = true) ∧
    (let s := Tests.pwr 1 true { next := 40 } 39
     s.pwr 15 = 1 ∧ s.transit 15 = true ∧ (s.pwrSt 15).next = (s.pwrSt 15).entered + 40 ∧ (s.pwrSt 15).next ≤ s.tick + 1 ∧ (s.pwrSt 15).goal = none) ∧
    (let s := Tests.pwr 1 true { next := 200, goal := some 3 } 199
     (s.pwrSt 15).next = (s.pwrSt 15).entered + 200 ∧ (s.pwrSt 15).next ≤ s.tick + 1 ∧ (s.pwrSt 15).goal = some 3) ∧
    ((15 : Fin 16).val.testBit 3 = true ∧ Tests.up.tileUp 3 = true ∧ (∀ c, c < 4 → Tests.up.pwr (12 + c) = 0 ∧ Tests.up.jtag.test.testBit (12 + c) = false) ∧
     (Tests.pwr 1 false {} 0).pwr (12 + 3) ≠ 0) ∧
    (State.reset.rd PWR_TILE_STAT).getLsbD (4 + 3) = false ∧ ((State.reset.wr PWR_TILE_STAT 0x80).rd PWR_TILE_STAT).getLsbD (4 + 3) = true ∧
    (Tests.up.hub.dramGoal = none ∧ Tests.up.fld PWR_DRAM_STAT fPWR_DRAM_STAT_STATE = 2 ∧ Tests.up.dramInUse = false ∧
      (Tests.dma dmRunning 0 1 [] {}).dramInUse = true) ∧
    ({ Tests.up with hub := { dramGoal := some 2 } } : State).hub.dramGoal = some 2 := by
  refine ⟨?_, ?_, ?_, ?_, ?_, ?_, ?_, ?_, ?_, ?_, ?_, ?_, ?_, ?_, ?_, ?_, ?_, ?_, ?_, ?_, ?_⟩ <;> decide +kernel
/-- The state with something of the hub's power and resets. -/
def Tests.hub (h : HubSt) (tick : Nat) : State := { Tests.up with hub := h, tick }
theorem test_hyp_ResetsAndBoot : Tests.up.hub.supplyLow = 0 ∧ (Tests.up.setBit PWR_RST_CTL fPWR_RST_CTL_PERST_SCOPE true).bit PWR_RST_CTL fPWR_RST_CTL_PERST_SCOPE = true ∧
    (Tests.up.setBit PWR_RST_CTL fPWR_RST_CTL_PERST_SCOPE false).bit PWR_RST_CTL fPWR_RST_CTL_PERST_SCOPE = false ∧
    ((Tests.hub { rstKey := some 0 } 2000).hub.rstKey = some 0 ∧ (Tests.hub { rstKey := some 0 } 2000).tick ≤ 0 + 2000) ∧
    (Tests.hub {} 0).hub.boot = .pending ∧ (Tests.hub {} 0).hub.perstLow = false ∧ (Tests.hub {} 0).hub.resetAt = none ∧
    (∀ n alt, n < 16 → bootTime {} n alt ≤ 2 * stepLimit n) ∧ stepLimit 0 < bootTime { steps := [⟨0, none, none, 11, 0, 0⟩] } 0 false ∧
    (Tests.hub {} 0).nor.tally.length < 4096 ∧ (Tests.hub { perstLow := true } 0).hub.perstLow = true ∧
    ((let m : MoveSt := { Tests.mv false false 0 with dsp := 2 }
      let s := Tests.dma dmRunning 0 1 [] { move := some m }
      (s.dmaCh 15).move = some m ∧ s.dmaActive 15 = true ∧ m.lines < m.total ∧ s.tokenWait m = false ∧ (s.dmaCh 14).move = none)) ∧
    (Tests.hub { boot := .hung 15 } 0).hub.boot = .hung 15 ∧ (Tests.hub { boot := .done } 0).hub.boot ≠ .pending ∧
    (let s := (Tests.cob 0 id).setBit PWR_BOOT fPWR_BOOT_CLEAR_PENDING true; s.bit PWR_BOOT fPWR_BOOT_CLEAR_PENDING = true ∧ s.cob.up = true) := by
  refine ⟨by decide +kernel, by decide +kernel, by decide +kernel, by decide +kernel, by decide +kernel, by decide +kernel, by decide +kernel, ?_, ?_⟩
  · intro n alt _; cases alt <;> exact Nat.zero_le _
  · decide +kernel
theorem test_hyp_FaultsAndClocks : ((Tests.hub { isoKey := some (0, 8) } 2000).hub.isoKey = some (0, (8 : Fin 16).val) ∧
      (Tests.hub { isoKey := some (0, 8) } 2000).tick ≤ 0 + 2000 ∧ (8 : Fin 16).val.testBit 3 = true ∧ Tests.up.isolated 3 = false ∧ Tests.up.tileUp 3 = true) ∧
    (Tests.hub { isoAt := [(3, 1)] } 0).hub.isoAt = [((3 : Tile).val, (Tests.hub {} 0).tick + 1)] ∧
    (∀ x ∈ (Tests.hub { isoAt := [(3, 2)] } 0).hub.isoAt, Tests.up.tick + 1 < x.2) ∧
    (let s (a b : Bool) := (Tests.up.setBit HUB_CLK_STAT fHUB_CLK_STAT_A_OK a).setBit HUB_CLK_STAT fHUB_CLK_STAT_B_OK b
     (s false true).clkOk false = false ∧ (s true false).clkOk false = true ∧ (s true false).clkOk true = false ∧ (s true true).clkOk true = true ∧
     (s true true).hub.clkGoal ≠ some 0 ∧ (s true true).clkActive = false ∧ (s true true).bit HUB_CLK_STAT fHUB_CLK_STAT_INTERNAL = false ∧
     (s true true).hub.clkGoal = none ∧ (s true true).clkInt = false ∧
     ((s true true).setBit HUB_CLK_STAT fHUB_CLK_STAT_INTERNAL true).clkInt = true) ∧
    (Tests.hub { clkGoal := some 1, clkLost := true } 0).hub.clkLost = true ∧ (Tests.hub { isoAt := [(3, 1)] } 0).hub.isoAt.any (fun x => x.1 == 3) = true ∧
    ((Tests.up.coefBad ++ [(chBase 511 + 0x800, (5 : Word))]).find? (fun e => e.1 == (chBase 511 + 0x803) / 4 * 4)).isSome = true ∧
    (Tests.hub { clkGoal := some 1 } 0).hub.clkGoal = some true.toNat ∧ (2 : Fin 7).val ∈ [1, 2, 5, 6] ∧ (6 : Fin 7).val ∈ [1, 2, 5, 6] ∧ (2 : Fin 7).val ≠ 6 ∧ ¬((0 : Fin 7).val ∈ [1, 2, 5, 6]) ∧
    bankOf 0x4EFFFFF = some (15, 1) ∧ (1 ≠ Tests.up.activeBank 15 ∧ (0 = Tests.up.activeBank 15)) := by decide +kernel
/-- The next state of a command; the state itself where it stops. -/
def Tests.after (c : Instr) (s : State) : State := match exec c s with | .next t => t | .fault _ => s | .refused _ => s
theorem test_hyp_BoundaryScan : (∃ g, g < 17 ∧ (131071 : Fin 131072).val.testBit g = true ∧ (Tests.at 1).segOut g = true) ∧
    Tests.up.bit TST_CTL fTST_CTL_TEST_LOCK = false ∧ (Tests.up.setBit TST_CTL fTST_CTL_TEST_LOCK true).bit TST_CTL fTST_CTL_TEST_LOCK = true ∧
    ((Tests.after .highz Tests.up).segTest (127 / 8) = true ∧ (Tests.after .highz Tests.up).segTest 16 = true ∧
      (Tests.after .highz Tests.up).isolated (15 / 4) = false) :=
  ⟨⟨0, by decide +kernel⟩, by decide +kernel⟩
theorem test_hyp_BoundaryScan_cells : ({ Tests.up with jtag := { Tests.up.jtag with trst := true } } : State).jtag.trst = true ∧ Tests.up.jtag.trst = false ∧
    (let s := Tests.after (.extest ⟨none, true⟩) Tests.up
     s.fld TST_STAT fTST_STAT_IR = 3 ∧ s.fld TST_STAT fTST_STAT_IR ≠ 5 ∧ s.segTest 15 = true ∧ s.isolated (15 / 4) = false ∧ s.segTest 16 = true ∧
     Tests.up.segTest 16 = false ∧ s.fld TST_STAT fTST_STAT_IR ≠ 6) := by decide +kernel

/-! ### Ill-formed commands, one for each check -/

theorem test_wf_byte_enables : (Instr.registerWrite 0 0 16 ⟨Tests.rq, 0⟩).wf = false ∧ (Instr.standbyBankWrite 0 0 16 Tests.rq).wf = false ∧
    (Instr.coefficientWindowWrite 0 0 16 Tests.rq).wf = false ∧ (Instr.safeCodeWrite 0 0 16).wf = false ∧ (Instr.forceSafeWrite 0 0 16).wf = false ∧
    (Instr.windowTest 0 .v 0 16).wf = false ∧ (Instr.mailboxRequestWrite 0 0 16).wf = false ∧ (Instr.mailboxRequestWrite 0 0 15).wf = true := by decide
theorem test_wf_channel : (Instr.registerWrite 0 0 15 ⟨⟨2, Tests.rq.hdr⟩, 0⟩).wf = false ∧ (Instr.readLoLatch 0 ⟨⟨2, Tests.rq.hdr⟩, ⟨0, none⟩⟩).wf = false ∧
    (Instr.standbyBankWrite 0 0 15 ⟨2, Tests.rq.hdr⟩).wf = false ∧ (Instr.coefficientWindowWrite 0 0 15 ⟨2, Tests.rq.hdr⟩).wf = false ∧
    (Instr.bar0RequestAbort true 0 ⟨2, Tests.rq.hdr⟩).wf = false ∧ (Instr.bar2Read 0 4 ⟨0, none⟩ ⟨2, Tests.rq.hdr⟩).wf = false ∧
    (Instr.haltDoorbell true 0 ⟨2, Tests.rq.hdr⟩).wf = false ∧ (Instr.linkError 1 0 ⟨2, Tests.rq.hdr⟩).wf = false := by decide
theorem test_wf_bar2 : (Instr.bar2Read 0xFFFFFFFF 2 ⟨0, none⟩ Tests.rq).wf = false ∧ (Instr.bar2Write 0xFFFFFFFF [0, 0]).wf = false ∧
    (Instr.bar2Write 0xFFFFFFFF [0]).wf = true := by decide
theorem test_wf_cycles : ([.referenceEvent true 400, .indexPulse ⟨true, 400⟩, .quadCount true true 400, .supplySenseFall 0 400, .comparatorOut 0 .v true 400, .comparatorInside 0 .v true 400,
    .blankingEnd 0 400, .evlInputEdge 0 true 400, .haltNAssert true 400, .sklHaltSet true 0 400, .haltDoorbell true 400 Tests.rq,
    .timeFrame (Tests.hdr true) 0 32 0 400] : List Instr).all (fun c => !c.wf) = true ∧ (Instr.indexPulse ⟨true, 399⟩).wf = true := by decide
theorem test_wf_numbers : ([.hostJump 0 4096 true, .trackFill 0 4096, .evlFill 0 65536, .evlReady 0 [⟨16, false⟩],
    .evlCycleBoundary 0 [⟨16, false⟩], .dmaBurst 0 ⟨1, List.replicate 1025 0, 8⟩, .dmaBurst 1 ⟨1, [], 8⟩, .dmaBurst 31 ⟨2 ^ 32 + 2 ^ 31, [], 8⟩, .dmaBusError 0 8 0 [], .linkError 0 0 Tests.rq, .linkError 16 0 Tests.rq,
    .releaseFrame (Tests.hdr true) (2 ^ 64), .linkUp 0 1, .linkUp 5 1, .linkUp 1 0, .linkUp 1 5] : List Instr).all (fun c => !c.wf) = true ∧
    (Instr.linkUp 4 4).wf = true := by decide +kernel
theorem test_wf_frames : ([.timeFrame (Tests.hdr true) (2 ^ 96) 32 0 0, .timeFrame (Tests.hdr true) 0 512 0 0, .timeFrame (Tests.hdr true) 0 32 8 0,
    .timeFrame ⟨true, 8, 0, 0, false⟩ 0 32 0 0, .shareFrame ⟨true, 8, 0, 0, false⟩ [] false, .sumFrame ⟨true, 0, 256, 0, false⟩ [] false,
    .nackFrame ⟨true, 0, 0, 5, false⟩, .enumFrame ⟨true, 8, 0, 0, false⟩ ⟨0, true, false, 0, 0, 0⟩, .releaseFrame ⟨true, 8, 0, 0, false⟩ 0] :
    List Instr).all (fun c => !c.wf) = true ∧ (Instr.nackFrame ⟨true, 7, 255, 4, true⟩).wf = true := by decide +kernel
theorem test_wf_tick : ([{ v := [(512, 0)] }, { i := [(512, 0)] }, { weltV := [(128, 0)] }, { weltI := [(128, 0)] }, { aux := [(64, 0)] }, { iret := [(512, 0)] },
    { vball := [(512, 0)] }, { v := [(0, 0x80000)] }, { i := [(0, -0x80001)] }, { weltV := [(0, 0x80000)] }, { weltI := [(0, 0x80000)] }, { upsets := [⟨512, .slot0, true⟩] }, { expFaults := [⟨16, 0, 0⟩] },
    { expFaults := [⟨0, 17, 0⟩] }, { auxStale := [64] }, { seqUe := [512] },
    { stageUe := [512] }, { portBad := [4] }, { sliceBad := [(128, 0)] }, { sliceBad := [(0, 15)] }, { sums := [(⟨true, 8, 0, 0, false⟩, [])] },
    { aux := [(0, -2 ^ 14)] }, { aux := [(0, 2 ^ 30 + 2 ^ 14)] }, { aux := [(0, 1)] }] : List TickIn).all (fun x => !(Instr.sampleTick x).wf) = true ∧
    (Instr.sampleTick { v := [(511, 0x7FFFF)], i := [(511, -0x80000)], expFaults := [⟨15, 16, -1⟩] }).wf = true := by decide +kernel
theorem test_no_row_has_bits : decodeTableWord 32 0 = none := rfl

/-! ### Single commands, their results worked out from the rules -/

/-- R43: the check value of CRC-32C over the digits 1 to 9. -/
theorem test_crc32c : crc32c [0x31, 0x32, 0x33, 0x34, 0x35, 0x36, 0x37, 0x38, 0x39] = 0xE3069283 := by decide +kernel
/-- R36: only the enabled byte of the word changes. -/
theorem test_register_write : let t := Tests.after (.registerWrite (CH_INJ_LEN 0) 0xAABBCCDD 2 ⟨Tests.rq, 0⟩) Tests.up
    t.rd (CH_INJ_LEN 0) = 0x0000CC00 :=
  by decide +kernel
/-- A write to a register of a tile that is DOWN changes nothing. -/
theorem test_tile_down : let t := Tests.after (.registerWrite (CH_INJ_LEN 511) 5 15 ⟨Tests.rq, 0⟩) (Tests.up.wr PWR_TILE_STAT 7)
    t.rd (CH_INJ_LEN 511) = 0 :=
  by decide +kernel
/-- R325: a release is refused while HALT_N is low. -/
theorem test_halt_release : let t := Tests.after .haltRelease (Tests.up.setBit HUB_HALT_STAT fHUB_HALT_STAT_BALL_LOW true)
    t.bit HUB_HALT_STAT fHUB_HALT_STAT_RELEASE_REFUSED = true ∧ t.later = [] := by decide +kernel
/-- R372: a cluster in OFF that is told PARK has a transition pending from tick 2 on. -/
theorem test_power : let t := Tests.after (.clusterPowerCmd 0x8000 1 false) Tests.up
    (t.pwrSt 15).pend = some ⟨1, ⟨2, none⟩⟩ ∧ (t.pwrSt 14).pend = none :=
  by decide +kernel
/-- R247: credits stop at the ring's length, 4 here, and FILL_OVER says so. -/
theorem test_fill : let t := Tests.after (.trackFill 0 5) (Tests.trk 3 trPlaying { stream := true, first := 2, last := 5 })
    t.fld (SEQ_CREDIT 0) fSEQ_CREDIT_CREDIT = 4 ∧ t.bit (SEQ_STAT 0) fSEQ_STAT_FILL_OVER = true := by decide +kernel
/-- R268, R270: a burst copies its line and the channel goes on. -/
theorem test_burst : let t := Tests.after (.dmaBurst 15 ⟨0x8000, [], 8⟩) { Tests.dma dmRunning 0 2 [] { move := some (Tests.mv false false 0) } with seqMem := Mem.writeBytes [] 63 [7, 9] }
    t.seqMem.read 127 = 7 ∧ t.dmaPc 15 = 1 := by decide +kernel
/-- R270: the same with a barrier waits. -/
theorem test_burst_barrier : let t := Tests.after (.dmaBurst 15 ⟨0x8000, [], 8⟩) (Tests.dma dmRunning 0 2 [] { move := some (Tests.mv false true 0) })
    t.dmaState 15 = dmWaiting :=
  by decide +kernel
/-- R223: a release of an open latch that has no cause is due at tick 2. -/
theorem test_release : let t := Tests.after (.pgRelease 511) (Tests.up.setBit (PG_STAT 511) fPG_STAT_TRIPPED true)
    (t.chan 511).pg.release = some (2, true) :=
  by decide +kernel
/-- R337: the ENUM of the last position gives the chain's length. -/
theorem test_enum : let t := Tests.after (.enumFrame (Tests.hdr true) ⟨7, true, false, 0, 0, 0⟩) (Tests.skl 6 {})
    t.fld SKL_STAT fSKL_STAT_LEN = 7 ∧
    (t.rd SKL_CHAIN).getLsbD 7 = true := by decide +kernel
/-- A key for a slot that holds one is refused with STATUS 8 (R359, Table 17-7). -/
theorem test_enrol_taken : let t := Tests.after (.keyEnrol .none) (Tests.enrolled (Tests.req 0x29 (Tests.args [3] ++ Tests.key)) 3)
    t.cob.resp.readLE 4 4 = 8 :=
  by decide +kernel
/-- R56, R362: the standby bank of cluster 0 gets the section's bytes, here too short to be a structure. -/
theorem test_sealed_load : let t := Tests.after (.sealedLoad .none) (Tests.load 0x20 [0, 80, 1] Tests.file)
    t.cob.resp.readLE 4 2 = 0 :=
  by decide +kernel
/-- R275: two beats of a burst go out before a channel of a higher priority has the turn; the other half waits in the buffer. -/
theorem test_burst_beats : let m : MoveSt := { Tests.mv false false 0 with len := 128 }
    let t := Tests.after (.dmaBurst 15 ⟨0x8000, [], 1⟩) { Tests.dma dmRunning 0 2 [] { move := some m } with seqMem := Mem.writeBytes [] 31 [7, 9] }
    t.seqMem.read 95 = 7 ∧ t.seqMem.read 96 = 0 ∧ t.dmaPc 15 = 0 := by decide +kernel
/-- R351: the fourth reading beyond a threshold makes its level, and one inside does not end it. -/
theorem test_level : (({ out := 3 } : LevelSt).read true false).on = true ∧ (({ on := true } : LevelSt).read false true).on = true := by decide
/-- R381: a method that takes more than its limit ends with TIMEOUT, DETAIL 1. -/
theorem test_timeout : (BootRun.tries { s := State.reset } { steps := [⟨1, none, none, 3, 0, 0⟩] } 1 false) = some 1 := by decide +kernel
/-- R381: the watchdog starts a hung boot again. -/
theorem test_watchdog : let t := Tests.after .bootWatchdog (Tests.hub { boot := .hung 15 } 0)
    t.hub.boot = .pending ∧ t.rd PWR_RST_CAUSE = 8 := by decide +kernel
/-- R398: Test-Logic-Reset selects IDCODE, 32 bits. -/
theorem test_tap : let t := Tests.after .tapReset Tests.up
    t.fld TST_STAT fTST_STAT_IR = 1 ∧ t.jtag.len = 32 := by decide +kernel
/-- An empty queue idles (assumption 1). -/
theorem test_idle : step State.reset = .next State.reset := rfl

end
end

section
/-!
Every command answers a next state, keeps the canonical form of the memories and leaves the queue; the state after reset.
-/

namespace Sys2Proof.Machine

/-- A command writes a memory where its own lemma says how, and leaves all three elsewhere. -/
theorem exec_good {p : List Instr} {W : Prop} (c : Instr) (s : State) (h : Good p W s.kept) : Out.Good p W (exec c s) := by
  cases c <;> rw [exec]
  case sampleTick | bar2Write | standbyBankWrite | recordWritten | dmaStart | dmaAbort | dmaResume | dmaMove | dmaBurst
      | dmaBarrierDone | dmaLoop | dmaWaitEvent | dmaWaitKick | dmaWaitStamp | dmaWaitSatisfied | dmaSignalEvent | dmaSignalTrackFill
      | dmaSignalGroupFill | dmaSignalRingConsume | dmaEnd | dmaBusError | linkError | widthChangeDone | dlDown | sealedLoad
      | tileUpDone | dramTransitionDone | powerOn | perstN | hotReset | boot | isolationComplete | idcode | samplePreload | extest
      | clamp | highz | extestPulse | extestTrain | ecidcode | segsel | bypass | testLock => simp [h]
  all_goals exact Out.good_of_kept (by simp) h

end Sys2Proof.Machine

open Sys2Proof Sys2Proof.Machine

/-- Settles O5: the state after reset lists no byte, no command and no agenda. -/
theorem resetIsCanonical : Obligations.ResetIsCanonical := by
  unfold Obligations.ResetIsCanonical
  exact ⟨⟨Mem.wf_nil, Mem.wf_nil, Mem.wf_nil⟩, rfl, rfl, rfl, rfl⟩

/-- Settles O3: a command keeps the queue, and does so by answering a next state (`exec_good`). -/
theorem everyCommandAnswers : Obligations.EveryCommandAnswers := by
  unfold Obligations.EveryCommandAnswers
  intro c s
  obtain ⟨t, ht, -⟩ := exec_good (p := s.pending) (W := False) c s ⟨rfl, False.elim⟩
  exact ⟨t, ht⟩

end

section
/-!
What a host write of a register does: the stored bits, the registers that show them, the messages of the vectors concerned, the MSI-X
table, reserved addresses; with the order of the cases of REGISTER_WRITE.
-/

namespace Sys2Proof.Machine

/-! ### Bits of a stored word -/

theorem getLsbD_beMask (be : Nat) {i : Nat} (hi : i < 32) : (beMask be).getLsbD i = be.testBit (i / 8) := by
  have byte : ∀ (e0 e1 e2 e3 : Bool) (k : Fin 32),
      ((if e0 then (0xFF : Word) else 0) ||| (if e1 then 0xFF00 else 0) ||| (if e2 then 0xFF0000 else 0) |||
        (if e3 then 0xFF000000 else 0)).getLsbD k = [e0, e1, e2, e3].getD (k / 8) false := by decide
  have hq : i / 8 < 4 := by omega
  rw [beMask, byte _ _ _ _ ⟨i, hi⟩]
  dsimp only
  generalize i / 8 = q at hq
  match q, hq with
  | 0, _ => rfl
  | 1, _ => rfl
  | 2, _ => rfl
  | 3, _ => rfl

theorem getLsbD_storeBits (s : State) (a : Nat) (data : Word) (be : Nat) (same : Word) {i : Nat} (hi : i < 32) :
    (storeBits a (s.rd a) data be same).getLsbD i = s.storedBit a data be same i := by
  simp only [storeBits, State.storedBit, BitVec.getLsbD_or, BitVec.getLsbD_and, BitVec.getLsbD_not, getLsbD_beMask be hi, hi,
    decide_true, Bool.true_and]
  generalize be.testBit (i / 8) = e, (ownRow a).getLsbD i = o, (maskAt a .w1c).getLsbD i = c, (maskAt a .rw).getLsbD i = w,
    (maskAt a .sh).getLsbD i = x, data.getLsbD i = d, same.getLsbD i = m, (s.rd a).getLsbD i = r
  revert e o c w x d m r
  decide

/-! ### An operation over a list -/

theorem State.quiet_over {α : Type} (s : State) (xs : List α) (f : State → α → State) (h : ∀ (t : State) x, t.quiet (f t x)) :
    s.quiet (s.over xs f) :=
  List.foldlRecOn (motive := fun t : State => s.quiet t) xs _ (.refl s) fun t ht x _ => ht.trans (h t x)
theorem State.onlyRegs_over {α : Type} (s : State) (xs : List α) (f : State → α → State) (h : ∀ (t : State) x, t.onlyRegs (f t x)) :
    s.onlyRegs (s.over xs f) :=
  List.foldlRecOn (motive := fun t : State => s.onlyRegs t) xs _ (.refl s) fun t ht x _ => ht.trans (h t x)
theorem State.rd_over {α : Type} (s : State) (xs : List α) (f : State → α → State) (a : Nat)
    (h : ∀ t, ∀ x ∈ xs, (f t x).rd a = t.rd a) : (s.over xs f).rd a = s.rd a :=
  List.foldlRecOn (motive := fun t : State => t.rd a = s.rd a) xs _ rfl fun t ht x hx => (h t x hx).trans ht

/-! ### Messages (R318) -/

theorem State.vecCond_congr {s t : State} (h : s.regs = t.regs) (v : Nat) : s.vecCond v = t.vecCond v := by
  have hrd : s.rd = t.rd := funext (State.rd_congr h)
  simp only [State.vecCond, State.vecSource, State.bit, State.fld, hrd]

@[simp] theorem State.regs_sendVec (s : State) (v : Nat) : (s.sendVec v).regs = s.regs := by
  obtain ⟨p, m, c, r, e⟩ := s.sendVec_eq v
  rw [e]
@[simp] theorem State.shut_sendVec (s : State) (v : Nat) : (s.sendVec v).host.shut = s.host.shut := by
  obtain ⟨p, m, c, r, e⟩ := s.sendVec_eq v
  rw [e]
  rfl
@[simp] theorem State.msixWord_sendVec (s : State) (v x w : Nat) : (s.sendVec v).msixWord x w = s.msixWord x w := by
  obtain ⟨p, m, c, r, e⟩ := s.sendVec_eq v
  rw [e]
  rfl

/-- The mask that clears bit v of the pending bit array. -/
theorem testBit_clear {v x : Nat} (hv : v < 64) (hx : x < 64) : (2 ^ 64 - 1 - 2 ^ v).testBit x = decide (x ≠ v) := by
  have hlt : 2 ^ v < 2 ^ 64 := Nat.pow_lt_pow_right (by decide) hv
  rw [Nat.sub_sub, Nat.add_comm 1, Nat.testBit_two_pow_sub_succ hlt, Nat.testBit_two_pow]
  simp [hx, eq_comm]

theorem State.sendVec_shut (s : State) (v : Nat) (h : s.host.shut = true ∨ (s.msixWord v 3).getLsbD 0 = true) :
    (s.sendVec v).host.pba = s.host.pba ||| 2 ^ v ∧ (s.sendVec v).host.sent = s.host.sent := by
  unfold State.sendVec
  rw [if_pos (by simpa using h)]
  exact ⟨rfl, rfl⟩
theorem State.sendVec_open (s : State) (v : Nat) (h : ¬(s.host.shut = true ∨ (s.msixWord v 3).getLsbD 0 = true)) :
    (s.sendVec v).host.pba = s.host.pba &&& (2 ^ 64 - 1 - 2 ^ v) ∧
    (s.sendVec v).host.sent = SMap.set 0 s.host.sent v (SMap.get 0 s.host.sent v + 1) := by
  unfold State.sendVec
  rw [if_neg (by simpa using h)]
  exact ⟨rfl, rfl⟩

theorem State.vecTold_sendVec (s : State) {v : Nat} (hv : v < 64) : s.vecTold (s.sendVec v) v := by
  unfold State.vecTold
  split
  · obtain ⟨hp, hs⟩ := s.sendVec_shut v ‹_›
    rw [hp, hs]
    simp
  · obtain ⟨hp, hs⟩ := s.sendVec_open v ‹_›
    rw [hp, hs, Nat.testBit_and, testBit_clear hv hv]
    simp

/-- Between `s` and `t` nothing has happened to vector v. -/
def State.vecSame (s t : State) (v : Nat) : Prop :=
  t.host.shut = s.host.shut ∧ (t.msixWord v 3).getLsbD 0 = (s.msixWord v 3).getLsbD 0 ∧
  t.host.pba.testBit v = s.host.pba.testBit v ∧ SMap.get 0 t.host.sent v = SMap.get 0 s.host.sent v

theorem State.vecSame.refl (s : State) (v : Nat) : s.vecSame s v := ⟨rfl, rfl, rfl, rfl⟩
theorem State.vecSame.trans {s t u : State} {v : Nat} (h : s.vecSame t v) (k : t.vecSame u v) : s.vecSame u v := by
  obtain ⟨h1, h2, h3, h4⟩ := h
  obtain ⟨k1, k2, k3, k4⟩ := k
  exact ⟨k1.trans h1, k2.trans h2, k3.trans h3, k4.trans h4⟩
theorem State.vecSame.told {s t u : State} {v : Nat} (h : s.vecSame t v) (k : t.vecTold u v) : s.vecTold u v := by
  obtain ⟨h1, h2, h3, h4⟩ := h
  simpa only [State.vecTold, h1, h2, h4] using k
theorem State.vecTold.same {s t u : State} {v : Nat} (h : s.vecTold t v) (k : t.vecSame u v) : s.vecTold u v := by
  obtain ⟨-, -, k3, k4⟩ := k
  simpa only [State.vecTold, k3, k4] using h

theorem State.vecSame_sendVec (s : State) {v x : Nat} (hv : v < 64) (hx : x < 64) (h : x ≠ v) : s.vecSame (s.sendVec v) x := by
  refine ⟨s.shut_sendVec v, by rw [s.msixWord_sendVec], ?_⟩
  by_cases hs : s.host.shut = true ∨ (s.msixWord v 3).getLsbD 0 = true
  · obtain ⟨hp, hs⟩ := s.sendVec_shut v hs
    rw [hp, hs, Nat.testBit_or, Nat.testBit_two_pow_of_ne (Ne.symm h)]
    simp
  · obtain ⟨hp, hs⟩ := s.sendVec_open v hs
    rw [hp, hs, Nat.testBit_and, testBit_clear hv hx, SMap.get_set_ne _ _ _ _ h]
    simp [h]

/-- A vector's message goes out where its condition is true. -/
def State.sendIf (s : State) (v : Nat) : State := if s.vecCond v then s.sendVec v else s

theorem State.regs_sendIf (s : State) (v : Nat) : (s.sendIf v).regs = s.regs := by
  unfold State.sendIf
  split
  · exact s.regs_sendVec v
  · rfl
theorem State.quiet_sendIf (s : State) (v : Nat) : s.quiet (s.sendIf v) := by
  unfold State.sendIf
  split
  · exact s.quiet_sendVec v
  · exact .refl s
theorem State.vecSame_sendIf (s : State) {v x : Nat} (hv : v < 64) (hx : x < 64) (h : x ≠ v) : s.vecSame (s.sendIf v) x := by
  unfold State.sendIf
  split
  · exact s.vecSame_sendVec hv hx h
  · exact .refl s x

theorem State.regs_sendAll (s : State) (vs : List Nat) : (s.over vs State.sendIf).regs = s.regs :=
  List.foldlRecOn (motive := fun t : State => t.regs = s.regs) vs _ rfl fun t h v _ => (t.regs_sendIf v).trans h
theorem State.vecSame_sendAll (s : State) {vs : List Nat} (hvs : ∀ v ∈ vs, v < 64) {x : Nat} (hx : x < 64) (h : x ∉ vs) :
    s.vecSame (s.over vs State.sendIf) x :=
  List.foldlRecOn (motive := fun t : State => s.vecSame t x) vs _ (.refl s x) fun t ht v hv =>
    ht.trans (t.vecSame_sendIf (hvs v hv) hx fun e => h (e ▸ hv))

/-- Of the vectors of a list without repetition, each whose condition is true is told. -/
theorem State.vecTold_sendAll (s : State) {vs : List Nat} (hvs : ∀ v ∈ vs, v < 64) (hn : vs.Nodup) {v : Nat} (hv : v ∈ vs)
    (hc : s.vecCond v = true) : s.vecTold (s.over vs State.sendIf) v := by
  induction vs generalizing s with
  | nil => exact absurd hv List.not_mem_nil
  | cons w ws ih =>
    obtain ⟨hw, hws⟩ := List.forall_mem_cons.1 hvs
    obtain ⟨hnot, hn⟩ := List.nodup_cons.1 hn
    change s.vecTold ((s.sendIf w).over ws State.sendIf) v
    by_cases e : v = w
    · subst e
      have first : s.vecTold (s.sendIf v) v := by
        rw [State.sendIf, if_pos hc]
        exact s.vecTold_sendVec hw
      exact first.same (vecSame_sendAll _ hws hw hnot)
    · have hv : v ∈ ws := (List.mem_cons.1 hv).resolve_left e
      have first : s.vecSame (s.sendIf w) v := s.vecSame_sendIf hw (hws v hv) e
      exact first.told (ih _ hws hn hv ((State.vecCond_congr (s.regs_sendIf w) v).trans hc))

/-- A list of vectors of the table, each once. -/
def VecList (vs : List Nat) : Prop := (∀ v ∈ vs, v < 64) ∧ vs.Nodup

theorem vecList_vecsOf (a : Nat) : VecList (vecsOf a) := by
  have one : ∀ v, v < 64 → VecList [v] := fun v hv => ⟨by simpa using hv, List.nodup_cons.2 ⟨List.not_mem_nil, List.nodup_nil⟩⟩
  have empty : VecList [] := ⟨by simp, List.nodup_nil⟩
  have pick : ∀ {c : Prop} [Decidable c] {x y : List Nat}, VecList x → VecList y → VecList (if c then x else y) := by
    intro c _ x y hx hy
    split
    · exact hx
    · exact hy
  unfold vecsOf
  iterate 10 refine pick ⟨by decide, by decide⟩ ?_
  split
  · rename_i hspan
    simp only [Bool.and_eq_true, decide_eq_true_eq] at hspan
    dsimp only
    split
    · exact one _ (by omega)
    · split
      · exact one _ (by omega)
      · exact empty
  · exact empty

/-! ### A stored register (R15, R16) -/

/-- What a write stores before its messages go out: the register's bits, and what the channels that wait for tokens and FORCED show. -/
def State.putReg (s : State) (a : Nat) (data : Word) (be : Nat) (same : Word) : State :=
  let t := s.wr a (storeBits a (s.rd a) data be same)
  (if DMA_REQ_TOK 0 ≤ a && a < DMA_REQ_TOK 64 then t.tokenShow ((a - DMA_REQ_TOK 0) / 4) else t).showForced a

theorem State.storeReg_eq (s : State) (a : Nat) (data : Word) (be : Nat) (same : Word) :
    s.storeReg a data be same = (s.putReg a data be same).over (vecsOf a) State.sendIf := rfl

theorem State.onlyRegs_tokenShow (s : State) (line : Nat) : s.onlyRegs (s.tokenShow line) := by
  refine s.onlyRegs_over _ _ fun t d => ?_
  split
  · dsimp only
    split
    · exact (t.onlyRegs_setFld ..).trans (State.onlyRegs_setBit ..)
    · exact .refl t
  · exact .refl t

theorem State.rd_tokenShow_ne (s : State) (line : Nat) {a : Nat} (h : ∀ d ∈ s.dma.map (·.1), a ≠ DMA_CH_STAT d) :
    (s.tokenShow line).rd a = s.rd a := by
  refine s.rd_over _ _ a fun t d hd => ?_
  split
  · dsimp only
    split
    · rw [rd_setBit_ne _ _ _ (h d hd), rd_setFld_ne _ _ _ (h d hd)]
    · rfl
  · rfl

theorem State.onlyRegs_showForced (s : State) (a : Nat) : s.onlyRegs (s.showForced a) := by
  unfold State.showForced
  dsimp only
  repeat' split
  · exact s.onlyRegs_over _ _ fun t n => t.onlyRegs_setBit ..
  · exact s.onlyRegs_setBit ..
  all_goals exact .refl s

theorem State.rd_showForced_ne (s : State) (a : Nat) {b : Nat} (h : ∀ n, b ≠ CH_ENG_STAT n) : (s.showForced a).rd b = s.rd b := by
  unfold State.showForced
  dsimp only
  repeat' split
  · exact s.rd_over _ _ b fun t n _ => rd_setBit_ne _ _ _ (h n)
  · exact rd_setBit_ne _ _ _ (h _)
  all_goals rfl

/-- A word-aligned address between the token registers is one of them. -/
theorem isTok_of_range {a : Nat} (h : DMA_REQ_TOK 0 ≤ a ∧ a < DMA_REQ_TOK 64) (h4 : a % 4 = 0) : ∃ k, k < 64 ∧ a = DMA_REQ_TOK k := by
  refine ⟨(a - DMA_REQ_TOK 0) / 4, ?_⟩
  simp only [DMA_REQ_TOK] at *
  omega

theorem State.onlyRegs_putReg (s : State) (a : Nat) (data : Word) (be : Nat) (same : Word) :
    s.onlyRegs (s.putReg a data be same) := by
  unfold State.putReg
  refine State.onlyRegs.trans ?_ (onlyRegs_showForced _ a)
  split
  · exact (s.onlyRegs_wr ..).trans (onlyRegs_tokenShow ..)
  · exact s.onlyRegs_wr ..

/-- A write stores a register's bits and, of the others, changes at most CH_ENG_STAT and, with tokens, the states of the channels. -/
theorem State.rd_putReg (s : State) {a b : Nat} (data : Word) (be : Nat) (same : Word) (h4 : a % 4 = 0) (hb : ∀ n, b ≠ CH_ENG_STAT n)
    (htok : (∃ k, k < 64 ∧ a = DMA_REQ_TOK k) → ∀ d ∈ s.dma.map (·.1), b ≠ DMA_CH_STAT d) :
    (s.putReg a data be same).rd b = (s.wr a (storeBits a (s.rd a) data be same)).rd b := by
  unfold State.putReg
  rw [rd_showForced_ne _ _ hb]
  split
  · rename_i hr
    rw [Bool.and_eq_true, decide_eq_true_eq, decide_eq_true_eq] at hr
    exact rd_tokenShow_ne _ _ (htok (isTok_of_range hr h4))
  · rfl

theorem State.rd_storeReg (s : State) (a b : Nat) (data : Word) (be : Nat) (same : Word) :
    (s.storeReg a data be same).rd b = (s.putReg a data be same).rd b :=
  State.rd_congr (State.regs_sendAll _ _) b

theorem State.quiet_storeReg (s : State) (a : Nat) (data : Word) (be : Nat) (same : Word) : s.quiet (s.storeReg a data be same) :=
  (s.onlyRegs_putReg ..).quiet.trans (State.quiet_over _ _ _ State.quiet_sendIf)

/-- A vector whose condition is true after a write of its source or enable register is told (R318). -/
theorem State.vecTold_storeReg (s : State) (a : Nat) (data : Word) (be : Nat) (same : Word) {v : Nat} (hv : v ∈ vecsOf a)
    (hc : (s.storeReg a data be same).vecCond v = true) : s.vecTold (s.storeReg a data be same) v := by
  obtain ⟨hlt, hn⟩ := vecList_vecsOf a
  rw [storeReg_eq, State.vecCond_congr (State.regs_sendAll _ _) v] at hc
  have told := State.vecTold_sendAll _ hlt hn hv hc
  have host : (s.putReg a data be same).host = s.host := by rw [s.onlyRegs_putReg a data be same]
  have here : s.vecSame (s.putReg a data be same) v := by simp only [State.vecSame, State.msixWord, host, and_self]
  exact here.told told

/-! ### The MSI-X table (R318) -/

/-- Word w of an entry of the MSI-X table after a write: the vector control word holds the mask alone, the low two bits of the message
address are 0 (Table 01-10). -/
def msixNew (w : Nat) (old data : Word) (be : Nat) : Word :=
  let m := beMask be &&& (if w = 3 then 1 else if w = 0 then 0xFFFFFFFC else 0xFFFFFFFF)
  (old &&& ~~~m) ||| (data &&& m)

theorem getLsbD_msixNew {w : Nat} (old data : Word) (be : Nat) {i : Nat} (hi : i < 32) :
    (msixNew w old data be).getLsbD i =
      if be.testBit (i / 8) && (w != 3 || i == 0) && (w != 0 || decide (2 ≤ i)) then data.getLsbD i else old.getLsbD i := by
  have h3 : ∀ k : Fin 32, (1 : Word).getLsbD k = (k.val == 0) := by decide
  have h0 : ∀ k : Fin 32, (0xFFFFFFFC : Word).getLsbD k = decide (2 ≤ k.val) := by decide
  have h1 : ∀ k : Fin 32, (0xFFFFFFFF : Word).getLsbD k = true := by decide
  have field : (if w = 3 then (1 : Word) else if w = 0 then 0xFFFFFFFC else 0xFFFFFFFF).getLsbD i =
      ((w != 3 || i == 0) && (w != 0 || decide (2 ≤ i))) := by
    split
    · rename_i h
      subst h
      rw [h3 ⟨i, hi⟩]
      simp
    · split
      · rename_i h
        subst h
        rw [h0 ⟨i, hi⟩]
        simp
      · rename_i h h'
        rw [h1 ⟨i, hi⟩]
        simp [h, h']
  simp only [msixNew, BitVec.getLsbD_or, BitVec.getLsbD_and, BitVec.getLsbD_not, getLsbD_beMask be hi, field, hi, decide_true,
    Bool.true_and, Bool.and_assoc]
  generalize (be.testBit (i / 8) && ((w != 3 || i == 0) && (w != 0 || decide (2 ≤ i)))) = on
  cases on <;> simp

/-- The state with word w of vector v's entry replaced. -/
def State.putMsix (s : State) (v w : Nat) (x : Word) : State :=
  { s with host := { s.host with msix := SMap.set (if w = 3 then 1 else 0) s.host.msix (4 * v + w) x } }

theorem State.msixWord_putMsix (s : State) (v w : Nat) (x : Word) {p q : Nat} (hw : w < 4) (hq : q < 4) :
    (s.putMsix v w x).msixWord p q = if p = v ∧ q = w then x else s.msixWord p q := by
  unfold State.msixWord State.putMsix
  dsimp only
  by_cases e : p = v ∧ q = w
  · rw [if_pos e]
    obtain ⟨rfl, rfl⟩ := e
    exact SMap.get_set_same ..
  · rw [if_neg e]
    exact SMap.get_set_ne _ _ _ _ (by omega)

theorem State.writeMsix_eq (s : State) {v w : Nat} (hw : w < 4) (data : Word) (be : Nat) :
    let old := s.msixWord v w
    let new := msixNew w old data be
    s.writeMsix (4 * v + w) data be =
      if w = 3 && old.getLsbD 0 && !new.getLsbD 0 && s.host.pba.testBit v && s.vecCond v then (s.putMsix v w new).sendVec v
      else s.putMsix v w new := by
  have hv : (4 * v + w) / 4 = v := by omega
  have hm : (4 * v + w) % 4 = w := by omega
  unfold State.writeMsix
  rw [hv, hm]
  rfl

theorem State.shut_putMsix (s : State) (v w : Nat) (x : Word) : (s.putMsix v w x).host.shut = s.host.shut := rfl

/-! ### Register writes of the host -/

section
variable {addr be : Nat} {data same : Word} {rq : Req} {s : State}

theorem exec_registerWrite_memOn (hm : s.memOn = true)
    (hgo : ¬(addr / 4 * 4 = MBX_GO ∧ be.testBit 0 = true ∧ data.getLsbD 0 = true)) :
    exec (.registerWrite addr data be ⟨rq, same⟩) s = registerWrite addr data be rq same s := by
  change s.memWrite rq addr (fun s => s.writeReg addr data be ⟨rq, same⟩) = _
  rw [State.memWrite, if_pos hm, State.writeReg, if_neg (by simpa [and_assoc] using hgo)]

/-- While the function does not take memory requests, a write is an unsupported request (R312, R313). -/
theorem exec_registerWrite_memOff (hm : s.memOn = false) :
    exec (.registerWrite addr data be ⟨rq, same⟩) s = .next (s.elog 0x0A rq.vc rq.hdr addr) := by
  change s.memWrite rq addr (fun s => s.writeReg addr data be ⟨rq, same⟩) = _
  rw [State.memWrite, if_neg (by simp [hm])]
  rfl

theorem registerWrite_register (ha : s.answers (addr / 4 * 4) = true)
    (hx : ¬(bar4Base + 0x8000 ≤ addr / 4 * 4 ∧ addr / 4 * 4 < bar4Base + 0x8400)) (hr : (regAt (addr / 4 * 4)).isSome = true)
    (hf : maskAt (addr / 4 * 4) .sh = 0 ∨ (s.com (grpOf (addr / 4 * 4))).frozen = false) :
    registerWrite addr data be rq same s = .next (s.storeReg (addr / 4 * 4) data be same) := by
  have hnf : ¬(maskAt (addr / 4 * 4) .sh != 0 && (s.com (grpOf (addr / 4 * 4))).frozen) = true := by
    rcases hf with h | h <;> simp [h]
  unfold registerWrite
  dsimp only
  rw [if_neg (by simp [ha]), if_neg (by simpa using hx), if_neg (by simpa [Option.isSome_iff_ne_none] using hr), if_neg hnf]

theorem registerWrite_reserved (ha : s.answers (addr / 4 * 4) = true)
    (hx : ¬(bar4Base + 0x8000 ≤ addr / 4 * 4 ∧ addr / 4 * 4 < bar4Base + 0x8400)) (hr : regAt (addr / 4 * 4) = none) :
    registerWrite addr data be rq same s = .next s := by
  unfold registerWrite
  dsimp only
  rw [if_neg (by simp [ha]), if_neg (by simpa using hx), if_pos (by simp [hr])]

/-- BAR4 always answers. -/
theorem State.answers_bar4 (s : State) {a : Nat} (h : bar4Base ≤ a) : s.answers a = true := by
  unfold State.answers
  rw [if_neg]
  simp only [bar4Base] at h
  simp
  omega

theorem registerWrite_msix {v w : Nat} (hv : v < 64) (hw : w < 4) :
    registerWrite (bar4Base + 0x8000 + 16 * v + 4 * w) data be rq same s = .next (s.writeMsix (4 * v + w) data be) := by
  have ha : (bar4Base + 0x8000 + 16 * v + 4 * w) / 4 * 4 = bar4Base + 0x8000 + 16 * v + 4 * w := by
    simp only [bar4Base]
    omega
  have hk : (bar4Base + 0x8000 + 16 * v + 4 * w - bar4Base - 0x8000) / 4 = 4 * v + w := by omega
  have hs : s.answers (bar4Base + 0x8000 + 16 * v + 4 * w) = true := s.answers_bar4 (by omega)
  unfold registerWrite
  dsimp only
  rw [ha, if_neg (by simp [hs]), if_pos (by simp; omega), hk]

end

theorem State.rd_storeReg_same (s : State) {a : Nat} (data : Word) (be : Nat) (same : Word) (h4 : a % 4 = 0) (ha : ∀ n, a ≠ CH_ENG_STAT n)
    (hd : ∀ d ∈ s.dma.map (·.1), d < 32) : (s.storeReg a data be same).rd a = storeBits a (s.rd a) data be same := by
  rw [rd_storeReg, rd_putReg s data be same h4 ha, rd_wr_same]
  rintro ⟨k, -, rfl⟩ d hm
  have := hd d hm
  simp only [DMA_REQ_TOK, DMA_CH_STAT]
  omega
theorem State.rd_storeReg_ne (s : State) {a b : Nat} (data : Word) (be : Nat) (same : Word) (h4 : a % 4 = 0) (hne : b ≠ a)
    (hb : ∀ n, b ≠ CH_ENG_STAT n) (htok : (∃ k, k < 64 ∧ a = DMA_REQ_TOK k) → ∀ d ∈ s.dma.map (·.1), b ≠ DMA_CH_STAT d) :
    (s.storeReg a data be same).rd b = s.rd b := by
  rw [rd_storeReg, rd_putReg s data be same h4 hb htok, rd_wr_ne _ _ hne]

/-! ### What a write of the MSI-X table does (R318) -/

theorem State.writeMsix_or (s : State) {v w : Nat} (hw : w < 4) (data : Word) (be : Nat) :
    s.writeMsix (4 * v + w) data be = s.putMsix v w (msixNew w (s.msixWord v w) data be) ∨
    s.writeMsix (4 * v + w) data be = (s.putMsix v w (msixNew w (s.msixWord v w) data be)).sendVec v := by
  rw [s.writeMsix_eq hw data be]
  split
  · exact .inr rfl
  · exact .inl rfl

theorem State.msixWord_writeMsix (s : State) {v w x y : Nat} (hw : w < 4) (hy : y < 4) (data : Word) (be : Nat) :
    (s.writeMsix (4 * v + w) data be).msixWord x y = if x = v ∧ y = w then msixNew w (s.msixWord v w) data be else s.msixWord x y := by
  rcases s.writeMsix_or hw data be with e | e
  · rw [e, s.msixWord_putMsix v w _ hw hy]
  · rw [e, msixWord_sendVec, s.msixWord_putMsix v w _ hw hy]

theorem State.writeMsix_frame (s : State) {v w : Nat} (hw : w < 4) (data : Word) (be : Nat) :
    s.writeMsix (4 * v + w) data be = { s with host := (s.writeMsix (4 * v + w) data be).host } := by
  rcases s.writeMsix_or hw data be with e | e
  · rw [e]
    rfl
  · obtain ⟨p, m, c, r, e'⟩ := (s.putMsix v w (msixNew w (s.msixWord v w) data be)).sendVec_eq v
    rw [e, e']
    rfl

/-- Clearing a vector's mask sends its pending message while its condition is true. -/
theorem State.writeMsix_unmask (s : State) {v : Nat} (hv : v < 64) {data : Word} {be : Nat} (hold : (s.msixWord v 3).getLsbD 0 = true)
    (hbe : be.testBit 0 = true) (hdata : data.getLsbD 0 = false) (hp : s.host.pba.testBit v = true) (hc : s.vecCond v = true)
    (hs : s.host.shut = false) :
    (s.writeMsix (4 * v + 3) data be).host.pba.testBit v = false ∧
    SMap.get 0 (s.writeMsix (4 * v + 3) data be).host.sent v = SMap.get 0 s.host.sent v + 1 := by
  have hnew : (msixNew 3 (s.msixWord v 3) data be).getLsbD 0 = false := by
    rw [getLsbD_msixNew _ _ _ (by decide), if_pos (by simp [hbe]), hdata]
  have hopen : ¬((s.putMsix v 3 (msixNew 3 (s.msixWord v 3) data be)).host.shut = true ∨
      ((s.putMsix v 3 (msixNew 3 (s.msixWord v 3) data be)).msixWord v 3).getLsbD 0 = true) := by
    rw [s.msixWord_putMsix v 3 _ (by decide) (by decide), if_pos ⟨rfl, rfl⟩, hnew, shut_putMsix, hs]
    decide
  have told := (s.putMsix v 3 (msixNew 3 (s.msixWord v 3) data be)).vecTold_sendVec hv
  rw [State.vecTold, if_neg hopen] at told
  rw [s.writeMsix_eq (by decide) data be, if_pos (by rw [hold, hnew, hp, hc]; rfl)]
  exact told

/-! ### Reserved addresses (R6) -/

/-- A structure bank is a memory of Table 19-2. -/
theorem bankOf_of_memAt {a : Nat} (h : memAt a = none) : bankOf a = none := by
  unfold memAt at h
  unfold bankOf
  dsimp only at *
  split
  · rename_i hs
    rw [if_pos hs] at h
    split at h
    · exact absurd h (by simp)
    · split at h
      · exact absurd h (by simp)
      · rename_i hb
        simp only [Bool.and_eq_true, decide_eq_true_eq] at hb
        rw [if_neg (by simp; omega), if_neg (by simp; omega)]
  · rfl

/-- CLU_INT_CH is a register of every cluster. -/
theorem regAt_intCh_isSome {a : Nat} (h0 : cluBase 0 ≤ a) (h1 : a < 0x5000000) (hy : a % 0x400000 = 0x80) : (regAt a).isSome = true := by
  simp only [cluBase, tileBase] at h0
  have hs : spaceOf a = (.clu, 0x80) := by
    unfold spaceOf
    rw [if_neg (by simp only [bar4Base]; omega), if_neg (by omega)]
    dsimp only
    rw [hy]
    rfl
  have hin : (decide (a < 0x5000000) || decide (bar4Base ≤ a)) = true := by simp [h1]
  unfold regAt
  rw [if_pos hin, hs]
  decide

theorem State.readBar4_reserved (s : State) {o : Nat} (h : 0xA000 ≤ o) : s.readBar4 o = 0 := by
  unfold State.readBar4
  rw [if_neg (by omega), if_neg (by simp; omega), if_neg (by simp; omega), if_neg (by simp; omega), if_neg (by omega),
    if_neg (by omega)]

theorem State.readReg_reserved (s : State) {a vc : Nat} (hr : regAt a = none) (hm : memAt a = none)
    (h4 : bar4Base ≤ a → 0xA000 ≤ a - bar4Base) : s.readReg a vc = 0 := by
  have hlo : isLo a = false := by simp [isLo, hr]
  have hhi : isHi a = false := by simp [isHi, hr]
  have hid : a ≠ HUB_ID := by rintro rfl; exact absurd hr (by decide)
  have htst : a ≠ TST_IDCODE := by rintro rfl; exact absurd hr (by decide)
  have hint : ¬((decide (cluBase 0 ≤ a) && decide (a < 0x5000000)) && a % 0x400000 == 0x80) = true := by
    simp only [Bool.and_eq_true, decide_eq_true_eq, beq_iff_eq]
    rintro ⟨⟨h0, h1⟩, hy⟩
    have := regAt_intCh_isSome h0 h1 hy
    rw [hr] at this
    exact absurd this (by decide)
  unfold State.readReg
  simp only [hm, bankOf_of_memAt hm, hr, hlo, hhi, hid, htst, if_neg hint, Option.isSome_none, Option.any_none,
    Bool.or_self, Bool.false_eq_true, if_false]
  split
  · rfl
  · split
    · exact s.readBar4_reserved (h4 ‹_›)
    · rfl

end Sys2Proof.Machine

open Sys2Proof Sys2Proof.Machine

/-- Settles O6: a write stores the register's bits (`storeReg`), a reserved address takes none, the MSI-X table takes its word, and without
Memory Space Enable the request is logged. -/
theorem registerWriteBits : Obligations.RegisterWriteBits := by
  unfold Obligations.RegisterWriteBits
  refine ⟨?register, ?reserved, fun a vc s => s.readReg_reserved, ?msix, ?off⟩
  case register =>
    intro addr be data same rq s hr hx ha hm hf hgo heng hd
    have h4 : addr / 4 * 4 % 4 = 0 := Nat.mul_mod_left ..
    refine ⟨s.storeReg (addr / 4 * 4) data be same, ?_, fun i hi => ?_, fun b hb hbe htok => ?_, s.quiet_storeReg .., ?_⟩
    · rw [exec_registerWrite_memOn hm hgo, registerWrite_register ha hx hr hf]
    · rw [s.rd_storeReg_same data be same h4 heng hd, getLsbD_storeBits s _ data be same hi]
    · exact s.rd_storeReg_ne data be same h4 hb hbe fun hk d hmem => htok hk d (hd d hmem)
    · exact fun v hv hc => s.vecTold_storeReg _ data be same hv hc
  case reserved =>
    intro addr be data same rq s hm ha hr hx
    have hgo : addr / 4 * 4 ≠ MBX_GO := by
      intro e
      rw [e] at hr
      exact absurd hr (by decide)
    rw [exec_registerWrite_memOn hm (fun h => hgo h.1), registerWrite_reserved ha hx hr]
  case msix =>
    intro v w be data same rq s hm hv hw
    have hgo : (bar4Base + 0x8000 + 16 * v + 4 * w) / 4 * 4 ≠ MBX_GO := by
      simp only [bar4Base, MBX_GO]
      omega
    refine ⟨s.writeMsix (4 * v + w) data be, ?_, fun i hi => ?_, fun x y hy hne => ?_, s.writeMsix_frame hw data be, ?_⟩
    · rw [exec_registerWrite_memOn hm (fun h => hgo h.1), registerWrite_msix hv hw]
    · rw [s.msixWord_writeMsix hw hw, if_pos ⟨rfl, rfl⟩, getLsbD_msixNew _ _ _ hi]
    · rw [s.msixWord_writeMsix hw hy, if_neg (by omega)]
    · rintro rfl hold hbe hdata hp hc hs
      exact s.writeMsix_unmask hv hold hbe hdata hp hc hs
  case off =>
    intro addr be data same rq s hm hrep
    exact ⟨_, exec_registerWrite_memOff hm, s.elog_new _ _ _ _ hrep, s.elogged_elog .., fun x hx => s.rd_elog_ne _ _ _ _ hx⟩

end

section
/-!
What a host read of a register does: the latch of a pair, the completion, and the errors of the memories of Table 19-2 on the way.
-/

namespace Sys2Proof.Machine

/-! ### Corrected and uncorrectable errors (R387) -/

theorem fWord_get (w : Word) : fWord.get w = w.toNat := by
  simp [Fld.get, fWord]
  omega
theorem toNat_fWord_put (w : Word) {v : Nat} (h : v < 2 ^ 32) : (fWord.put w v).toNat = v := by
  rw [← fWord_get, Fld.get_put _ _ _ (by decide)]
  exact Nat.mod_eq_of_lt h

theorem Fld.put_put (f : Fld) (w : Word) (v x : Nat) : f.put (f.put w v) x = f.put w x := by
  apply BitVec.eq_of_getLsbD_eq
  intro i hi
  rw [getLsbD_put f (f.put w v) x i hi, getLsbD_put f w v i hi, getLsbD_put f w x i hi]
  split <;> rfl

/-- Corrected errors of one read. -/
def State.eccCes (s : State) (n : Nat) : State := (List.range n).foldl (fun t _ => t.eccCe) s

theorem State.eccCes_succ (s : State) (n : Nat) : s.eccCes (n + 1) = (s.eccCes n).eccCe := by
  simp [State.eccCes, List.range_succ]

theorem State.onlyRegs_eccCe (s : State) : s.onlyRegs s.eccCe := (s.onlyRegs_incSat ..).trans (State.onlyRegs_raise ..)
theorem State.onlyRegs_eccCes (s : State) (n : Nat) : s.onlyRegs (s.eccCes n) :=
  List.foldlRecOn (motive := fun t : State => s.onlyRegs t) _ _ (.refl s) fun t ht _ _ => ht.trans t.onlyRegs_eccCe

theorem State.rd_incSat_ne (s : State) {a b : Nat} (f : Fld) (h : b ≠ a) : (s.incSat a f).rd b = s.rd b := by
  unfold State.incSat
  dsimp only
  split
  · exact rd_setFld_ne _ _ _ h
  · rfl
theorem State.toNat_rd_incSat (s : State) (a : Nat) :
    ((s.incSat a fWord).rd a).toNat = min (2 ^ 32 - 1) ((s.rd a).toNat + 1) := by
  have hlt := (s.rd a).isLt
  unfold State.incSat State.fld
  dsimp only
  rw [fWord_get]
  split
  · rename_i h
    rw [rd_setFld_same, toNat_fWord_put _ h]
    simp only [fWord] at h
    omega
  · rename_i h
    simp only [fWord] at h
    omega

theorem State.rd_eccCe_ne (s : State) {a : Nat} (h : a ∉ [HUB_ECC_CE, HUB_ECC_STAT]) : s.eccCe.rd a = s.rd a := by
  simp only [List.mem_cons, List.not_mem_nil, or_false, not_or] at h
  obtain ⟨hce, hst⟩ := h
  rw [State.eccCe, rd_raise_ne _ _ hst, rd_incSat_ne _ _ hce]
theorem State.rd_eccCes_ne (s : State) (n : Nat) {a : Nat} (h : a ∉ [HUB_ECC_CE, HUB_ECC_STAT]) : (s.eccCes n).rd a = s.rd a :=
  List.foldlRecOn (motive := fun t : State => t.rd a = s.rd a) _ _ rfl fun t ht _ _ => (t.rd_eccCe_ne h).trans ht

theorem State.toNat_rd_eccCes (s : State) (n : Nat) :
    ((s.eccCes n).rd HUB_ECC_CE).toNat = min (2 ^ 32 - 1) ((s.rd HUB_ECC_CE).toNat + n) := by
  induction n with
  | zero =>
    have hlt := (s.rd HUB_ECC_CE).isLt
    change (s.rd HUB_ECC_CE).toNat = _
    omega
  | succ n ih =>
    rw [eccCes_succ, State.eccCe, rd_raise_ne _ _ (by decide), toNat_rd_incSat, ih]
    omega
theorem State.rd_stat_eccCes (s : State) {n : Nat} (h : 0 < n) :
    (s.eccCes n).rd HUB_ECC_STAT = fHUB_ECC_STAT_CE.put (s.rd HUB_ECC_STAT) 1 := by
  have one : ∀ t : State, t.eccCe.rd HUB_ECC_STAT = fHUB_ECC_STAT_CE.put (t.rd HUB_ECC_STAT) 1 := by
    intro t
    rw [State.eccCe, rd_raise_same, rd_incSat_ne _ _ (by decide)]
  induction n with
  | zero => exact absurd h (by decide)
  | succ n ih =>
    rw [eccCes_succ, one]
    cases n with
    | zero => rfl
    | succ n => rw [ih (by omega), Fld.put_put]

/-- A cause's bit of HUB_FAULT_STAT is set beside ASSERTED and PIN_LOW. -/
theorem State.getLsbD_raiseFault (s : State) {b : Nat} (h2 : 2 ≤ b) (hb : b < 32) :
    ((s.raiseFault b).rd HUB_FAULT_STAT).getLsbD b = true := by
  have hbit : ∀ (f : Fld) (w : Word), f.lsb + f.width ≤ 2 → (f.put w 1).getLsbD b = w.getLsbD b := by
    intro f w hf
    rw [Fld.getLsbD_put _ _ _ _ hb, if_neg (by omega)]
  unfold State.raiseFault
  rw [rd_hubEvent, rd_raise_ne _ _ (by decide), rd_raiseIf_same]
  have on : (({ s with faultTick := some s.tick }.setBitAt HUB_FAULT_STAT b).raise HUB_FAULT_STAT fHUB_FAULT_STAT_ASSERTED).rd
      HUB_FAULT_STAT |>.getLsbD b := by
    rw [rd_raise_same, hbit _ _ (by decide), rd_setBitAt_same, BitVec.getLsbD_or, BitVec.getLsbD_ofNat, Nat.testBit_two_pow_self]
    simp [hb]
  split
  · rw [hbit _ _ (by decide)]
    exact on
  · exact on

/-- The registers that the report of an uncorrectable error may change. -/
def eccRegs : List Nat := [HUB_ECC_STAT, HUB_ECC_ADDR, HUB_ECC_UE, HUB_FAULT_STAT, HUB_INT_STAT, MBX_EVT_STAT]

theorem State.rd_eccUe_ne (s : State) (mem clu a : Nat) {x : Nat} (h : x ∉ eccRegs) : (s.eccUe mem clu a).rd x = s.rd x := by
  simp only [eccRegs, List.mem_cons, List.not_mem_nil, or_false, not_or] at h
  obtain ⟨hstat, haddr, hue, hfault, hint, hevt⟩ := h
  rw [State.eccUe, rd_logEv_ne _ _ _ _ _ _ _ hevt, State.eccLoad, rd_raiseFault_ne _ _ hfault hint, rd_incSat_ne _ _ hue,
    rd_wr_ne _ _ haddr, rd_raise_ne _ _ hstat, rd_setFld_ne _ _ _ hstat, rd_setFld_ne _ _ _ hstat]

theorem State.rd_addr_eccUe (s : State) (mem clu a : Nat) : (s.eccUe mem clu a).rd HUB_ECC_ADDR = BitVec.ofNat 32 a := by
  rw [State.eccUe, rd_logEv_ne _ _ _ _ _ _ _ (by decide), State.eccLoad, rd_raiseFault_ne _ _ (by decide) (by decide),
    rd_incSat_ne _ _ (by decide), rd_wr_same]

theorem State.mem_eccUe (s : State) {mem : Nat} (clu a : Nat) (h : mem < 16) :
    fHUB_ECC_STAT_MEM.get ((s.eccUe mem clu a).rd HUB_ECC_STAT) = mem := by
  rw [State.eccUe, rd_logEv_ne _ _ _ _ _ _ _ (by decide), State.eccLoad, rd_raiseFault_ne _ _ (by decide) (by decide),
    rd_incSat_ne _ _ (by decide), rd_wr_ne _ _ (by decide), rd_raise_same, Fld.get_put_ne _ _ _ _ (by decide), rd_setFld_same,
    Fld.get_put_ne _ _ _ _ (by decide), rd_setFld_same, Fld.get_put _ _ _ (by decide)]
  exact Nat.mod_eq_of_lt h

theorem State.fault_eccUe (s : State) (mem clu a : Nat) : ((s.eccUe mem clu a).rd HUB_FAULT_STAT).getLsbD 13 = true := by
  rw [State.eccUe, rd_logEv_ne _ _ _ _ _ _ _ (by decide)]
  exact getLsbD_raiseFault _ (by decide) (by decide)

/-- Beside the report, an uncorrectable error of a memory changes at most the registers of the standby bank it lies in. -/
theorem State.rd_memUe (s : State) (mem clu addr : Nat) {x : Nat}
    (h : ∀ g b, bankOf addr = some (g, b) → x ≠ CLU_BANK_STAT g ∧ x ≠ CLU_STBY_ID g) :
    (s.memUe mem clu addr).rd x = (s.eccUe mem (if 1 ≤ mem && mem ≤ 4 then clu else 0) addr).rd x := by
  unfold State.memUe
  dsimp only
  generalize s.eccUe mem (if 1 ≤ mem && mem ≤ 4 then clu else 0) addr = u
  split
  · rfl
  · split
    · split
      · rename_i g b hb
        obtain ⟨hstat, hid⟩ := h g b hb
        split
        · rfl
        · rw [State.stbyCode, rd_wr_ne _ _ hid, State.updStat, rd_setFld_ne _ _ _ hstat, State.updStat, rd_setFld_ne _ _ _ hstat]
      · rfl
    · rfl

/-! ### The memories of Table 19-2 -/

theorem memAt_code {a m g : Nat} (h : memAt a = some (m, g)) : m < 16 := by
  unfold memAt at h
  dsimp only at h
  repeat' split at h
  all_goals simp at h
  all_goals omega

theorem bankOf_memAt {a m g g' b : Nat} (h : memAt a = some (m, g)) (hb : bankOf (a / 4 * 4) = some (g', b)) : g' = g := by
  have hg : g = (a - 0x1000000) / 0x400000 := by
    unfold memAt at h
    dsimp only at h
    repeat' split at h
    all_goals simp at h
    all_goals omega
  have hg' : g' = (a / 4 * 4 - 0x1000000) / 0x400000 := by
    unfold bankOf at hb
    dsimp only at hb
    repeat' split at hb
    all_goals simp at hb
    all_goals omega
  omega

/-- The hub's registers lie below those of every cluster. -/
theorem ne_clu_of_lt {x g : Nat} (h : x < 0x1000000) : x ≠ CLU_BANK_STAT g ∧ x ≠ CLU_STBY_ID g := by
  simp only [CLU_BANK_STAT, CLU_STBY_ID, cluBase, tileBase]
  omega

/-! ### Reads of a register (R17, R313) -/

theorem State.loadLatch_lo (s : State) {a vc : Nat} (hl : isLo a = true) (ha : s.answers a = true) :
    s.loadLatch a vc = { s with latches := SMap.set 0 s.latches (2 * a + vc % 2) (BitVec.ofNat 32 (s.pair a / 2 ^ 32)) } := by
  rw [State.loadLatch, if_pos (by simp [hl, ha])]
theorem State.loadLatch_other (s : State) {a vc : Nat} (h : isLo a = false ∨ s.answers a = false) : s.loadLatch a vc = s := by
  rw [State.loadLatch, if_neg (by rcases h with h | h <;> simp [h])]

/-- A _HI register returns its pair's latch (R17). -/
theorem State.readReg_hi (s : State) {a vc : Nat} (ha : s.answers a = true) (hm : memAt a = none) (h4 : a < bar4Base) (hid : a ≠ HUB_ID)
    (htst : a ≠ TST_IDCODE) (hlo : isLo a = false) (hhi : isHi a = true) :
    s.readReg a vc = SMap.get 0 s.latches (2 * (a - 4) + vc % 2) := by
  simp [State.readReg, ha, hm, bankOf_of_memAt hm, hid, htst, hlo, hhi, Nat.not_le.2 h4]

section
variable {a : Nat} {s : State}

/-- A read that meets no memory of Table 19-2 loads the latch, and completes. -/
theorem exec_readLoLatch_plain (rd : RegRead) (hm : s.memOn = true) (hn : memAt a = none ∨ s.answers a = false) :
    exec (.readLoLatch a rd) s = .next ((s.loadLatch a rd.req.vc).complete rd.req 0 false 4) := by
  have hf : (memAt a).filter (fun _ => s.answers a) = none := by rcases hn with h | h <;> simp [h]
  change execReadLoLatch a rd s = _
  unfold execReadLoLatch
  rw [if_pos hm]
  dsimp only
  rw [hf]

/-- A read that a memory of Table 19-2 answers counts the errors that were corrected. -/
theorem exec_readLoLatch_ce {m g : Nat} (rq : Req) (ce : Nat) (hm : s.memOn = true) (hl : isLo a = false) (ha : s.answers a = true)
    (hmem : memAt a = some (m, g)) : exec (.readLoLatch a ⟨rq, ⟨ce, none⟩⟩) s = .next ((s.eccCes ce).complete rq 0 false 4) := by
  change execReadLoLatch a ⟨rq, ⟨ce, none⟩⟩ s = _
  unfold execReadLoLatch
  rw [if_pos hm, s.loadLatch_other (.inl hl), hmem, ha]
  rfl

/-- One that it cannot correct is reported, and sets EP where the capture buffer answers. -/
theorem exec_readLoLatch_ue {m g : Nat} (rq : Req) (ce u : Nat) (hm : s.memOn = true) (hl : isLo a = false) (ha : s.answers a = true)
    (hmem : memAt a = some (m, g)) : exec (.readLoLatch a ⟨rq, ⟨ce, some u⟩⟩) s =
      .next (((s.eccCes ce).memUe m g (a / 4 * 4)).complete rq 0 (m = 4) 4) := by
  change execReadLoLatch a ⟨rq, ⟨ce, some u⟩⟩ s = _
  unfold execReadLoLatch
  rw [if_pos hm, s.loadLatch_other (.inl hl), hmem, ha]
  rfl

/-- While the function does not take memory requests, a read is an unsupported request (R312, R313). -/
theorem exec_readLoLatch_memOff (rd : RegRead) (hm : s.memOn = false) :
    exec (.readLoLatch a rd) s = .next ((s.elog 0x0A rd.req.vc rd.req.hdr a).complete rd.req 1 false 0) := by
  change execReadLoLatch a rd s = _
  unfold execReadLoLatch
  rw [if_neg (by simp [hm])]
  rfl

end

theorem State.quiet_complete (s : State) (rq : Req) (status : Nat) (ep : Bool) (len : Nat) : s.quiet (s.complete rq status ep len) :=
  ⟨rfl, rfl⟩
@[simp] theorem State.rd_complete (s : State) (rq : Req) (status : Nat) (ep : Bool) (len a : Nat) :
    (s.complete rq status ep len).rd a = s.rd a := rfl
/-- The last of what is ready to go out is the completion. -/
theorem State.kind_complete (s : State) (rq : Req) (status : Nat) (ep : Bool) (len : Nat) :
    ((s.complete rq status ep len).host.ready.getLast?).map (·.kind) = some (.completion status ep len) := by
  simp [State.complete]

end Sys2Proof.Machine

open Sys2Proof Sys2Proof.Machine

/-- Settles O8: the cases of a read by what answers it. -/
theorem readLoadsLatch : Obligations.ReadLoadsLatch := by
  unfold Obligations.ReadLoadsLatch
  refine ⟨?lo, ?plain, ?corrected, ?uncorrectable, ?off⟩
  case lo =>
    intro a rd s hm hl ha hmem
    refine ⟨_, (exec_readLoLatch_plain rd hm (.inl hmem)).trans (by rw [s.loadLatch_lo hl ha]), SMap.get_set_same .., ?_, rfl, ?_⟩
    · exact fun k hk => SMap.get_set_ne _ _ _ _ hk
    · intro hhi hlo hans hmem4 h4 hid htst
      refine (State.readReg_hi _ ?_ hmem4 h4 hid htst hlo hhi).trans (SMap.get_set_same ..)
      exact hans
  case plain =>
    intro a rd s hm hl hmem
    rw [exec_readLoLatch_plain rd hm hmem, s.loadLatch_other hl]
  case corrected =>
    intro a m g ce rq s hm hl ha hmem
    have host : (s.eccCes ce).host = s.host := by rw [s.onlyRegs_eccCes ce]
    refine ⟨_, exec_readLoLatch_ce rq ce hm hl ha hmem, ?_, s.toNat_rd_eccCes ce, s.rd_stat_eccCes, fun x hx => ?_,
      (s.onlyRegs_eccCes ce).quiet.trans (State.quiet_complete ..)⟩
    · simp only [State.complete, host]
    · rcases Nat.eq_zero_or_pos ce with rfl | hce
      · rfl
      · exact s.rd_eccCes_ne ce (hx hce)
  case uncorrectable =>
    intro a m g ce u rq s hm hl ha hmem
    have same : ∀ x, (∀ g' b, bankOf (a / 4 * 4) = some (g', b) → x ≠ CLU_BANK_STAT g' ∧ x ≠ CLU_STBY_ID g') →
        (((s.eccCes ce).memUe m g (a / 4 * 4)).complete rq 0 (m = 4) 4).rd x =
          ((s.eccCes ce).eccUe m (if 1 ≤ m && m ≤ 4 then g else 0) (a / 4 * 4)).rd x := fun x hx => State.rd_memUe _ _ _ _ hx
    have hub : ∀ x, x < 0x1000000 → _ := fun x hx => same x fun _ _ _ => ne_clu_of_lt hx
    refine ⟨_, exec_readLoLatch_ue rq ce u hm hl ha hmem, ?_, ?_, ?_, State.kind_complete .., fun x hx => ?_⟩
    · rw [hub _ (by decide), State.rd_addr_eccUe]
    · rw [hub _ (by decide), State.mem_eccUe _ _ _ (memAt_code hmem)]
    · rw [hub _ (by decide), State.fault_eccUe]
    · simp only [List.mem_cons, List.not_mem_nil, or_false, not_or] at hx
      obtain ⟨hstat, haddr, hce, hue, hfault, hint, hevt, hbank, hid⟩ := hx
      rw [same x fun g' b hb => bankOf_memAt hmem hb ▸ ⟨hbank, hid⟩, State.rd_eccUe_ne _ _ _ _ (by simp [eccRegs, *]),
        s.rd_eccCes_ne ce (by simp [*])]
  case off =>
    intro a rd s hm hrep
    exact ⟨_, _, exec_readLoLatch_memOff rd hm, s.elog_new _ _ _ _ hrep, s.elogged_elog .., fun x hx => s.rd_elog_ne _ _ _ _ hx, rfl⟩

end

section
/-!
The statement of resets, boot and the Tally does not hold of every state: it judges a MOVE's wait for a token by the registers before the
reset, the model by those at the channel's turn. A MOVE's request line is a plain number in the state; a line of 8000, which no instruction
gives, would have its token register at PCI_LINK_STAT, which the reset changes.
-/

namespace Sys2Proof.Machine

/-- A host MOVE of one line, under way, whose request line would have its token register at PCI_LINK_STAT. -/
def strayMove : MoveSt :=
  { ssp := 2, dsp := 0, barrier := false, reqEn := true, req := (PCI_LINK_STAT - DMA_REQ_TOK 0) / 4, shuf := 0, factor := 0, esize := 0,
    src := 0, dst := 0, len := 64, stride := 0, lines := 0 }

/-- DMA channel 0 runs that MOVE; PCI_LINK_STAT shows WIDTH 1, which reads as one token: before the reset it does not wait for one. -/
def strayState : State :=
  { regs := [(DMA_CH_STAT 0, 1), (PCI_LINK_STAT, 1)], dma := [(0, { move := some strayMove })] }

/-- The reset has cleared WIDTH when channel 0 is judged: its MOVE waits for a token, and the channel is not stopped. -/
theorem strayState_runs : (strayState.endpointReset false).dmaState 0 = dmRunning := by decide +kernel

end Sys2Proof.Machine

open Sys2Proof Sys2Proof.Machine

/-- Refutes O58: after a Hot Reset of `strayState` channel 0 still runs, where the statement has it stopped with LINK_DOWN. -/
theorem not_resetsAndBoot : ¬ Obligations.ResetsAndBoot := by
  unfold Obligations.ResetsAndBoot
  rintro ⟨-, -, reset, -⟩
  obtain ⟨t, ht, -, -, -, -, -, -, stopped, -⟩ := reset false strayState (by decide)
  obtain rfl : strayState.endpointReset false = t := Host.Outcome.next.inj ht
  obtain ⟨halted, -, -⟩ := stopped 0 (by decide) (by decide +kernel)
  rw [strayState_runs] at halted
  exact absurd halted (by decide)

end

section
/-!
Every step keeps the addressed memories canonical.
-/

namespace Sys2Proof.Machine

/-- A command that answers a next state from canonical memories leaves them canonical. -/
theorem memWf_of_exec {c : Instr} {s t : State} (h : s.memWf) (ht : exec c s = .next t) : t.memWf := by
  obtain ⟨u, hu, -, hw⟩ := exec_good (p := s.pending) (W := True) c s ⟨rfl, fun _ => h⟩
  cases hu.symm.trans ht
  exact hw trivial

end Sys2Proof.Machine

open Sys2Proof Sys2Proof.Machine

/-- Settles O4: an empty queue changes nothing, and taking a command off it leaves the memories to `memWf_of_exec`. -/
theorem memoriesStayCanonical : Obligations.MemoriesStayCanonical := by
  unfold Obligations.MemoriesStayCanonical
  intro s t h ht
  unfold step at ht
  split at ht
  next =>
    cases ht
    exact h
  next c rest hq => exact memWf_of_exec (s := { s with pending := rest }) h ht

end

section
/-!
A host write of a word of coefficient RAM.
-/

namespace Sys2Proof.Machine

/-- The bits that `m` selects come from the data, the others stay. -/
theorem getLsbD_masked (old data m : Word) {i : Nat} (hi : i < 32) :
    ((old &&& ~~~m) ||| (data &&& m)).getLsbD i = if m.getLsbD i then data.getLsbD i else old.getLsbD i := by
  simp only [BitVec.getLsbD_or, BitVec.getLsbD_and, BitVec.getLsbD_not, hi, decide_true, Bool.true_and]
  cases m.getLsbD i <;> simp

/-- Where word `w` of channel n's coefficient RAM lies: in a tile's span, at its place in a cluster. -/
theorem coefWord_place {n w : Nat} (hn : n < 512) (hw : w < 256) :
    0x1000000 ≤ chBase n + 0x800 + 4 * w ∧ chBase n + 0x800 + 4 * w < 0x5000000 ∧
    (chBase n + 0x800 + 4 * w) % 0x400000 = 0x10000 + 0x1000 * (n % 32) + 0x800 + 4 * w := by
  simp only [chBase, cluBase, tileBase]
  omega

section
variable {n w addr : Nat} (be : Nat) (data : Word) (rq : Req) {s : State}

/-- A write of a word of coefficient RAM reaches it where its tile's span answers, and is discarded at that span otherwise. -/
theorem exec_coefficientWindowWrite (hn : n < 512) (hw : w < 256) (ha : addr / 4 * 4 = chBase n + 0x800 + 4 * w) (hm : s.memOn = true) :
    exec (.coefficientWindowWrite addr data be rq) s = .next
      (if s.answers (addr / 4 * 4) = true then
        State.wr { s with
            coefBad := s.coefBad.erase (addr / 4 * 4)
            coefOld := if s.coefOld.any (fun e => e.1 == addr / 4 * 4) then s.coefOld
              else SMap.insert (addr / 4 * 4) (s.rd (addr / 4 * 4)) s.coefOld }
          (addr / 4 * 4) ((s.rd (addr / 4 * 4) &&& ~~~(beMask be &&& coefBits (0x800 + 4 * w))) |||
            (data &&& (beMask be &&& coefBits (0x800 + 4 * w))))
      else s.discardReq ((addr / 4 * 4 - 0x1000000) / 0x1000000) (addr / 4 * 4) rq) := by
  obtain ⟨lo, hi, place⟩ := coefWord_place hn hw
  change s.memWrite rq addr (fun s => s.writeCoef addr data be rq) = _
  rw [State.memWrite, if_pos hm, State.writeCoef]
  dsimp only
  have off : (chBase n + 0x800 + 4 * w) % 0x400000 % 0x1000 = 0x800 + 4 * w := by omega
  rw [ha, off, place, if_pos (by simp only [Bool.and_eq_true, decide_eq_true_eq]; omega)]
  split
  · split <;> rfl
  · rfl

end

end Sys2Proof.Machine

open Sys2Proof Sys2Proof.Machine

/-- Settles O19: the write puts the enabled bits that are not reserved into the word's register, and notes the word as it was. -/
theorem coefficientWrites : Obligations.CoefficientWrites := by
  unfold Obligations.CoefficientWrites
  intro n w addr be data rq s hw ha hm hans a
  refine ⟨_, (exec_coefficientWindowWrite be data rq n.isLt hw ha hm).trans (by rw [if_pos hans]), fun i hi => ?_, rfl, rfl,
    fun x hx => ?_, rfl⟩
  · rw [State.rd_wr_same, getLsbD_masked _ _ _ hi, BitVec.getLsbD_and, getLsbD_beMask be hi]
  · exact State.rd_wr_ne _ _ (by simpa using hx)

end

section
/-!
Link errors, malformed requests and discarded writes in the link and error log.
-/

namespace Sys2Proof.Machine

/-! ### The log of two states (R327) -/

/-- `t` has the link and error log of `s`. -/
def State.sameElog (s t : State) : Prop := (∀ x, elogReg x → t.rd x = s.rd x) ∧ t.elogCount = s.elogCount

theorem State.sameElog_of_regs {s t : State} (h : t.regs = s.regs) (hc : t.elogCount = s.elogCount) : s.sameElog t :=
  ⟨fun x _ => State.rd_congr h x, hc⟩

theorem elogReg_stat : elogReg PCI_ELOG_STAT := .inr (.inl rfl)
theorem elogReg_int : elogReg PCI_INT_STAT := .inr (.inr (.inr (.inr (.inl rfl))))
theorem elogReg_seen (cls : Nat) : elogReg (if cls < 32 then PCI_ELOG_SEEN_LO else PCI_ELOG_SEEN_HI) := by
  split
  · exact .inr (.inr (.inl rfl))
  · exact .inr (.inr (.inr (.inl rfl)))

theorem State.elogRepeats_congr {s t : State} (h : s.sameElog t) (cls : Nat) (hdr : Tlp) :
    t.elogRepeats cls hdr = s.elogRepeats cls hdr := by
  obtain ⟨regs, count⟩ := h
  have stat : t.fld PCI_ELOG_STAT fPCI_ELOG_STAT_NEXT = s.fld PCI_ELOG_STAT fPCI_ELOG_STAT_NEXT :=
    congrArg _ (regs _ elogReg_stat)
  have slot : ∀ j, j < 8 → t.rd (PCI_ELOG ((s.fld PCI_ELOG_STAT fPCI_ELOG_STAT_NEXT + 63) % 64) j) =
      s.rd (PCI_ELOG ((s.fld PCI_ELOG_STAT fPCI_ELOG_STAT_NEXT + 63) % 64) j) :=
    fun j hj => regs _ (elogReg_ring (Nat.mod_lt _ (by decide)) hj)
  unfold State.elogRepeats
  dsimp only
  rw [stat, count, slot 0 (by decide), slot 1 (by decide), slot 2 (by decide)]

theorem State.elogEntry_congr {s t u : State} (h : s.sameElog t) {cls vc addr : Nat} {hdr : Tlp} (he : t.elogEntry u cls vc hdr addr) :
    s.elogEntry u cls vc hdr addr := by
  obtain ⟨regs, count⟩ := h
  have stat : t.fld PCI_ELOG_STAT fPCI_ELOG_STAT_NEXT = s.fld PCI_ELOG_STAT fPCI_ELOG_STAT_NEXT :=
    congrArg _ (regs _ elogReg_stat)
  unfold State.elogEntry at he ⊢
  dsimp only at he ⊢
  rw [stat, count, regs _ elogReg_int, regs _ (elogReg_seen cls)] at he
  exact he

/-- An event that does not repeat the newest entry of `s` makes a new one in any state with that log. -/
theorem State.elog_new_of_same {s t : State} (h : s.sameElog t) (cls vc : Nat) (hdr : Tlp) (addr : Nat)
    (hr : s.elogRepeats cls hdr = false) : s.elogEntry (t.elog cls vc hdr addr) cls vc hdr addr :=
  elogEntry_congr h (t.elog_new cls vc hdr addr ((elogRepeats_congr h cls hdr).trans hr))

/-! ### Requests that are refused -/

/-- A request that breaks R36 is logged, and one that is not posted answered with Completer Abort; while the function does not take memory
requests it is an unsupported one (R312, R313). -/
theorem exec_bar0RequestAbort (write : Bool) (addr : Nat) (rq : Req) (s : State) :
    exec (.bar0RequestAbort write addr rq) s = .next
      (if write then s.elog (if s.memOn then 0x0B else 0x0A) rq.vc rq.hdr addr
       else (s.elog (if s.memOn then 0x0B else 0x0A) rq.vc rq.hdr addr).complete rq (if s.memOn then 4 else 1) false 0) := by
  change execBar0RequestAbort write addr rq s = _
  unfold execBar0RequestAbort State.unsupported
  cases s.memOn <;> rfl

/-! ### Counters and Recovery -/

theorem State.fld_incSat (s : State) (a : Nat) (f : Fld) (hf : f.lsb + f.width ≤ 32) :
    (s.incSat a f).fld a f = min (2 ^ f.width - 1) (s.fld a f + 1) := by
  have hv : s.fld a f < 2 ^ f.width := Nat.mod_lt _ (Nat.two_pow_pos _)
  unfold State.incSat
  dsimp only
  split
  · rename_i h
    rw [fld_setFld_same _ _ _ _ hf h]
    omega
  · omega

/-- A counter leaves every field apart from it. -/
theorem State.fld_incSat_ne (s : State) (a : Nat) (f g : Fld) (h : g.lsb + g.width ≤ f.lsb ∨ f.lsb + f.width ≤ g.lsb) :
    (s.incSat a f).fld a g = s.fld a g := by
  unfold State.incSat
  dsimp only
  split
  · rw [State.fld, rd_setFld_same, Fld.get_put_ne _ _ _ _ h, State.fld]
  · rfl

theorem State.rd_linkEvent (s : State) (f : Fld) (a : Nat) :
    (s.linkEvent f).rd a = ((s.raise PCI_LINK_STAT f).raise PCI_INT_STAT fPCI_INT_STAT_LINK).rd a := rd_withVec ..
theorem State.quiet_linkEvent (s : State) (f : Fld) : s.quiet (s.linkEvent f) :=
  (s.quiet_raise ..).trans (State.quiet_withVec _ _ _ (State.quiet_raise ..))

theorem State.quiet_recovery (s : State) : s.quiet s.recovery := (s.quiet_linkEvent _).trans (State.quiet_incSat ..)
theorem State.regsOnly_recovery (s : State) : s.regsOnly s.recovery [PCI_LINK_STAT, PCI_INT_STAT] := by
  intro a ha
  simp only [List.mem_cons, List.not_mem_nil, or_false, not_or] at ha
  obtain ⟨hlink, hint⟩ := ha
  rw [State.recovery, rd_incSat_ne _ _ hlink, rd_linkEvent, rd_raise_ne _ _ hint, rd_raise_ne _ _ hlink]
theorem State.retrained_recovery (s : State) : s.recovery.bit PCI_LINK_STAT fPCI_LINK_STAT_RETRAINED = true := by
  have one : s.recovery.fld PCI_LINK_STAT fPCI_LINK_STAT_RETRAINED = 1 := by
    rw [State.recovery, fld_incSat_ne _ _ _ _ (by decide), State.fld, rd_linkEvent, rd_raise_ne _ _ (by decide), rd_raise_same,
      Fld.get_put _ _ _ (by decide)]
    rfl
  rw [State.bit, one]
  rfl

/-! ### The classes of link errors (Table 15-5) -/

/-- A receiver error of a lane is counted (R328). -/
def State.laneError (s : State) (lane : Nat) : State :=
  let t := s.incSat PCI_LANE_ERR (laneErrField lane)
  { t with host := { t.host with errTicks := (lane, s.tick) :: t.host.errTicks.filter (fun x => s.tick < x.2 + 2000) } }

theorem State.rd_laneError (s : State) (lane a : Nat) :
    (s.laneError lane).rd a = (s.incSat PCI_LANE_ERR (laneErrField lane)).rd a := rfl
theorem State.laneError_frame (s : State) (lane : Nat) : s.laneError lane =
    { s with regs := (s.laneError lane).regs, host := { s.host with errTicks := (s.laneError lane).host.errTicks } } := by
  have regs : s.onlyRegs (s.incSat PCI_LANE_ERR (laneErrField lane)) := s.onlyRegs_incSat ..
  unfold State.laneError
  dsimp only
  rw [regs]

/-- What follows the entry of a link error of a class (Table 15-5). -/
def State.afterLinkError (u : State) (cls addr : Nat) (rq : Req) : State :=
  if cls = 0xA then if Tlp.posted rq.hdr then u else u.complete rq 1 false 0
  else if cls = 1 then u.laneError (addr % 4)
  else if cls = 7 && Tlp.completion rq.hdr then u.dmaBusStop 2 3 addr
  else if cls = 9 then u.dmaBusStop 2 4 addr
  else if cls = 0xF then u.dmaBusStop 2 (Tlp.failKind rq.hdr) addr
  else if cls = 5 || cls = 0xC then u.recovery
  else u

/-- A link error has its entry, and what its class brings. -/
theorem exec_linkError {cls : Nat} (addr : Nat) (rq : Req) {s : State} (h1 : 1 ≤ cls) (h16 : cls < 16) (hb : cls ≠ 0xB)
    (he : cls = 0xE → s.host.cfg.ecrcCheck = true) :
    exec (.linkError cls addr rq) s = .next ((s.elog cls rq.vc rq.hdr addr).afterLinkError cls addr rq) := by
  have on : ¬(cls = 0 || 0xF < cls || cls = 0xB || (cls = 0xE && !s.host.cfg.ecrcCheck)) = true := by
    simp only [Bool.or_eq_true, Bool.and_eq_true, decide_eq_true_eq, Bool.not_eq_true', not_or, not_and, Bool.not_eq_false]
    exact ⟨⟨⟨by omega, by omega⟩, hb⟩, he⟩
  have tick : (s.elog cls rq.vc rq.hdr addr).tick = s.tick := by rw [(s.elogged_elog ..).1]
  change execLinkError cls addr rq s = _
  unfold execLinkError State.afterLinkError State.laneError
  dsimp only
  rw [if_neg on, tick]
  by_cases ha : cls = 0xA
  · subst ha
    rfl
  · rw [if_neg ha, if_neg ha]
    repeat' split
    all_goals rfl

/-! ### Discarded writes at a tile's span (R38) -/

/-- A discarded write that is not the first one of an isolation leaves no trace, whatever it carries. -/
theorem State.discardReq_later {s : State} {tl : Nat} (h : s.firstDiscard tl = false) (a : Nat) (rq : Req) :
    s.discardReq tl a rq = s := if_neg (by simp [h])
theorem State.discardWrite_later {s : State} {tl : Nat} (h : s.firstDiscard tl = false) (a : Nat) : s.discardWrite tl a = s :=
  if_neg (by simp [h])

/-- The first one is logged as class 0x21. -/
theorem State.discardReq_first {s : State} {tl : Nat} (h : s.firstDiscard tl = true) (a : Nat) (rq : Req) :
    s.discardReq tl a rq = { s with isoLogged := s.isoLogged ||| 2 ^ tl }.elog 0x21 rq.vc rq.hdr a := if_pos h
theorem State.freeTlp_eq (s : State) : ∃ hdr, s.freeTlp = (hdr, { s with freeCount := s.freeCount + 4 }) := ⟨_, rfl⟩
/-- Where its row does not carry the request, virtual channel and header are open values. -/
theorem State.discardWrite_first {s : State} {tl : Nat} (h : s.firstDiscard tl = true) (a : Nat) :
    ∃ k vc hdr, s.discardWrite tl a = { s with isoLogged := s.isoLogged ||| 2 ^ tl, freeCount := k }.elog 0x21 vc hdr a := by
  obtain ⟨hdr, free⟩ := s.freeTlp_eq
  rw [State.discardWrite, if_pos h, free]
  exact ⟨_, _, hdr, discardReq_first (s := { s with freeCount := s.freeCount + 4 + 1 }) h a _⟩

theorem State.elogged.others {s t : State} (h : s.elogged t) : t.isoLogged = s.isoLogged ∧ t.freeCount = s.freeCount := by
  rw [h.1]
  exact ⟨rfl, rfl⟩

/-- `u` is `s` but for the discards it has noted and the open values drawn. -/
def State.besideLogs (s u : State) : Prop := u = { s with isoLogged := u.isoLogged, freeCount := u.freeCount }

/-- What an entry in such a state shows and leaves. -/
theorem State.elog_besideLogs {s u t : State} {cls vc a : Nat} {hdr : Tlp} (ht : t = u.elog cls vc hdr a) (hu : s.besideLogs u) :
    (s.elogRepeats cls hdr = false → s.elogEntry t cls vc hdr a) ∧ t.isoLogged = u.isoLogged ∧ t.freeCount = u.freeCount ∧
    (∀ x, ¬ elogReg x → t.rd x = s.rd x) ∧ ({ s with isoLogged := t.isoLogged, freeCount := t.freeCount } : State).elogged t := by
  have frame : u.elogged t := ht ▸ u.elogged_elog ..
  obtain ⟨iso, free⟩ := frame.others
  have regs : u.regs = s.regs := by rw [hu]
  have count : u.elogCount = s.elogCount := by rw [hu]
  refine ⟨fun hr => ht ▸ State.elog_new_of_same (State.sameElog_of_regs regs count) _ _ _ _ hr, iso, free, fun x hx => ?_, ?_⟩
  · rw [ht, State.rd_elog_ne _ _ _ _ _ hx, State.rd_congr regs]
  · rw [iso, free, ← hu]
    exact frame

/-- A row that writes a register of a tile's span without its request goes through that span. -/
theorem exec_tileWrite {c : Instr} {tl a : Nat} (h : tileWrite c = some (tl, a)) (s : State) : ∃ f, exec c s = s.toTile tl a f := by
  cases c
  case commit g _ _ | commitCancel g =>
    rw [tileWrite] at h
    split at h
    · cases h
      exact ⟨_, if_neg fun e => Nat.ne_of_lt ‹_› (congrArg Fin.val e)⟩
    · cases h
  all_goals
    cases h <;>
    · rw [exec]
      exact ⟨_, rfl⟩

/-- The cluster of a structure bank, by its address. -/
theorem bankOf_cluster {a g b : Nat} (h : bankOf a = some (g, b)) : g = (a - 0x1000000) / 0x400000 := by
  unfold bankOf at h
  dsimp only at h
  repeat' split at h
  all_goals cases h
  all_goals rfl

/-- A write of a word of a structure bank reaches the bank where its tile's span answers, and is discarded at that span otherwise. -/
theorem exec_standbyBankWrite {addr g b : Nat} (data : Word) (be : Nat) (rq : Req) {s : State} (hb : bankOf (addr / 4 * 4) = some (g, b))
    (hm : s.memOn = true) : exec (.standbyBankWrite addr data be rq) s = .next
      (if s.tileUp (g / 4) = true then s.bankWrite g b (addr / 4 * 4) (s.bankWord4 (addr / 4 * 4) data be) rq.vc rq.hdr
       else s.discardReq (g / 4) (addr / 4 * 4) rq) := by
  change s.memWrite rq addr (fun s => s.writeBank addr data be rq) = _
  rw [State.memWrite, if_pos hm, State.writeBank, hb]
  exact (apply_ite ..).symm

/-- At the span of a tile that does not answer, a write that carries its request is discarded. -/
theorem exec_tileWriteReq {c : Instr} {a : Nat} {rq : Req} {s : State} (h : tileWriteReq a rq c) (hm : s.memOn = true)
    (hlo : 0x1000000 ≤ a) (hhi : a < 0x5000000) (ha : s.answers a = false)
    (hbank : ∀ x d b, c = .standbyBankWrite x d b rq → (bankOf a).isSome = true)
    (hcoef : ∀ x d b, c = .coefficientWindowWrite x d b rq → ∃ n w, n < 512 ∧ w < 256 ∧ a = chBase n + 0x800 + 4 * w) :
    exec c s = .next (s.discardReq ((a - 0x1000000) / 0x1000000) a rq) := by
  unfold tileWriteReq at h
  split at h
  next x data be r same =>
    obtain ⟨rfl, rfl⟩ := h
    rw [exec_registerWrite_memOn hm fun hgo => absurd (hgo.1 ▸ hhi) (by decide), registerWrite, if_pos (by simp [ha])]
  next x data be r =>
    obtain ⟨rfl, rfl⟩ := h
    obtain ⟨⟨g, b⟩, hb⟩ := Option.isSome_iff_exists.1 (hbank x data be rfl)
    have tile : g / 4 = (x / 4 * 4 - 0x1000000) / 0x1000000 := by
      rw [bankOf_cluster hb]
      omega
    have down : s.tileUp (g / 4) = false := by
      rw [State.answers, if_pos (by simp [hlo, hhi])] at ha
      rw [tile, ha]
    rw [exec_standbyBankWrite data be r hb hm, if_neg (by simp [down]), tile]
  next x data be r =>
    obtain ⟨rfl, rfl⟩ := h
    obtain ⟨n, w, hn, hw, e⟩ := hcoef x data be rfl
    rw [exec_coefficientWindowWrite be data r hn hw e hm, if_neg (by simp [ha])]
  next => exact h.elim

end Sys2Proof.Machine

open Sys2Proof Sys2Proof.Machine

/-- Settles O10: what a class brings stands in `afterLinkError`, what a discarded write does in `elog_besideLogs`. -/
theorem linkErrorsAreLogged : Obligations.LinkErrorsAreLogged := by
  unfold Obligations.LinkErrorsAreLogged
  refine ⟨?abort, ?error, ?ecrc, ?openRequest, ?request⟩
  case abort =>
    intro write addr rq s cls hrep
    exact ⟨_, _, exec_bar0RequestAbort write addr rq s, s.elog_new _ _ _ _ hrep, s.elogged_elog .., fun x hx => s.rd_elog_ne _ _ _ _ hx, rfl⟩
  case error =>
    intro cls addr rq s h1 h16 hb he hrep
    refine ⟨_, _, exec_linkError addr rq h1 h16 hb he, s.elog_new _ _ _ _ hrep, s.elogged_elog .., fun x hx => s.rd_elog_ne _ _ _ _ hx,
      ?lane, ?recovery, ?unsupported, ?unexpected, ?poisoned, ?failed, ?other⟩
    case lane =>
      rintro rfl
      refine ⟨?_, fun x hx => ?_, State.laneError_frame _ _⟩
      · have same : (s.elog 1 rq.vc rq.hdr addr).fld PCI_LANE_ERR (laneErrField (addr % 4)) =
            s.fld PCI_LANE_ERR (laneErrField (addr % 4)) := congrArg _ (s.rd_elog_ne _ _ _ _ (by unfold elogReg; decide))
        rw [← same]
        exact State.fld_incSat _ _ _ (by simp only [laneErrField]; omega)
      · exact (State.rd_laneError ..).trans (State.rd_incSat_ne _ _ (by simpa using hx))
    case recovery =>
      intro h
      have link : (s.elog cls rq.vc rq.hdr addr).afterLinkError cls addr rq = (s.elog cls rq.vc rq.hdr addr).recovery := by
        rcases h with rfl | rfl <;> rfl
      rw [link]
      exact ⟨State.retrained_recovery _, State.regsOnly_recovery _, State.quiet_recovery _⟩
    case unsupported =>
      rintro rfl
      rfl
    case unexpected =>
      rintro rfl
      cases h : Tlp.completion rq.hdr <;> simp [State.afterLinkError, h]
    case poisoned =>
      rintro rfl
      rfl
    case failed =>
      rintro rfl
      rfl
    case other =>
      intro h
      simp only [List.mem_cons, List.not_mem_nil, or_false, not_or] at h
      simp [State.afterLinkError, h]
  case ecrc =>
    intro addr rq s h
    change execLinkError 0xE addr rq s = _
    simp [execLinkError, h]
  case openRequest =>
    intro c tl a s h hd
    obtain ⟨f, hf⟩ := exec_tileWrite h s
    rw [hf, State.toTile, if_neg (by simp [hd])]
    refine ⟨fun hlater => by rw [State.discardWrite_later hlater], fun hfirst => ?_⟩
    obtain ⟨k, vc, hdr, e⟩ := State.discardWrite_first hfirst a
    obtain ⟨entry, iso, free, regs, frame⟩ := State.elog_besideLogs (s := s) e rfl
    exact ⟨_, vc, hdr, rfl, entry, iso, regs, frame⟩
  case request =>
    intro c a rq s h hlo hhi hm ha tl hbank hcoef
    rw [exec_tileWriteReq h hm hlo hhi ha hbank hcoef]
    refine ⟨fun hlater => by rw [State.discardReq_later hlater], fun hfirst => ?_⟩
    obtain ⟨entry, iso, free, regs, frame⟩ := State.elog_besideLogs (s := s) (State.discardReq_first hfirst a rq) rfl
    rw [free] at frame
    exact ⟨_, rfl, entry, iso, regs, frame⟩

end

section
/-!
Reads and writes of sequence memory through BAR2.
-/

namespace Sys2Proof.Machine

/-! ### Pieces of a request -/

/-- The piece of [a, a + len) in the i-th of the blocks of `most` bytes from a's own on. -/
def pieceAt (most a len i : Nat) : Option (Nat × Nat) :=
  if max a ((a / most + i) * most) < min (a + len) ((a / most + i + 1) * most) then
    some (max a ((a / most + i) * most), min (a + len) ((a / most + i + 1) * most) - max a ((a / most + i) * most))
  else none

theorem splitReq_eq (most a len : Nat) : splitReq most a len = (List.range (len / most + 2)).filterMap (pieceAt most a len) := rfl

/-- A piece of a request split at 64 bytes lies in it, in one block. -/
theorem mem_splitReq {a len : Nat} {x : Nat × Nat} (h : x ∈ splitReq 64 a len) :
    0 < x.2 ∧ a ≤ x.1 ∧ x.1 + x.2 ≤ a + len ∧ x.1 / 64 = (x.1 + x.2 - 1) / 64 := by
  rw [splitReq_eq, List.mem_filterMap] at h
  obtain ⟨i, -, hi⟩ := h
  unfold pieceAt at hi
  split at hi
  · cases hi
    dsimp only
    omega
  · cases hi

/-- The bytes in the first n blocks. -/
theorem sum_pieces (a len n : Nat) :
    (((List.range n).filterMap (pieceAt 64 a len)).map (·.2)).sum = min (a + len) ((a / 64 + n) * 64) - a := by
  induction n with
  | zero =>
    simp only [List.range_zero, List.filterMap_nil, List.map_nil, List.sum_nil]
    omega
  | succ n ih =>
    have last : ((([n].filterMap (pieceAt 64 a len)).map (·.2)).sum) =
        min (a + len) ((a / 64 + n + 1) * 64) - max a ((a / 64 + n) * 64) := by
      by_cases h : max a ((a / 64 + n) * 64) < min (a + len) ((a / 64 + n + 1) * 64)
      · simp [pieceAt, h]
      · simp only [List.filterMap_cons, List.filterMap_nil, pieceAt, if_neg h, List.map_nil, List.sum_nil]
        omega
    rw [List.range_succ, List.filterMap_append, List.map_append, List.sum_append, ih, last]
    omega

/-- The pieces hold every byte. -/
theorem sum_splitReq (a len : Nat) : ((splitReq 64 a len).map (·.2)).sum = len := by
  rw [splitReq_eq, sum_pieces]
  omega

/-! ### Completions of a read (R313) -/

/-- The completion of a request that brings n bytes. -/
def State.dataTlp (s : State) (rq : Req) (ep : Bool) (n : Nat) : TxTlp :=
  ⟨.completion 0 ep n, rq.hdr.h0.toNat / 2 ^ 20 % 8, rq.vc % 2, false, false, s.host.cfg.ecrcGen⟩
/-- The completions of a read. -/
def State.readTlps (s : State) (rq : Req) (ep : Bool) (a len : Nat) : List TxTlp :=
  if len = 0 then [s.dataTlp rq ep 0] else (splitReq 64 a len).map (fun x => s.dataTlp rq ep x.2)

theorem State.foldl_complete (s : State) (rq : Req) (ep : Bool) (xs : List (Nat × Nat)) :
    xs.foldl (fun t x => t.complete rq 0 ep x.2) s =
      { s with host := { s.host with ready := s.host.ready ++ xs.map (fun x => s.dataTlp rq ep x.2) } } := by
  induction xs generalizing s with
  | nil => simp
  | cons x xs ih =>
    rw [List.foldl_cons, ih]
    simp [State.complete, State.dataTlp]

/-- The completions of a read are added to what is ready to go out, and nothing else changes. -/
theorem State.completeRead_eq (s : State) (rq : Req) (ep : Bool) (a len : Nat) :
    s.completeRead rq ep a len = { s with host := { s.host with ready := s.host.ready ++ s.readTlps rq ep a len } } := by
  unfold State.completeRead State.readTlps
  split
  · rfl
  · exact s.foldl_complete rq ep _
theorem State.quiet_completeRead (s : State) (rq : Req) (ep : Bool) (a len : Nat) : s.quiet (s.completeRead rq ep a len) := by
  rw [completeRead_eq]
  exact ⟨rfl, rfl⟩
@[simp] theorem State.rd_completeRead (s : State) (rq : Req) (ep : Bool) (a len x : Nat) :
    (s.completeRead rq ep a len).rd x = s.rd x := by
  rw [completeRead_eq]
  rfl
/-- The completions depend on the host's side alone. -/
theorem State.host_completeRead_congr {s t : State} (h : t.host = s.host) (rq : Req) (ep : Bool) (a len : Nat) :
    (t.completeRead rq ep a len).host = (s.completeRead rq ep a len).host := by
  simp only [completeRead_eq, State.readTlps, State.dataTlp, h]

/-! ### Accesses through BAR2 (R39, R375) -/

section
variable {addr len : Nat} {rq : Req} {s : State}

theorem exec_bar2Write_active (bytes : List Byte) (hm : s.memOn = true) (hd : s.dramActive = true) (hb : addr + bytes.length ≤ 2 ^ 32) :
    exec (.bar2Write addr bytes) s = .next { s with seqMem := s.seqMem.writeBytes addr bytes } := by
  have whole : bytes.take (2 ^ 32 - addr) = bytes := List.take_of_length_le (by omega)
  change execBar2Write addr bytes s = _
  rw [execBar2Write, State.memWriteOpen]
  dsimp only
  rw [if_pos hm, if_neg (by simp [hd]), whole]
theorem exec_bar2Write_discard (bytes : List Byte) (hm : s.memOn = true) (hd : s.dramActive = false) :
    exec (.bar2Write addr bytes) s = .next s.dramDiscard := by
  change execBar2Write addr bytes s = _
  rw [execBar2Write, State.memWriteOpen]
  dsimp only
  rw [if_pos hm, if_pos (by simp [hd])]
/-- While the function does not take memory requests, a write is an unsupported request; what header is logged is open (R312). -/
theorem exec_bar2Write_memOff (bytes : List Byte) (hm : s.memOn = false) :
    ∃ k vc hdr, exec (.bar2Write addr bytes) s = .next (({ s with freeCount := k } : State).elog 0x0A vc hdr addr) := by
  obtain ⟨hdr, free⟩ := s.freeTlp_eq
  change ∃ k vc hdr, execBar2Write addr bytes s = _
  rw [execBar2Write, State.memWriteOpen, free]
  dsimp only
  rw [if_neg (by simp [hm])]
  exact ⟨s.freeCount + 4 + 1, _, hdr, rfl⟩

theorem exec_bar2Read_ce (ce : Nat) (hm : s.memOn = true) (hd : s.dramActive = true) :
    exec (.bar2Read addr len ⟨ce, none⟩ rq) s = .next ((s.eccCes ce).completeRead rq false addr len) := by
  change execBar2Read addr len ⟨ce, none⟩ rq s = _
  rw [execBar2Read, if_neg (by simp [hm]), if_neg (by simp [hd])]
  rfl
theorem exec_bar2Read_ue (ce : Nat) {a : Nat} (hm : s.memOn = true) (hd : s.dramActive = true) (hlo : addr ≤ a) (hhi : a < addr + len) :
    exec (.bar2Read addr len ⟨ce, some a⟩ rq) s =
      .next ((((s.eccCes ce).elog 0x22 rq.vc rq.hdr a).eccUe 5 0 a).completeRead rq true addr len) := by
  have hit : (some a).filter (fun a => decide (addr ≤ a) && decide (a < addr + len)) = some a := by simp [hlo, hhi]
  change execBar2Read addr len ⟨ce, some a⟩ rq s = _
  rw [execBar2Read, if_neg (by simp [hm]), if_neg (by simp [hd])]
  dsimp only
  rw [hit]
  rfl
theorem exec_bar2Read_discard (ecc : ReadEcc) (hm : s.memOn = true) (hd : s.dramActive = false) :
    exec (.bar2Read addr len ecc rq) s = .next (s.dramDiscard.completeRead rq false addr len) := by
  change execBar2Read addr len ecc rq s = _
  rw [execBar2Read, if_neg (by simp [hm]), if_pos (by simp [hd])]
theorem exec_bar2Read_memOff (ecc : ReadEcc) (hm : s.memOn = false) :
    exec (.bar2Read addr len ecc rq) s = .next ((s.elog 0x0A rq.vc rq.hdr addr).complete rq 1 false 0) := by
  change execBar2Read addr len ecc rq s = _
  rw [execBar2Read, if_pos (by simp [hm])]
  rfl

end

/-! ### What is recorded -/

/-- Corrected errors do not touch the link and error log. -/
theorem State.sameElog_eccCes (s : State) (n : Nat) : s.sameElog (s.eccCes n) := by
  refine ⟨fun x hx => s.rd_eccCes_ne n ?_, by rw [s.onlyRegs_eccCes n]⟩
  have off : ¬ elogReg HUB_ECC_CE ∧ ¬ elogReg HUB_ECC_STAT := by
    unfold elogReg
    decide
  simp only [List.mem_cons, List.not_mem_nil, or_false, not_or]
  exact ⟨fun e => off.1 (e ▸ hx), fun e => off.2 (e ▸ hx)⟩

/-- The report of an uncorrectable error changes registers, messages, the event log and the tick of FAULT_N. -/
theorem State.logged_eccUe (s : State) (mem clu a : Nat) : ({ s with faultTick := some s.tick } : State).logged (s.eccUe mem clu a) := by
  unfold State.eccUe State.eccLoad
  refine State.logged.trans ?_ (State.logged_logEv ..)
  refine (State.quiet.raiseFault ?_ 13).logged
  exact (((s.quiet_setFld ..).trans (State.quiet_setFld ..)).trans (State.quiet_raise ..)).trans
    ((State.quiet_wr ..).trans (State.quiet_incSat ..))

/-- The first access outside ACTIVE is recorded (R375). -/
theorem State.dramDiscard_first {s : State} (h : s.dramLogged = false) :
    s.dramDiscard = (({ s with dramLogged := true } : State).raise PWR_DRAM_STAT fPWR_DRAM_STAT_ACCESS_DISCARDED).logEv 0xC 9 1
      PWR_DRAM_STAT 0 0 := if_neg (by simp [h])

end Sys2Proof.Machine

open Sys2Proof Sys2Proof.Machine

/-- Settles O9: the cases of an access by what the stacks and the function let through. -/
theorem bar2Access : Obligations.Bar2Access := by
  unfold Obligations.Bar2Access
  refine ⟨?write, ?corrected, ?uncorrectable, ?split, ?inactive, ?off⟩
  case write =>
    intro addr bytes s hm hd hb
    exact ⟨_, exec_bar2Write_active bytes hm hd hb, fun i h => Mem.read_writeBytes_at .., fun b h => Mem.read_writeBytes_ne _ _ _ h, rfl⟩
  case corrected =>
    intro addr len ce rq s hm hd
    have host : (s.eccCes ce).host = s.host := by rw [s.onlyRegs_eccCes ce]
    refine ⟨_, exec_bar2Read_ce ce hm hd, State.host_completeRead_congr host .., ?_, fun hce => ?_, fun x hx => ?_,
      (s.onlyRegs_eccCes ce).quiet.trans (State.quiet_completeRead ..)⟩
    · rw [State.rd_completeRead, s.toNat_rd_eccCes]
    · rw [State.rd_completeRead, s.rd_stat_eccCes hce]
    · rw [State.rd_completeRead]
      rcases Nat.eq_zero_or_pos ce with rfl | hce
      · rfl
      · exact s.rd_eccCes_ne ce (hx hce)
  case uncorrectable =>
    intro addr len ce a rq s hm hd hlo hhi hrep
    have frame : s.elogged ((s.eccCes ce).elog 0x22 rq.vc rq.hdr a) :=
      (s.onlyRegs_eccCes ce).quiet.elogged.trans (State.elogged_elog ..)
    have tick : ((s.eccCes ce).elog 0x22 rq.vc rq.hdr a).tick = s.tick := by rw [frame.1]
    refine ⟨_, _, _, exec_bar2Read_ue ce hm hd hlo hhi, State.elog_new_of_same (s.sameElog_eccCes ce) _ _ _ _ hrep, frame,
      fun x hx hce => ?_, State.rd_addr_eccUe .., State.fault_eccUe .., fun x hx => State.rd_eccUe_ne _ _ _ _ hx,
      tick ▸ State.logged_eccUe .., rfl⟩
    rw [State.rd_elog_ne _ _ _ _ _ hx, s.rd_eccCes_ne ce hce]
  case split =>
    intro addr len rq ep s hlen
    refine ⟨⟨s.readTlps rq ep addr len, by rw [State.completeRead_eq], ?_⟩, fun x hx => mem_splitReq hx, sum_splitReq addr len⟩
    rw [State.readTlps, if_neg (Nat.ne_of_gt hlen), List.map_map]
    rfl
  case inactive =>
    intro addr bytes len ecc rq s hm hd hlog
    refine ⟨if_neg (by simp [hd]), _, _, exec_bar2Write_discard bytes hm hd, exec_bar2Read_discard ecc hm hd, rfl, ?_⟩
    rw [State.dramDiscard_first hlog]
    refine ⟨?_, State.newest_logEv .., fun x hx => ?_, (State.quiet_raise ..).logged.trans (State.logged_logEv ..)⟩
    · rw [State.rd_logEv_ne _ _ _ _ _ _ _ (by decide), State.rd_raise_same]
      rfl
    · simp only [List.mem_cons, List.not_mem_nil, or_false, not_or] at hx
      obtain ⟨hstat, hevt⟩ := hx
      rw [State.rd_logEv_ne _ _ _ _ _ _ _ hevt, State.rd_raise_ne _ _ hstat]
      rfl
  case off =>
    intro addr bytes len ecc rq s hm
    obtain ⟨k, vc, hdr, e⟩ := exec_bar2Write_memOff (addr := addr) bytes hm
    obtain ⟨entry, iso, -, regs, frame⟩ := State.elog_besideLogs (s := s) (cls := 0x0A) (vc := vc) (hdr := hdr) (a := addr)
      (u := { s with freeCount := k }) rfl rfl
    refine ⟨⟨_, hdr, vc, e, entry, ?_, regs⟩, fun hrep => ?_⟩
    · rw [iso] at frame
      exact frame
    · exact ⟨_, _, exec_bar2Read_memOff ecc hm, s.elog_new _ _ _ _ hrep, s.elogged_elog .., fun x hx => s.rd_elog_ne _ _ _ _ hx, rfl⟩

end

section
/-!
What the updates of the loop engine and of the DAC have in common: what a sequence of register updates leaves, and what a field of a
register shows after one.
-/

namespace Sys2Proof.Machine

/-! ### Registers that a sequence of updates leaves -/

theorem State.regsOnly.refl (s : State) (as : List Nat) : s.regsOnly s as := fun _ _ => rfl
theorem State.regsOnly.trans {s t u : State} {as : List Nat} (h : s.regsOnly t as) (k : t.regsOnly u as) : s.regsOnly u as :=
  fun a ha => (k a ha).trans (h a ha)
theorem State.regsOnly_wr (s : State) {a : Nat} (w : Word) {as : List Nat} (h : a ∈ as) : s.regsOnly (s.wr a w) as :=
  fun _ hb => s.rd_wr_ne w fun e => hb (e ▸ h)

theorem State.regFrame.refl (s : State) (as : List Nat) : s.regFrame s as := ⟨.refl s as, .refl s⟩
theorem State.regFrame.trans {s t u : State} {as : List Nat} (h : s.regFrame t as) (k : t.regFrame u as) : s.regFrame u as :=
  ⟨h.1.trans k.1, h.2.trans k.2⟩
theorem State.regFrame_setFld (s : State) {a : Nat} (f : Fld) (v : Nat) {as : List Nat} (h : a ∈ as) : s.regFrame (s.setFld a f v) as :=
  ⟨s.regsOnly_wr _ h, s.quiet_setFld a f v⟩
theorem State.regFrame_setBit (s : State) {a : Nat} (f : Fld) (b : Bool) {as : List Nat} (h : a ∈ as) : s.regFrame (s.setBit a f b) as :=
  s.regFrame_setFld f _ h
theorem State.regFrame_raise (s : State) {a : Nat} (f : Fld) {as : List Nat} (h : a ∈ as) : s.regFrame (s.raise a f) as :=
  s.regFrame_setFld f 1 h
theorem State.regFrame_raiseIf (s : State) (c : Bool) {a : Nat} (f : Fld) {as : List Nat} (h : a ∈ as) :
    s.regFrame (s.raiseIf c a f) as := by
  unfold State.raiseIf
  split
  · exact s.regFrame_raise f h
  · exact .refl s as
theorem State.regFrame_incSat (s : State) {a : Nat} (f : Fld) {as : List Nat} (h : a ∈ as) : s.regFrame (s.incSat a f) as :=
  ⟨fun _ hb => s.rd_incSat_ne f fun e => hb (e ▸ h), s.quiet_incSat a f⟩
theorem State.regFrame_cluEvent (s : State) {g : Nat} (f : Fld) {as : List Nat} (h : CLU_INT_STAT g ∈ as) :
    s.regFrame (s.cluEvent g f) as :=
  ⟨fun _ hb => (s.rd_cluEvent g f _).trans (s.rd_raise_ne f fun e => hb (e ▸ h)), s.quiet_cluEvent g f⟩

/-- What changes registers and messages alone leaves the channels' own state. -/
theorem State.chan_quiet {s t : State} (h : s.quiet t) (n : Nat) : t.chan n = s.chan n := by
  rw [h.1]
  rfl

theorem State.chFrame.refl (s : State) (n : Nat) (as : List Nat) : s.chFrame s n as := ⟨.refl s as, fun _ _ => rfl, .refl s⟩
theorem State.chFrame.trans {s t u : State} {n : Nat} {as : List Nat} (h : s.chFrame t n as) (k : t.chFrame u n as) :
    s.chFrame u n as := by
  obtain ⟨h1, h2, h3, h4⟩ := h
  obtain ⟨k1, k2, k3, k4⟩ := k
  refine ⟨h1.trans k1, fun m hm => (k2 m hm).trans (h2 m hm), ?_, ?_⟩
  · rw [k3, h3]
  · unfold State.msgOnly at *
    rw [k4, h4]
theorem State.regFrame.chFrame {s t : State} {as : List Nat} (h : s.regFrame t as) (n : Nat) : s.chFrame t n as := by
  obtain ⟨hr, hq⟩ := h
  refine ⟨hr, fun m _ => chan_quiet hq m, ?_⟩
  have same : t.ch = s.ch := by rw [hq.1]
  rw [same]
  exact hq
theorem State.chFrame_updChan (s : State) (n : Nat) (f : ChSt → ChSt) (as : List Nat) : s.chFrame (s.updChan n f) n as :=
  ⟨fun _ _ => rfl, fun _ hm => s.chan_updChan_ne f (by simpa using hm), rfl, rfl⟩

/-! ### Fields after an update -/

theorem State.fld_setFld (s : State) (a : Nat) (f : Fld) (v : Nat) (hf : f.lsb + f.width ≤ 32) :
    (s.setFld a f v).fld a f = v % 2 ^ f.width := by
  rw [State.fld, rd_setFld_same, Fld.get_put _ _ _ hf]
/-- Replacing a field leaves the fields apart from it in its register. -/
theorem State.fld_setFld_apart (s : State) (a : Nat) {f g : Fld} (v : Nat) (h : g.lsb + g.width ≤ f.lsb ∨ f.lsb + f.width ≤ g.lsb) :
    (s.setFld a f v).fld a g = s.fld a g := by
  rw [State.fld, rd_setFld_same, Fld.get_put_ne _ _ _ _ h, State.fld]
/-- It leaves every other register. -/
theorem State.fld_setFld_other (s : State) {a b : Nat} (f g : Fld) (v : Nat) (h : b ≠ a) : (s.setFld a f v).fld b g = s.fld b g :=
  congrArg g.get (s.rd_setFld_ne f v h)

theorem State.fld_updEng (s : State) (n : Nat) (f : EngSt → EngSt) (a : Nat) (g : Fld) : (s.updEng n f).fld a g = s.fld a g := rfl

/-- A flag: one bit of a register. -/
abbrev Fld.flag (f : Fld) : Prop := f.width = 1 ∧ f.lsb < 32

theorem State.bit_setBit (s : State) (a : Nat) {f : Fld} (b : Bool) (hf : f.flag) : (s.setBit a f b).bit a f = b := by
  obtain ⟨hw, hl⟩ := hf
  rw [State.bit, State.setBit, fld_setFld _ _ _ _ (by omega), hw]
  cases b <;> rfl
theorem State.bit_raise (s : State) (a : Nat) {f : Fld} (hf : f.flag) : (s.raise a f).bit a f = true := s.bit_setBit a true hf
/-- Raising a flag leaves every flag of any register that is set. -/
theorem State.bit_raise_of_bit {s : State} {a b : Nat} {f g : Fld} (hf : f.flag) (hg : g.flag) (h : s.bit b g = true) :
    (s.raise a f).bit b g = true := by
  by_cases e : b = a
  · subst e
    by_cases same : f = g
    · exact same ▸ s.bit_raise b hf
    · obtain ⟨hf, -⟩ := hf
      obtain ⟨hg, -⟩ := hg
      have apart : g.lsb ≠ f.lsb := fun hl => same (by cases f; cases g; simp_all)
      rw [State.bit, State.raise, fld_setFld_apart _ _ _ (by omega)]
      exact h
  · rw [State.bit, State.raise, fld_setFld_other _ _ _ _ e]
    exact h

/-- The effects that a list puts into the agenda come in its order, and nothing else changes. -/
theorem State.over_after {α : Type} (s : State) (xs : List α) (k : State → Nat) (l : α → Later)
    (hk : ∀ t m x, k (t.after m x) = k t) :
    s.over xs (fun t x => t.after (k t) (l x)) = { s with later := s.later ++ xs.map (fun x => (k s, l x)) } := by
  induction xs generalizing s with
  | nil => simp [State.over]
  | cons x xs ih =>
    change (s.after (k s) (l x)).over xs _ = _
    rw [ih, hk]
    simp [State.after]

end Sys2Proof.Machine
end

section
/-!
The loop engine's events: the GUARD timer, residue failures and tests, a failed lane.
-/

namespace Sys2Proof.Machine

/-! ### GUARD timer (R114, R115) -/

/-- A new value of the timer: GUARD_LEFT, and TIMER while it is not 0. -/
def State.setGuard (s : State) (n v : Nat) : State :=
  (s.setFld (CH_ENG_STAT n) fCH_ENG_STAT_GUARD_LEFT v).setBit (CH_ENG_STAT n) fCH_ENG_STAT_TIMER (v != 0)

theorem State.guardLeft_setGuard (s : State) (n : Nat) {v : Nat} (hv : v < 2 ^ 13) :
    (s.setGuard n v).fld (CH_ENG_STAT n) fCH_ENG_STAT_GUARD_LEFT = v := by
  rw [State.setGuard, State.setBit, fld_setFld_apart _ _ _ (by decide), fld_setFld _ _ _ _ (by decide)]
  exact Nat.mod_eq_of_lt hv
theorem State.timer_setGuard (s : State) (n v : Nat) : (s.setGuard n v).bit (CH_ENG_STAT n) fCH_ENG_STAT_TIMER = (v != 0) :=
  State.bit_setBit _ _ _ (by decide)
theorem State.regFrame_setGuard (s : State) (n v : Nat) : s.regFrame (s.setGuard n v) [CH_ENG_STAT n] :=
  (s.regFrame_setFld _ _ (by simp)).trans (State.regFrame_setBit _ _ _ (by simp))

theorem State.onlyRegs_setGuard (s : State) (n v : Nat) : s.onlyRegs (s.setGuard n v) :=
  (s.onlyRegs_setFld ..).trans (State.onlyRegs_setBit ..)

theorem exec_guardTimerExpiry_last {n : Ch} {s : State} (hl : s.fld (CH_ENG_STAT n) fCH_ENG_STAT_GUARD_LEFT = 1)
    (hr : (s.eng n).ran = true) (hg : (s.eng n).guardLoad = false) : exec (.guardTimerExpiry n) s = .next (s.setGuard n 0) := by
  change execGuardTimerExpiry n s = _
  unfold execGuardTimerExpiry
  dsimp only
  rw [if_pos (by simp [hl, hr, hg])]
  rfl

/-- What the timer holds in the period that begins. -/
def State.guardNext (s : State) (n : Nat) : Nat :=
  if (s.eng n).guardLoad && s.inRun n then 4096 else s.fld (CH_ENG_STAT n) fCH_ENG_STAT_GUARD_LEFT - (s.eng n).ran.toNat

theorem State.guardNext_lt (s : State) (n : Nat) : s.guardNext n < 2 ^ 13 := by
  have hlt : s.fld (CH_ENG_STAT n) fCH_ENG_STAT_GUARD_LEFT < 2 ^ 13 := Nat.mod_lt _ (by decide)
  unfold State.guardNext
  split <;> omega

theorem State.guardTick_acts {s : State} {n : Nat} (h : ((s.eng n).guardLoad || (s.eng n).ran) = true) :
    s.guardTick n = (s.setGuard n (s.guardNext n)).updEng n (fun e => { e with guardLoad := false, ran := false }) := by
  have busy : ¬(!(s.eng n).guardLoad && !(s.eng n).ran) = true := by
    rw [← Bool.not_or, h]
    decide
  unfold State.guardTick
  dsimp only
  rw [if_neg busy]
  rfl
theorem State.guardTick_idle {s : State} {n : Nat} (hl : (s.eng n).guardLoad = false) (hr : (s.eng n).ran = false) :
    s.guardTick n = s := by
  unfold State.guardTick
  dsimp only
  rw [if_pos (by simp [hl, hr])]

theorem State.guardLeft_guardTick (s : State) (n : Nat) :
    (s.guardTick n).fld (CH_ENG_STAT n) fCH_ENG_STAT_GUARD_LEFT = s.guardNext n := by
  by_cases h : ((s.eng n).guardLoad || (s.eng n).ran) = true
  · rw [guardTick_acts h, fld_updEng, s.guardLeft_setGuard n (s.guardNext_lt n)]
  · obtain ⟨hl, hr⟩ : (s.eng n).guardLoad = false ∧ (s.eng n).ran = false := by simpa using h
    simp [guardTick_idle hl hr, State.guardNext, hl, hr]
theorem State.timer_guardTick {s : State} {n : Nat} (h : ((s.eng n).guardLoad || (s.eng n).ran) = true) :
    (s.guardTick n).bit (CH_ENG_STAT n) fCH_ENG_STAT_TIMER = (s.guardNext n != 0) := by
  rw [guardTick_acts h, State.bit, fld_updEng]
  exact s.timer_setGuard n _
theorem EngSt.guard_clear {e : EngSt} (hl : e.guardLoad = false) (hr : e.ran = false) :
    { e with guardLoad := false, ran := false } = e := by
  cases e
  cases hl
  cases hr
  rfl
theorem State.chan_guardTick (s : State) (n : Nat) :
    (s.guardTick n).chan n = { s.chan n with eng := { s.eng n with guardLoad := false, ran := false } } := by
  by_cases h : ((s.eng n).guardLoad || (s.eng n).ran) = true
  · rw [guardTick_acts h, State.updEng, chan_updChan_same, chan_quiet (s.regFrame_setGuard n _).2]
    rfl
  · obtain ⟨hl, hr⟩ : (s.eng n).guardLoad = false ∧ (s.eng n).ran = false := by simpa using h
    rw [guardTick_idle hl hr, EngSt.guard_clear hl hr]
    rfl
theorem State.chFrame_guardTick (s : State) (n : Nat) : s.chFrame (s.guardTick n) n [CH_ENG_STAT n] := by
  by_cases h : ((s.eng n).guardLoad || (s.eng n).ran) = true
  · rw [guardTick_acts h]
    exact ((s.regFrame_setGuard n _).chFrame n).trans (State.chFrame_updChan ..)
  · obtain ⟨hl, hr⟩ : (s.eng n).guardLoad = false ∧ (s.eng n).ran = false := by simpa using h
    rw [guardTick_idle hl hr]
    exact .refl ..

theorem State.guardMode_iff (s : State) (n : Nat) : s.guardMode n = true ↔
    s.fld (CH_ENG_STAT n) fCH_ENG_STAT_GUARD_LEFT ≠ 0 ∨ (s.inj n).active = true ∨ s.bit (CH_ENG_CTL n) fCH_ENG_CTL_GUARD_FORCE = true ∨
      s.bit (CLU_ENG_CTL (n / 32)) fCLU_ENG_CTL_GUARD_ALL = true := by
  simp [State.guardMode, or_assoc]

/-! ### Residue failures (R116, R117, Table 04-6) -/

/-- What a recompute of some items with their dependents, and its recheck, takes in lane-cycles. -/
def recomputeCost (need : List EngItem) : Nat := need.eraseDups.foldl (fun a i => a + itemCost i) 2

theorem State.recomputeFits_iff (s : State) (n : Nat) (xs : List EngItem) :
    s.recomputeFits n xs = true ↔ recomputeCost (xs.map (s.itemDeps n)).flatten ≤ 24 := decide_eq_true_iff

/-- An item whose dependents are the same in every structure. -/
abbrev ItemFixed (x : EngItem) : Prop := x ∉ [EngItem.ff, .injection, .bridging]

/-- What must be recomputed for it (Table 04-6). -/
def fixedDeps : EngItem → List EngItem
  | .setpoint => [.setpoint, .slot0, .selector]
  | .cal => [.cal, .slot0, .slot1, .slot2, .slot3, .selector, .model]
  | .selector => [.selector]
  | .model => [.model]
  | y => [y, .selector]

theorem State.itemDeps_fixed (s : State) (n : Nat) {x : EngItem} (h : ItemFixed x) : s.itemDeps n x = fixedDeps x := by
  cases x with
  | ff | injection | bridging => exact absurd (by simp) h
  | _ => rfl

theorem State.recomputeFits_fixed (s : State) (n : Nat) {xs : List EngItem} (h : ∀ x ∈ xs, ItemFixed x) :
    s.recomputeFits n xs = decide (recomputeCost (xs.map fixedDeps).flatten ≤ 24) := by
  have deps : xs.map (s.itemDeps n) = xs.map fixedDeps := List.map_congr_left fun x hx => s.itemDeps_fixed n (h x hx)
  rw [Bool.eq_iff_iff, recomputeFits_iff, deps, decide_eq_true_iff]

theorem State.recomputeFits_single (s : State) (n : Nat) :
    ∀ x ∈ [EngItem.setpoint, .slot0, .slot1, .slot2, .slot3, .selector, .model], s.recomputeFits n [x] = true := by
  have cost : ∀ x ∈ [EngItem.setpoint, .slot0, .slot1, .slot2, .slot3, .selector, .model],
      ItemFixed x ∧ recomputeCost [fixedDeps x].flatten ≤ 24 := by decide
  intro x hx
  obtain ⟨fixed, fits⟩ := cost x hx
  rw [s.recomputeFits_fixed n (by simpa using fixed)]
  exact decide_eq_true fits

theorem State.recomputeFits_cal (s : State) (n : Nat) : s.recomputeFits n [.cal] = false := by
  rw [s.recomputeFits_fixed n (by decide)]
  decide

theorem State.recomputeFits_pair (s : State) (n : Nat) {x y : EngItem} (hx : ItemFixed x) (hy : ItemFixed y) :
    s.recomputeFits n [x, y] = decide (recomputeCost [fixedDeps x, fixedDeps y].flatten ≤ 24) :=
  s.recomputeFits_fixed n (List.forall_mem_cons.2 ⟨hx, List.forall_mem_singleton.2 hy⟩)

/-- Slot 0 leaves no room for a limiter slot, two limiter slots fit (Table 04-6). -/
theorem State.recomputeFits_slots (s : State) (n : Nat) : ∀ x ∈ [EngItem.slot1, .slot2, .slot3],
    s.recomputeFits n [.slot0, x] = false ∧ ∀ y ∈ [EngItem.slot1, .slot2, .slot3], x ≠ y → s.recomputeFits n [x, y] = true := by
  have fixed : ∀ x ∈ [EngItem.slot1, .slot2, .slot3], ItemFixed x := by decide
  have cost : ∀ x ∈ [EngItem.slot1, .slot2, .slot3], ¬ recomputeCost [fixedDeps .slot0, fixedDeps x].flatten ≤ 24 ∧
      ∀ y ∈ [EngItem.slot1, .slot2, .slot3], x ≠ y → recomputeCost [fixedDeps x, fixedDeps y].flatten ≤ 24 := by decide
  intro x hx
  obtain ⟨one, two⟩ := cost x hx
  refine ⟨?_, fun y hy hne => ?_⟩
  · rw [s.recomputeFits_pair n (by decide) (fixed x hx)]
    exact decide_eq_false one
  · rw [s.recomputeFits_pair n (fixed x hx) (fixed y hy)]
    exact decide_eq_true (two y hy hne)

theorem State.itemDeps_ff (s : State) (n : Nat) : s.itemDeps n .ff =
    [EngItem.ff, .slot0] ++ (if (s.desc n).ffRail = true then (([1, 2, 3].filter (fun k => (s.desc n).present k)).map slotItem) else []) ++
      [.selector] := by
  have slots : (List.range 4).filter (fun k => (s.desc n).present k && decide (0 < k)) =
      [1, 2, 3].filter (fun k => (s.desc n).present k) := by
    simp [show List.range 4 = [0, 1, 2, 3] from rfl, List.filter_cons]
  unfold State.itemDeps
  dsimp only
  rw [slots]

/-- Feed-forward to slot 0 alone fits. -/
theorem State.recomputeFits_ff (s : State) (n : Nat) (h : (s.desc n).ffRail = false) : s.recomputeFits n [.ff] = true := by
  rw [recomputeFits_iff, List.map_singleton, itemDeps_ff, if_neg (by simp [h])]
  decide
/-- Feed-forward to every slot fits where no limiter slot is present. -/
theorem State.recomputeFits_ffRail (s : State) (n : Nat) (h : (s.desc n).ffRail = true) :
    s.recomputeFits n [.ff] = true ↔ ∀ k ∈ [1, 2, 3], (s.desc n).present k = false := by
  have byPresence : ∀ p : Nat → Bool,
      recomputeCost [[EngItem.ff, .slot0] ++ (([1, 2, 3].filter p).map slotItem) ++ [.selector]].flatten ≤ 24 ↔
        ∀ k ∈ [1, 2, 3], p k = false := by
    intro p
    simp only [List.filter_cons, List.filter_nil, List.forall_mem_cons, List.not_mem_nil, false_imp_iff, implies_true, and_true]
    cases p 1 <;> cases p 2 <;> cases p 3 <;> decide
  rw [recomputeFits_iff, List.map_singleton, itemDeps_ff, if_pos h, byPresence]

section
variable {ups : List Upset} {n : Nat} {s : State}

theorem State.residueOutcome_nil : s.residueOutcome n [] = 0 := rfl
theorem State.residueOutcome_recomputed (hne : ups ≠ []) (hf : s.recomputeFits n (ups.map (·.item)) = true)
    (hr : ∀ u ∈ ups, u.recheckOk = true) : s.residueOutcome n ups = 1 := by
  unfold State.residueOutcome
  dsimp only
  rw [if_neg (by simpa using hne), if_pos (by simpa [hf] using hr)]
/-- Where the recompute does not stand, the model's failures alone drop the model, and failures of other items alone the period. -/
theorem State.residueOutcome_model (hne : ups ≠ [])
    (h : ¬(s.recomputeFits n (ups.map (·.item)) = true ∧ ∀ u ∈ ups, u.recheckOk = true))
    (hm : ∀ u ∈ ups, u.item = .model) : s.residueOutcome n ups = 2 := by
  have rest : ups.filter (fun u => u.item != .model) = [] := List.filter_eq_nil_iff.2 fun u hu => by simp [hm u hu]
  unfold State.residueOutcome
  dsimp only
  rw [if_neg (by simpa using hne), if_neg (by simpa using h), rest]
  rfl
theorem State.residueOutcome_others (hne : ups ≠ [])
    (h : ¬(s.recomputeFits n (ups.map (·.item)) = true ∧ ∀ u ∈ ups, u.recheckOk = true))
    (hm : ∀ u ∈ ups, u.item ≠ .model) : s.residueOutcome n ups = 3 := by
  have rest : ups.filter (fun u => u.item != .model) = ups := List.filter_eq_self.2 fun u hu => by simpa using hm u hu
  unfold State.residueOutcome
  dsimp only
  rw [if_neg (by simpa using hne), rest, if_neg (by simpa using h), if_neg (by simpa [hne] using h)]

end

/-- The report of a failure: RES_FAIL and a second flag of the channel and of its cluster, and the cluster's count. -/
def State.residueNote (s : State) (n : Nat) (fc fg fk : Fld) : State :=
  (((((s.raise (CH_ENG_STAT n) fCH_ENG_STAT_RES_FAIL).raise (CLU_ENG_STAT (n / 32)) fCLU_ENG_STAT_RES_FAIL).raise (CH_ENG_STAT n) fc).raise
    (CLU_ENG_STAT (n / 32)) fg).incSat (CLU_ENG_CNT (n / 32)) fk)

theorem State.residueFlags_zero (s : State) (n : Nat) : s.residueFlags n 0 = s := by
  rw [State.residueFlags, if_pos rfl]
theorem State.residueFlags_recomputed (s : State) (n : Nat) : s.residueFlags n 1 =
    s.residueNote n fCH_ENG_STAT_RECOMPUTED fCLU_ENG_STAT_RECOMPUTED fCLU_ENG_CNT_RECOMPUTES := by
  rw [State.residueFlags, if_neg (by decide), if_pos rfl, State.residueNote]
theorem State.residueFlags_unrecovered (s : State) (n : Nat) {o : Nat} (h : 2 ≤ o) : s.residueFlags n o =
    (s.residueNote n fCH_ENG_STAT_UNRECOVERED fCLU_ENG_STAT_UNRECOVERED fCLU_ENG_CNT_UNRECOVERED).cluEvent (n / 32)
      fCLU_INT_STAT_ENGINE := by
  unfold State.residueFlags
  dsimp only
  rw [if_neg (by omega), if_neg (by omega), State.residueNote]

theorem cluEngStat_ne_int (g : Nat) : CLU_ENG_STAT g ≠ CLU_INT_STAT g := by
  unfold CLU_ENG_STAT CLU_INT_STAT
  omega
/-- The registers that show a residue failure are none of those that count and signal it. -/
theorem engRegs_ne_cnt (n g : Nat) : CH_ENG_STAT n ≠ CLU_ENG_CNT g ∧ CLU_ENG_STAT g ≠ CLU_ENG_CNT g := by
  simp only [CH_ENG_STAT, CLU_ENG_STAT, CLU_ENG_CNT, chBase, cluBase, tileBase]
  omega
theorem engRegs_ne_int (n g : Nat) : CH_ENG_STAT n ≠ CLU_INT_STAT g ∧ CLU_ENG_CNT g ≠ CLU_INT_STAT g := by
  simp only [CH_ENG_STAT, CLU_ENG_CNT, CLU_INT_STAT, chBase, cluBase, tileBase]
  omega

section
variable (s : State) (n : Nat) {fc fg fk : Fld}

/-- Both flags of a channel and of its cluster are set, and the count is one on. -/
theorem State.residueNote_shows (hc : fc.flag) (hg : fg.flag) (hk : fk.lsb + fk.width ≤ 32) (hw : fk.width = 16) :
    let t := s.residueNote n fc fg fk
    (t.bit (CH_ENG_STAT n) fCH_ENG_STAT_RES_FAIL = true ∧ t.bit (CLU_ENG_STAT (n / 32)) fCLU_ENG_STAT_RES_FAIL = true) ∧
    t.bit (CH_ENG_STAT n) fc = true ∧ t.bit (CLU_ENG_STAT (n / 32)) fg = true ∧
    t.fld (CLU_ENG_CNT (n / 32)) fk = min 65535 (s.fld (CLU_ENG_CNT (n / 32)) fk + 1) := by
  obtain ⟨chCnt, cluCnt⟩ := engRegs_ne_cnt n (n / 32)
  have failCh : fCH_ENG_STAT_RES_FAIL.flag := by decide
  have failClu : fCLU_ENG_STAT_RES_FAIL.flag := by decide
  have counted : ∀ (u : State) (a : Nat) (f : Fld), a ≠ CLU_ENG_CNT (n / 32) → u.bit a f = true →
      (u.incSat (CLU_ENG_CNT (n / 32)) fk).bit a f = true := by
    intro u a f ha h
    rwa [State.bit, State.fld, rd_incSat_ne _ _ ha]
  refine ⟨⟨counted _ _ _ chCnt ?_, counted _ _ _ cluCnt ?_⟩, counted _ _ _ chCnt ?_, counted _ _ _ cluCnt ?_, ?_⟩
  · exact bit_raise_of_bit hg failCh (bit_raise_of_bit hc failCh (bit_raise_of_bit failClu failCh (State.bit_raise _ _ failCh)))
  · exact bit_raise_of_bit hg failClu (bit_raise_of_bit hc failClu (State.bit_raise _ _ failClu))
  · exact bit_raise_of_bit hg hc (State.bit_raise _ _ hc)
  · exact State.bit_raise _ _ hg
  · have top : 2 ^ fk.width - 1 = 65535 := by simp [hw]
    rw [State.residueNote, State.fld_incSat _ _ _ hk, top]
    simp only [State.raise]
    rw [fld_setFld_other _ _ _ _ cluCnt.symm, fld_setFld_other _ _ _ _ chCnt.symm, fld_setFld_other _ _ _ _ cluCnt.symm,
      fld_setFld_other _ _ _ _ chCnt.symm]

theorem State.regFrame_residueNote (fc fg fk : Fld) : s.regFrame (s.residueNote n fc fg fk)
    [CH_ENG_STAT n, CLU_ENG_STAT (n / 32), CLU_ENG_CNT (n / 32), CLU_INT_STAT (n / 32)] := by
  refine State.regFrame.trans ?_ (State.regFrame_incSat _ _ (by simp))
  refine State.regFrame.trans ?_ (State.regFrame_raise _ _ (by simp))
  refine State.regFrame.trans ?_ (State.regFrame_raise _ _ (by simp))
  exact (s.regFrame_raise _ (by simp)).trans (State.regFrame_raise _ _ (by simp))

theorem State.regFrame_residueFlags (o : Nat) : s.regFrame (s.residueFlags n o)
    [CH_ENG_STAT n, CLU_ENG_STAT (n / 32), CLU_ENG_CNT (n / 32), CLU_INT_STAT (n / 32)] := by
  obtain rfl | rfl | ho : o = 0 ∨ o = 1 ∨ 2 ≤ o := by omega
  · rw [residueFlags_zero]
    exact .refl ..
  · rw [residueFlags_recomputed]
    exact s.regFrame_residueNote n ..
  · rw [s.residueFlags_unrecovered n ho]
    exact (s.regFrame_residueNote n ..).trans (State.regFrame_cluEvent _ _ (by simp))

end

theorem State.bit_cluEvent_ne (s : State) {g a : Nat} (f h : Fld) (ha : a ≠ CLU_INT_STAT g) : (s.cluEvent g f).bit a h = s.bit a h := by
  simp only [State.bit, State.fld, rd_cluEvent, rd_raise_ne _ _ ha]

theorem State.discards_chanDiscard (s : State) (n : Nat) (old : Sample) :
    let t := s.chanDiscard n old
    t.eng n = { s.eng n with discarded := true } ∧ t.model n = s.model n ∧ (t.chan n).trk = (s.chan n).trk ∧
    (t.chan n).smp.accV = old.v ∧ (t.chan n).smp.accI = old.iUse := by
  simp only [State.chanDiscard, State.eng, State.model, chan_updChan_same, and_self]
theorem State.chansOnly_chanDiscard (s : State) (n : Nat) (old : Sample) : s.chansOnly (s.chanDiscard n old) [n] :=
  fun _ hm => s.chan_updChan_ne _ (by simpa using hm)

/-! ### Residue tests (R119) -/

/-- The own state of a cluster alone is replaced. -/
theorem State.clustersOnly_updCluster (s : State) (g : Nat) (f : CluSt → CluSt) : s.clustersOnly (s.updCluster g f) [g] :=
  fun _ hm => s.cluster_updCluster_ne f (by simpa using hm)

section
variable {g : Clu} {lane : Fin 8} {chan : Fin 4} {s : State} (hup : s.tileUp (g / 4) = true)
include hup

/-- A test acts in the period after the present one where no other waits for its period. -/
theorem exec_residueTest_free (h : ∀ x, (s.cluster g).test = some x → x.1 ≤ s.tick) : exec (.residueTest g lane chan) s =
    .next (s.updCluster g (fun c => { c with test := some (s.tick + 1, lane.val, chan.val) })) := by
  change execResidueTest g lane chan s = _
  rw [execResidueTest, State.toTile_up _ _ _ _ hup]
  split
  next t l c e => rw [if_neg (Nat.not_lt.2 (h _ e))]
  next => rfl
theorem exec_residueTest_waiting {x : Nat × Nat × Nat} (hx : (s.cluster g).test = some x) (hlt : s.tick < x.1) :
    exec (.residueTest g lane chan) s = .next s := by
  obtain ⟨t, l, c⟩ := x
  change execResidueTest g lane chan s = _
  rw [execResidueTest, State.toTile_up _ _ _ _ hup, hx]
  exact if_pos hlt

end

/-! ### A failed lane (R118) -/

/-- An upset of the period counts for lane l of cluster g. -/
def State.laneHit (s : State) (g : Nat) (inp : TickIn) (l : Nat) : Bool :=
  inp.upsets.any (fun u => u.ch / 4 == 8 * g + l && (s.desc u.ch).en && (s.pwr g == 3 || (s.pwr g == 2 && u.item == .cal)))

theorem State.laneFails_laneCount (s : State) (g : Nat) (inp : TickIn) {l : Nat} (hl : l < 8) :
    ((s.laneCount g inp).cluster g).laneFails.getD l 0 =
      if s.laneHit g inp l then (s.cluster g).laneFails.getD l 0 + 1 else 0 := by
  rw [State.laneCount, cluster_updCluster_same]
  simp [List.getElem?_range hl, State.laneHit]

theorem State.logged.raiseFault {u x : State} (h : u.logged x) (b : Nat) :
    ({ u with faultTick := some u.tick } : State).logged (x.raiseFault b) := by
  refine State.logged.trans ?_ (State.quiet_raiseFault x b).logged
  obtain ⟨h1, h2⟩ := h
  unfold State.msgOnly at h2
  generalize x.regs = r at h1
  generalize x.host = o at h1 h2
  generalize x.log = l at h1
  subst h1
  exact ⟨rfl, h2⟩
/-- A cause of FAULT_N leaves the log. -/
theorem State.newest_raiseFault {s : State} {src bit addr d0 d1 : Nat} (h : s.newest src bit addr d0 d1) (b : Nat) :
    (s.raiseFault b).newest src bit addr d0 d1 :=
  newest_quiet (s := { s with faultTick := some s.tick }) h (s.quiet_raiseFault b)
/-- FAULT_N is asserted. -/
theorem State.asserted_raiseFault (s : State) (b : Nat) : (s.raiseFault b).bit HUB_FAULT_STAT fHUB_FAULT_STAT_ASSERTED = true := by
  have asserted : fHUB_FAULT_STAT_ASSERTED.flag := by decide
  have shown : ∀ u : State, (u.raise HUB_FAULT_STAT fHUB_FAULT_STAT_ASSERTED).bit HUB_FAULT_STAT fHUB_FAULT_STAT_ASSERTED = true :=
    fun u => u.bit_raise _ asserted
  rw [State.raiseFault, State.bit, State.fld, rd_hubEvent, rd_raise_ne _ _ (by decide), State.raiseIf]
  split
  · exact bit_raise_of_bit (by decide) asserted (shown _)
  · exact shown _

/-- A bit of a register is set, and some effects are put into the agenda. -/
def State.markAt (s : State) (a b : Nat) (ls : List (Nat × Later)) : State := { s.setBitAt a b with later := s.later ++ ls }

theorem State.rd_markAt (s : State) (a b : Nat) (ls : List (Nat × Later)) (c : Nat) : (s.markAt a b ls).rd c = (s.setBitAt a b).rd c := rfl
theorem State.later_markAt (s : State) (a b : Nat) (ls : List (Nat × Later)) : (s.markAt a b ls).later = s.later ++ ls := rfl
theorem State.tick_markAt (s : State) (a b : Nat) (ls : List (Nat × Later)) : (s.markAt a b ls).tick = s.tick := rfl
theorem State.logged_markAt (s : State) (a b k : Nat) (ls : List (Nat × Later)) :
    ({ s with later := s.later ++ ls, faultTick := some k } : State).logged { s.markAt a b ls with faultTick := some k } := ⟨rfl, rfl⟩
theorem State.over_after_setBitAt {α : Type} (s : State) (a b : Nat) (xs : List α) (k : Nat) (l : α → Later) :
    (s.setBitAt a b).over xs (fun t x => t.after k (l x)) = s.markAt a b (xs.map (fun x => (k, l x))) :=
  State.over_after _ xs (fun _ => k) l fun _ _ _ => rfl

/-- A lane's failure is entered and its channels' hold put into the agenda, before it is reported. -/
def State.laneMarked (s : State) (q : Nat) : State :=
  s.markAt (CLU_ENG_STAT (q / 8)) (q % 8) ((quadChans q).map (fun n => (s.tick + 1, Later.hold n srcLaneFail true)))
theorem State.later_laneMarked (s : State) (q : Nat) :
    (s.laneMarked q).later = s.later ++ (quadChans q).map (fun n => (s.tick + 1, Later.hold n srcLaneFail true)) := by
  rw [State.laneMarked, later_markAt]
theorem State.logged_laneMarked (s : State) (q : Nat) :
    ({ s with later := (s.laneMarked q).later, faultTick := some s.tick } : State).logged
      { s.laneMarked q with faultTick := some (s.laneMarked q).tick } := by
  rw [State.laneMarked, later_markAt, tick_markAt]
  exact s.logged_markAt ..

/-- The report: the log's entry, FAULT_N's cause ENGINE, the interrupt bit. -/
def State.laneReport (s : State) (q : Nat) : State :=
  ((s.logEv 2 (q % 8) 3 (CLU_ENG_STAT (q / 8)) (q / 8) 0).raiseFault 10).cluEvent (q / 8) fCLU_INT_STAT_ENGINE

theorem exec_laneFail_acts {q : Quad} {s : State} (h16 : 16 ≤ (s.cluster (q / 8)).laneFails.getD (q % 8) 0)
    (hnew : (s.rd (CLU_ENG_STAT (q / 8))).getLsbD (q % 8) = false) : exec (.laneFail q) s = .next ((s.laneMarked q).laneReport q) := by
  change execLaneFail q s = _
  unfold execLaneFail
  dsimp only
  rw [if_pos (by simpa using ⟨h16, hnew⟩), State.over_after_setBitAt, State.laneReport, State.laneMarked]

section
variable (s : State) (q : Nat)

theorem State.rd_laneReport_ne {a : Nat} (h : a ∉ [HUB_FAULT_STAT, HUB_INT_STAT, CLU_INT_STAT (q / 8), MBX_EVT_STAT]) :
    (s.laneReport q).rd a = s.rd a := by
  simp only [List.mem_cons, List.not_mem_nil, or_false, not_or] at h
  obtain ⟨hfault, hint, hclu, hevt⟩ := h
  rw [State.laneReport, rd_cluEvent, rd_raise_ne _ _ hclu, rd_raiseFault_ne _ _ hfault hint, rd_logEv_ne _ _ _ _ _ _ _ hevt]

/-- The registers of a cluster are none of the hub's. -/
theorem cluReg_ne_hub {g o : Nat} {a : Nat} (ha : a ∈ [HUB_FAULT_STAT, HUB_INT_STAT, MBX_EVT_STAT]) (ho : o < 0x400000) (hg : g < 16) :
    cluBase g + o ≠ a := by
  simp only [List.mem_cons, List.not_mem_nil, or_false, HUB_FAULT_STAT, HUB_INT_STAT, MBX_EVT_STAT, bar4Base] at ha
  simp only [cluBase, tileBase]
  omega

theorem State.logged_laneReport : ({ s with faultTick := some s.tick } : State).logged (s.laneReport q) :=
  (State.logged.raiseFault (s.logged_logEv ..) 10).trans (State.quiet_cluEvent ..).logged
theorem State.newest_laneReport : (s.laneReport q).newest 2 (q % 8) (CLU_ENG_STAT (q / 8)) (q / 8) 0 :=
  newest_quiet (newest_raiseFault (s.newest_logEv ..) 10) (State.quiet_cluEvent ..)
theorem State.rd_fault_laneReport (hq : q < 128) : (s.laneReport q).rd HUB_FAULT_STAT =
    ((s.logEv 2 (q % 8) 3 (CLU_ENG_STAT (q / 8)) (q / 8) 0).raiseFault 10).rd HUB_FAULT_STAT := by
  have apart : HUB_FAULT_STAT ≠ CLU_INT_STAT (q / 8) := (cluReg_ne_hub (by simp) (by decide) (by omega)).symm
  rw [State.laneReport, rd_cluEvent, rd_raise_ne _ _ apart]
theorem State.rd_int_laneReport (hq : q < 128) : (s.laneReport q).rd (CLU_INT_STAT (q / 8)) =
    fCLU_INT_STAT_ENGINE.put (s.rd (CLU_INT_STAT (q / 8))) 1 := by
  have apart : ∀ a ∈ [HUB_FAULT_STAT, HUB_INT_STAT, MBX_EVT_STAT], CLU_INT_STAT (q / 8) ≠ a :=
    fun a ha => cluReg_ne_hub ha (by decide) (by omega)
  rw [State.laneReport, rd_cluEvent, rd_raise_same, rd_raiseFault_ne _ _ (apart _ (by simp)) (apart _ (by simp)),
    rd_logEv_ne _ _ _ _ _ _ _ (apart _ (by simp))]

end

end Sys2Proof.Machine

open Sys2Proof Sys2Proof.Machine

/-- Settles O24: the timer's values by `guardNext`, what a recompute needs by Table 04-6, what a failure and a failed lane report by
`residueNote` and `laneReport`. -/
theorem engineEvents : Obligations.EngineEvents := by
  unfold Obligations.EngineEvents
  refine ⟨?expiry, ?timer, fun n s => s.guardMode_iff n, ?fits, ?outcome, ?flags, ?discard, ?lanes, ?test, ?ignored, ?failed⟩
  case expiry =>
    intro n s hl hr hg
    obtain ⟨regs, -⟩ := s.regFrame_setGuard n 0
    exact ⟨_, exec_guardTimerExpiry_last hl hr hg, s.guardLeft_setGuard n (by decide), s.timer_setGuard n 0, regs,
      s.onlyRegs_setGuard n 0⟩
  case timer =>
    intro n s
    refine ⟨s.guardLeft_guardTick n, fun h => ?_, s.chan_guardTick n, s.chFrame_guardTick n⟩
    rw [s.guardLeft_guardTick n, State.timer_guardTick h]
  case fits =>
    exact fun n s => ⟨s.recomputeFits_single n, s.recomputeFits_cal n, s.recomputeFits_ff n, s.recomputeFits_ffRail n,
      s.recomputeFits_slots n⟩
  case outcome =>
    intro n ups s
    refine ⟨?_, fun hne h => State.residueOutcome_recomputed hne h.1 h.2, State.residueOutcome_model, State.residueOutcome_others⟩
    rintro rfl
    exact State.residueOutcome_nil
  case flags =>
    intro n o s
    dsimp only
    rw [show ((n / 32 : Ch) : Nat) = n / 32 from rfl]
    have recomputed := s.residueNote_shows n (fc := fCH_ENG_STAT_RECOMPUTED) (fg := fCLU_ENG_STAT_RECOMPUTED)
      (fk := fCLU_ENG_CNT_RECOMPUTES) (by decide) (by decide) (by decide) rfl
    have unrecovered := s.residueNote_shows n (fc := fCH_ENG_STAT_UNRECOVERED) (fg := fCLU_ENG_STAT_UNRECOVERED)
      (fk := fCLU_ENG_CNT_UNRECOVERED) (by decide) (by decide) (by decide) rfl
    have cluInt := cluEngStat_ne_int (n / 32)
    obtain ⟨chInt, cntInt⟩ := engRegs_ne_int n (n / 32)
    refine ⟨?_, fun ho => ?_, ?_, fun ho => ?_, s.regFrame_residueFlags n o⟩
    · rintro rfl
      exact s.residueFlags_zero n
    · obtain rfl | ho : o = 1 ∨ 2 ≤ o := by omega
      · rw [State.residueFlags_recomputed]
        exact recomputed.1
      · rw [s.residueFlags_unrecovered n ho, State.bit_cluEvent_ne _ _ _ chInt, State.bit_cluEvent_ne _ _ _ cluInt]
        exact unrecovered.1
    · rintro rfl
      rw [State.residueFlags_recomputed]
      exact recomputed.2
    · obtain ⟨-, chFlag, cluFlag, count⟩ := unrecovered
      rw [s.residueFlags_unrecovered n ho, State.bit_cluEvent_ne _ _ _ chInt, State.bit_cluEvent_ne _ _ _ cluInt]
      refine ⟨chFlag, cluFlag, ?_, ?_⟩
      · rw [State.fld, State.rd_cluEvent, State.rd_raise_ne _ _ cntInt]
        exact count
      · rw [State.bit, State.fld, State.rd_cluEvent]
        exact State.bit_raise _ _ (by decide)
  case discard =>
    intro n old s
    obtain ⟨eng, model, trk, accV, accI⟩ := s.discards_chanDiscard n old
    exact ⟨eng, model, trk, accV, accI, s.chansOnly_chanDiscard n old, rfl⟩
  case lanes => exact fun g inp s => ⟨fun l hl => s.laneFails_laneCount g inp hl, s.clustersOnly_updCluster g _, rfl⟩
  case test =>
    intro g lane chan s hup h
    exact ⟨_, exec_residueTest_free hup h, s.cluster_updCluster_same g _, s.clustersOnly_updCluster g _, rfl⟩
  case ignored => exact fun g lane chan x s hup hx hlt => exec_residueTest_waiting hup hx hlt
  case failed =>
    intro q s h16 hnew
    have hq : q.val < 128 := q.isLt
    have apart : CLU_ENG_STAT (q / 8) ∉ [HUB_FAULT_STAT, HUB_INT_STAT, CLU_INT_STAT (q / 8), MBX_EVT_STAT] := by
      have hub : ∀ a ∈ [HUB_FAULT_STAT, HUB_INT_STAT, MBX_EVT_STAT], CLU_ENG_STAT (q / 8) ≠ a :=
        fun a ha => cluReg_ne_hub ha (by decide) (by omega)
      simp [hub, (cluEngStat_ne_int (q / 8))]
    have frame := (s.laneMarked q).logged_laneReport q
    have later : ((s.laneMarked q).laneReport q).later = (s.laneMarked q).later := by rw [frame.1]
    refine ⟨_, exec_laneFail_acts h16 hnew, ?_, later.trans (s.later_laneMarked q), State.newest_laneReport .., ?_, ?_, ?_,
      fun a ha => ?_, ?_⟩
    · rw [State.rd_laneReport_ne _ _ apart, State.laneMarked, State.rd_markAt, State.rd_setBitAt_same]
    · rw [State.rd_fault_laneReport _ _ hq]
      exact State.getLsbD_raiseFault _ (by decide) (by decide)
    · rw [State.bit, State.fld, State.rd_fault_laneReport _ _ hq]
      exact State.asserted_raiseFault _ 10
    · rw [State.rd_int_laneReport _ _ hq, State.laneMarked, State.rd_markAt, State.rd_setBitAt_ne _ _ (cluEngStat_ne_int (q / 8)).symm]
    · simp only [List.mem_cons, List.not_mem_nil, or_false, not_or] at ha
      obtain ⟨heng, hfault, hint, hclu, hevt⟩ := ha
      rw [State.rd_laneReport_ne _ _ (by simp [*]), State.laneMarked, State.rd_markAt, State.rd_setBitAt_ne _ _ heng]
    · rw [later]
      exact (s.logged_laneMarked q).trans frame

end

section
/-!
The code of a tick: the safe code and FORCE_SAFE as the host writes them, the supply monitor's source, the code applied.
-/

namespace Sys2Proof.Machine

/-! ### Writes of the safe code and of FORCE_SAFE (R206, R207) -/

theorem State.getLsbD_merge (s : State) (a : Nat) (data : Word) (be : Nat) (m : Word) {i : Nat} (hi : i < 32) :
    (s.merge a data be m).getLsbD i = if be.testBit (i / 8) ∧ m.getLsbD i then data.getLsbD i else (s.rd a).getLsbD i := by
  rw [State.merge, getLsbD_masked _ _ _ hi, BitVec.getLsbD_and, getLsbD_beMask be hi]
  simp only [Bool.and_eq_true]

/-- A register is written, and an effect put into the agenda. -/
def State.writeAfter (s : State) (a : Nat) (w : Word) (t : Nat) (l : Later) : State := (s.wr a w).after t l

theorem State.rd_writeAfter_same (s : State) (a : Nat) (w : Word) (t : Nat) (l : Later) : (s.writeAfter a w t l).rd a = w := s.rd_wr_same a w
theorem State.regsOnly_writeAfter (s : State) (a : Nat) (w : Word) (t : Nat) (l : Later) : s.regsOnly (s.writeAfter a w t l) [a] :=
  s.regsOnly_wr w (by simp)
theorem State.later_writeAfter (s : State) (a : Nat) (w : Word) (t : Nat) (l : Later) :
    (s.writeAfter a w t l).later = s.later ++ [(t, l)] := rfl
theorem State.frame_writeAfter (s : State) (a : Nat) (w : Word) (t : Nat) (l : Later) :
    s.writeAfter a w t l = { s with regs := (s.writeAfter a w t l).regs, later := (s.writeAfter a w t l).later } := rfl

section
variable {n : Ch} (data : Word) (be : Nat) {s : State} (hup : s.tileUp (n / 128) = true)
include hup

theorem exec_safeCodeWrite_up : exec (.safeCodeWrite n data be) s =
    .next (s.writeAfter (CH_SAFE_CODE n) (s.merge (CH_SAFE_CODE n) data be 0xFFFFF) (s.tick + 2)
      (.safeDac n (s.merge (CH_SAFE_CODE n) data be 0xFFFFF).toNat)) := by
  change execSafeCodeWrite n data be s = _
  rw [execSafeCodeWrite, State.toTile_up _ _ _ _ hup, State.writeAfter]
theorem exec_forceSafeWrite_up : exec (.forceSafeWrite n data be) s =
    .next (s.writeAfter (CH_DAC_CTL n) (s.merge (CH_DAC_CTL n) data be 1) (s.tick + 2)
      (.hold n srcForce ((s.merge (CH_DAC_CTL n) data be 1).getLsbD 0))) := by
  change execForceSafeWrite n data be s = _
  rw [execForceSafeWrite, State.toTile_up _ _ _ _ hup, State.writeAfter]

end

/-! ### A source that holds (R207) -/

theorem safeSrc_inj {m n : Nat} : CH_SAFE_SRC m = CH_SAFE_SRC n ↔ m = n := by
  simp only [CH_SAFE_SRC, chBase, cluBase, tileBase]
  omega
theorem safeSrc_ne_dacStat (m n : Nat) : CH_SAFE_SRC m ≠ CH_DAC_STAT n := by
  simp only [CH_SAFE_SRC, CH_DAC_STAT, chBase, cluBase, tileBase]
  omega

/-- HOLD and SEEN of a source. -/
def heldWord (w : Word) (b : Nat) : Word := w ||| BitVec.ofNat 32 (2 ^ b) ||| BitVec.ofNat 32 (2 ^ (16 + b))

theorem heldWord_idem (w : Word) (b : Nat) : heldWord (heldWord w b) b = heldWord w b := by
  unfold heldWord
  apply BitVec.eq_of_getLsbD_eq
  intro i hi
  simp only [BitVec.getLsbD_or]
  cases w.getLsbD i <;> cases (BitVec.ofNat 32 (2 ^ b)).getLsbD i <;> simp

theorem State.rd_holdSrc (s : State) (m b n : Nat) :
    (s.holdSrc m b).rd (CH_SAFE_SRC n) = if n = m then heldWord (s.rd (CH_SAFE_SRC n)) b else s.rd (CH_SAFE_SRC n) := by
  rw [State.holdSrc, State.parkBit, rd_setBit_ne _ _ _ (safeSrc_ne_dacStat n m)]
  split
  next e => rw [e, rd_setBitAt_same, rd_setBitAt_same, heldWord]
  next e =>
    have apart : CH_SAFE_SRC n ≠ CH_SAFE_SRC m := fun h => e (safeSrc_inj.1 h)
    rw [rd_setBitAt_ne _ _ apart, rd_setBitAt_ne _ _ apart]
theorem State.rd_holdSrc_ne (s : State) {m b a : Nat} (h : a ≠ CH_SAFE_SRC m ∧ a ≠ CH_DAC_STAT m) : (s.holdSrc m b).rd a = s.rd a := by
  rw [State.holdSrc, State.parkBit, rd_setBit_ne _ _ _ h.2, rd_setBitAt_ne _ _ h.1, rd_setBitAt_ne _ _ h.1]
theorem State.onlyRegs_holdSrc (s : State) (n b : Nat) : s.onlyRegs (s.holdSrc n b) :=
  ((s.onlyRegs_setBitAt ..).trans (State.onlyRegs_setBitAt ..)).trans (State.onlyRegs_setBit ..)

/-- A source that holds some channels shows on each of them, and on no other. -/
theorem State.rd_holdAll (s : State) (ns : List Nat) (b n : Nat) :
    (s.over ns (fun t m => t.holdSrc m b)).rd (CH_SAFE_SRC n) =
      if n ∈ ns then heldWord (s.rd (CH_SAFE_SRC n)) b else s.rd (CH_SAFE_SRC n) := by
  induction ns generalizing s with
  | nil => rfl
  | cons m ns ih =>
    change ((s.holdSrc m b).over ns _).rd _ = _
    rw [ih, rd_holdSrc]
    by_cases here : n = m <;> by_cases later : n ∈ ns <;> simp [here, later, heldWord_idem]

/-! ### The supply monitor (R432) -/

theorem mem_tileChans {n t : Nat} : n ∈ tileChans t ↔ n / 128 = t := by
  simp only [tileChans, List.mem_map, List.mem_range]
  constructor
  · rintro ⟨i, hi, rfl⟩
    omega
  · rintro rfl
    exact ⟨n % 128, Nat.mod_lt _ (by decide), by omega⟩

/-- A release of source SUPPLY of a channel of tile t. -/
def Later.supplyRelease (t : Nat) : Later → Bool
  | .hold n b on => n / 128 == t && b == srcSupply && !on
  | _ => false

/-- Tile t's supply is low, and `ls` is left of the agenda. -/
def State.supplyLow (s : State) (t : Nat) (ls : List (Nat × Later)) : State :=
  { s with hub := { s.hub with supplyLow := s.hub.supplyLow ||| 2 ^ t }, later := ls }
/-- Its releases are taken back. -/
def State.supplyLost (s : State) (t : Nat) : State := s.supplyLow t (s.later.filter (fun x => !x.2.supplyRelease t))

theorem exec_supplySenseFall (t : Tile) (cyc : Nat) (s : State) :
    exec (.supplySenseFall t cyc) s = .next ((s.supplyLost t).over (tileChans t) (fun u n => u.holdSrc n srcSupply)) := by
  change execSupplySenseFall t cyc s = _
  refine congrArg (fun ls => (.next ((s.supplyLow t ls).over (tileChans t) (fun u n => u.holdSrc n srcSupply)) : Out))
    (List.filter_congr (l := s.later) fun x _ => ?_)
  cases x.2 <;> rfl

theorem exec_supplySenseRecover (t : Tile) (s : State) : exec (.supplySenseRecover t) s =
    .next { s with
      hub := { s.hub with supplyLow := s.hub.supplyLow &&& (15 - 2 ^ t.val) }
      later := s.later ++ (tileChans t).map (fun n => (s.tick + 1, Later.hold n srcSupply false)) } := by
  change execSupplySenseRecover t s = _
  rw [execSupplySenseRecover, State.over_after _ _ (fun u => u.tick + 1) (fun n => .hold n srcSupply false) fun _ _ _ => rfl]

/-! ### The code applied at a tick (R100, R127, R204, R207) -/

/-- Flags of a family of registers, set one after the other: each shows what was set there. -/
theorem State.bit_setBits (s : State) {A : Nat → Nat} (hA : ∀ i j, A i = A j → i = j) {f : Fld} (hf : f.flag) (v : Nat → Bool)
    (ks : List Nat) {k : Nat} :
    (ks.foldl (fun t k => t.setBit (A k) f (v k)) s).bit (A k) f = if k ∈ ks then v k else s.bit (A k) f := by
  induction ks generalizing s with
  | nil => rfl
  | cons j ks ih =>
    rw [List.foldl_cons, ih]
    by_cases here : k = j
    · subst here
      simp [State.bit_setBit _ _ _ hf]
    · have apart : A k ≠ A j := fun h => here (hA _ _ h)
      have kept : (s.setBit (A j) f (v j)).bit (A k) f = s.bit (A k) f := by
        rw [State.bit, State.setBit, fld_setFld_other _ _ _ _ apart, State.bit]
      simp [here, kept]

/-- The registers that show which loop is in control. -/
def ctrlRegs (n : Nat) : List Nat := [CH_LOOP_STAT n, LOOP_STAT n 0, LOOP_STAT n 1, LOOP_STAT n 2, LOOP_STAT n 3]

theorem loopStat_inj (n i j : Nat) (h : LOOP_STAT n i = LOOP_STAT n j) : i = j := by
  unfold LOOP_STAT at h
  omega
theorem loopStat_mem {n k : Nat} (hk : k < 4) : LOOP_STAT n k ∈ ctrlRegs n := by
  match k, hk with
  | 0, _ | 1, _ | 2, _ | 3, _ => simp [ctrlRegs]
theorem chLoopStat_ne (n k : Nat) : CH_LOOP_STAT n ≠ LOOP_STAT n k := by
  unfold CH_LOOP_STAT LOOP_STAT
  omega

section
variable (s : State) (n : Nat) {c : Nat}

theorem State.ctrl_setCtrl (hc : c < 8) : (s.setCtrl n c).ctrl n = c := by
  have kept : (s.setCtrl n c).rd (CH_LOOP_STAT n) = (s.setFld (CH_LOOP_STAT n) fCH_LOOP_STAT_CTRL c).rd (CH_LOOP_STAT n) :=
    State.rd_over _ _ _ _ fun t k _ => rd_setBit_ne _ _ _ (chLoopStat_ne n k)
  rw [State.ctrl, State.fld, kept]
  exact s.fld_setFld_same _ _ _ (by decide) hc
theorem State.inCtrl_setCtrl {k : Nat} (hk : k < 4) : (s.setCtrl n c).bit (LOOP_STAT n k) fLOOP_STAT_IN_CTRL = (c == k) := by
  rw [State.setCtrl, State.bit_setBits _ (loopStat_inj n) (by decide) (fun k => c == k), if_pos (by simpa using hk)]
theorem State.regFrame_setCtrl (c : Nat) {as : List Nat} (h : ctrlRegs n ⊆ as) : s.regFrame (s.setCtrl n c) as :=
  List.foldlRecOn (motive := fun t : State => s.regFrame t as) _ _ (s.regFrame_setFld _ _ (h (by simp [ctrlRegs])))
    fun t ht k hk => ht.trans (t.regFrame_setBit _ _ (h (loopStat_mem (by simpa using hk))))

/-- The safe code is applied in place of the engine's. -/
def State.substituted : Bool := s.isHeld n || !s.inRun n
/-- What the DAC slice takes. -/
def State.sliceCode : Nat := if s.substituted n then (s.dac n).safe else (s.eng n).hold
/-- What the code register takes. -/
def State.codeNext : Nat := if s.substituted n then s.fld (CH_SAFE_CODE n) fCH_SAFE_CODE_SAFE else s.sliceCode n
/-- The code register shows the code and whether it is the safe one. -/
def State.showCode : State :=
  (s.setFld (CH_DAC_CODE n) fCH_DAC_CODE_CODE (s.codeNext n)).setBit (CH_DAC_CODE n) fCH_DAC_CODE_SAFE (s.substituted n)
/-- A major transition of the slice (R205). -/
def State.majorStep : Bool := s.biased n && s.sliceCode n / 16384 != (s.dac n).last / 16384
/-- The tick's effect but for CTRL. -/
def State.codeTaken : State :=
  ((s.showCode n).updDac n (fun d => { d with last := s.sliceCode n })).raiseIf (s.majorStep n) (CH_DAC_STAT n) fCH_DAC_STAT_DEGLITCH
/-- CTRL of the period that has ended, once the code is known (R127). -/
def State.ctrlNext : Nat := if s.substituted n || !(s.desc n).en then 6 else (s.eng n).sel

theorem State.applyCode_eq : s.applyCode n = if s.ctrl n = 7 then s.codeTaken n else (s.codeTaken n).setCtrl n (s.ctrlNext n) := by
  unfold State.applyCode State.codeTaken State.ctrlNext State.showCode State.majorStep State.codeNext State.sliceCode State.substituted
  rfl

theorem State.regFrame_showCode {as : List Nat} (h : CH_DAC_CODE n ∈ as) : s.regFrame (s.showCode n) as :=
  (s.regFrame_setFld _ _ h).trans (State.regFrame_setBit _ _ _ h)
theorem State.code_showCode : (s.showCode n).fld (CH_DAC_CODE n) fCH_DAC_CODE_CODE = s.codeNext n % 2 ^ 20 := by
  rw [State.showCode, State.setBit, fld_setFld_apart _ _ _ (by decide), fld_setFld _ _ _ _ (by decide)]
  rfl
theorem State.safe_showCode : (s.showCode n).bit (CH_DAC_CODE n) fCH_DAC_CODE_SAFE = s.substituted n :=
  State.bit_setBit _ _ _ (by decide)

/-- The tick's code is taken before CTRL follows it: of the channel, the registers of CTRL alone may still change. -/
theorem State.regFrame_applyCode {as : List Nat} (h : ctrlRegs n ⊆ as) : (s.codeTaken n).regFrame (s.applyCode n) as := by
  rw [applyCode_eq]
  split
  · exact .refl ..
  · exact State.regFrame_setCtrl _ n _ h

/-- What CTRL does not show, the tick's effect but for CTRL gives. -/
theorem State.rd_applyCode {a : Nat} (h : a ∉ ctrlRegs n) : (s.applyCode n).rd a = (s.codeTaken n).rd a :=
  (s.regFrame_applyCode n (List.Subset.refl _)).1 a h

theorem dacRegs_ne (n : Nat) : CH_DAC_CODE n ≠ CH_DAC_STAT n ∧ CH_LOOP_STAT n ≠ CH_DAC_CODE n ∧ CH_LOOP_STAT n ≠ CH_DAC_STAT n ∧
    CH_DAC_CODE n ∉ ctrlRegs n ∧ CH_DAC_STAT n ∉ ctrlRegs n := by
  simp only [CH_DAC_CODE, CH_DAC_STAT, CH_LOOP_STAT, ctrlRegs, LOOP_STAT, List.mem_cons, List.not_mem_nil, or_false]
  omega

theorem State.rd_code_applyCode : (s.applyCode n).rd (CH_DAC_CODE n) = (s.showCode n).rd (CH_DAC_CODE n) := by
  obtain ⟨codeStat, -, -, codeCtrl, -⟩ := dacRegs_ne n
  rw [s.rd_applyCode n codeCtrl, State.codeTaken, rd_raiseIf_ne _ _ _ codeStat, State.updDac, rd_updChan]
theorem State.ctrl_codeTaken : (s.codeTaken n).ctrl n = s.ctrl n := by
  obtain ⟨-, loopCode, loopStat, -, -⟩ := dacRegs_ne n
  rw [State.ctrl, State.fld, State.codeTaken, rd_raiseIf_ne _ _ _ loopStat, State.updDac, rd_updChan, State.showCode,
    rd_setBit_ne _ _ _ loopCode, rd_setFld_ne _ _ _ loopCode, State.ctrl, State.fld]

theorem State.chan_applyCode : (s.applyCode n).chan n = { s.chan n with dac := { s.dac n with last := s.sliceCode n } } := by
  have shown : (s.showCode n).chan n = s.chan n := chan_quiet (s.regFrame_showCode n (List.mem_singleton.2 rfl)).2 n
  rw [chan_quiet (s.regFrame_applyCode n (List.Subset.refl _)).2, State.codeTaken, chan_quiet (State.quiet_raiseIf ..), State.updDac,
    chan_updChan_same, shown, State.dac]

theorem State.chFrame_applyCode : s.chFrame (s.applyCode n) n (CH_DAC_CODE n :: CH_DAC_STAT n :: ctrlRegs n) := by
  have taken : s.chFrame (s.codeTaken n) n (CH_DAC_CODE n :: CH_DAC_STAT n :: ctrlRegs n) :=
    (((s.regFrame_showCode n (by simp)).chFrame n).trans (State.chFrame_updChan ..)).trans
      ((State.regFrame_raiseIf _ _ _ (by simp)).chFrame n)
  exact taken.trans ((s.regFrame_applyCode n fun a ha => by simp [ha]).chFrame n)

/-- Where CTRL is known, it becomes that of the code applied. -/
theorem State.ctrl_applyCode (hsel : (s.eng n).sel < 8) (h : s.ctrl n ≠ 7) : (s.applyCode n).ctrl n = s.ctrlNext n ∧
    ∀ k, k < 4 → (s.applyCode n).bit (LOOP_STAT n k) fLOOP_STAT_IN_CTRL = (s.ctrlNext n == k) := by
  have small : s.ctrlNext n < 8 := by
    unfold State.ctrlNext
    split
    · decide
    · exact hsel
  rw [applyCode_eq, if_neg h]
  exact ⟨State.ctrl_setCtrl _ n small, fun k hk => State.inCtrl_setCtrl _ n hk⟩

theorem State.deglitch_applyCode (h : s.majorStep n = true) : (s.applyCode n).bit (CH_DAC_STAT n) fCH_DAC_STAT_DEGLITCH = true := by
  obtain ⟨-, -, -, -, statCtrl⟩ := dacRegs_ne n
  rw [State.bit, State.fld, s.rd_applyCode n statCtrl, State.codeTaken, h, State.raiseIf, if_pos rfl]
  exact State.bit_raise _ _ (by decide)

/-- The code register holds the code that it is given. -/
theorem State.code_applyCode : (s.applyCode n).fld (CH_DAC_CODE n) fCH_DAC_CODE_CODE =
    if s.substituted n then s.fld (CH_SAFE_CODE n) fCH_SAFE_CODE_SAFE else (s.eng n).hold % 2 ^ 20 := by
  have code : (s.applyCode n).fld (CH_DAC_CODE n) fCH_DAC_CODE_CODE = s.codeNext n % 2 ^ 20 := by
    rw [State.fld, rd_code_applyCode]
    exact s.code_showCode n
  have small : s.fld (CH_SAFE_CODE n) fCH_SAFE_CODE_SAFE < 2 ^ 20 := Nat.mod_lt _ (by decide)
  rw [code, State.codeNext, State.sliceCode]
  split
  · exact Nat.mod_eq_of_lt small
  · rfl

end

/-! ### The code of a drive (R110) -/

/-- A rounded quotient is within half a step. -/
theorem rhe_close (x : Int) (d : Nat) (hd : 0 < d) : 2 * (rhe x d * d - x).natAbs ≤ d := by
  have parts := Int.mul_ediv_add_emod x d
  have low := Int.emod_nonneg x (by omega : (d : Int) ≠ 0)
  have high := Int.emod_lt_of_pos x (by omega : 0 < (d : Int))
  have step : ((x / d + 1) * d : Int) = d * (x / d) + d := by rw [Int.add_mul, Int.one_mul, Int.mul_comm]
  have here : (x / d * d : Int) = d * (x / d) := Int.mul_comm ..
  unfold rhe
  dsimp only
  split
  · rw [here]
    omega
  · split
    · rw [step]
      omega
    · split
      · rw [here]
        omega
      · rw [step]
        omega

/-- The code of a drive is some multiple of the step that lies within half a step of it, kept in the range of codes. -/
theorem codeOf_nearest (d : Int) : ∃ m : Int, (m * 2 ^ 109 - d).natAbs ≤ 2 ^ 108 ∧ codeOf d = (clampI 0 0xFFFFF (m + 0x80000)).toNat := by
  refine ⟨rhe d (2 ^ 109), ?_, rfl⟩
  have close := rhe_close d (2 ^ 109) (by decide)
  generalize rhe d (2 ^ 109) = m at *
  omega

theorem clampI_code (x : Int) : 0 ≤ clampI 0 0xFFFFF x ∧ clampI 0 0xFFFFF x ≤ 0xFFFFF ∧ (0 ≤ x → x ≤ 0xFFFFF → clampI 0 0xFFFFF x = x) ∧
    (0xFFFFF ≤ x → clampI 0 0xFFFFF x = 0xFFFFF) := by
  unfold clampI
  split
  · omega
  · split <;> omega

theorem codeOf_driveOf {c : Nat} (hc : c < 2 ^ 20) : codeOf (driveOf c) = c := by
  obtain ⟨m, close, code⟩ := codeOf_nearest (driveOf c)
  obtain ⟨-, -, inside, -⟩ := clampI_code (m + 0x80000)
  unfold driveOf at close
  obtain rfl : m = (c : Int) - 0x80000 := by omega
  rw [code, inside (by omega) (by omega)]
  omega

theorem codeOf_lt (d : Int) : codeOf d < 2 ^ 20 := by
  obtain ⟨m, -, code⟩ := codeOf_nearest d
  obtain ⟨low, high, -, -⟩ := clampI_code (m + 0x80000)
  omega

theorem codeOf_top {d : Int} (h : one - 2 ^ 108 ≤ d) : codeOf d = 0xFFFFF := by
  obtain ⟨m, close, code⟩ := codeOf_nearest d
  obtain ⟨-, -, -, top⟩ := clampI_code (m + 0x80000)
  unfold one at h
  rw [code, top (by omega)]
  rfl

theorem codeOf_close {d : Int} (hlo : -one ≤ d) (hhi : d < one - 2 ^ 108) : (driveOf (codeOf d) - d).natAbs ≤ 2 ^ 108 := by
  obtain ⟨m, close, code⟩ := codeOf_nearest d
  obtain ⟨-, -, inside, -⟩ := clampI_code (m + 0x80000)
  unfold one at hlo hhi
  have drive : driveOf (codeOf d) = m * 2 ^ 109 := by
    rw [code, inside (by omega) (by omega), driveOf]
    omega
  rw [drive]
  exact close

end Sys2Proof.Machine

open Sys2Proof Sys2Proof.Machine

/-- Settles O35: writes by `merge`, the supply's source by `rd_holdAll`, the code applied by the lemmas on `applyCode`, a drive's code by
`codeOf_nearest`. -/
theorem safeCodeSources : Obligations.SafeCodeSources := by
  unfold Obligations.SafeCodeSources
  refine ⟨?safeCode, ?force, ?fall, ?recover, ?tick, fun c => codeOf_driveOf, fun d => ⟨codeOf_lt d, codeOf_top, codeOf_close⟩⟩
  case safeCode =>
    intro n data be s hup
    have field : ∀ k : Fin 32, (0xFFFFF : Word).getLsbD k = decide (k.val < 20) := by decide
    refine ⟨_, exec_safeCodeWrite_up data be hup, fun i hi => ?_, ?_, State.regsOnly_writeAfter _ _ _ _ _, State.frame_writeAfter ..⟩
    · rw [State.rd_writeAfter_same, State.getLsbD_merge _ _ _ _ _ hi, field ⟨i, hi⟩]
      simp only [decide_eq_true_eq]
    · rw [State.rd_writeAfter_same, State.later_writeAfter]
  case force =>
    intro n data be s hup
    have field : ∀ k : Fin 32, (1 : Word).getLsbD k = decide (k.val = 0) := by decide
    refine ⟨_, exec_forceSafeWrite_up data be hup, fun i hi => ?_, ?_, State.regsOnly_writeAfter _ _ _ _ _, State.frame_writeAfter ..⟩
    · rw [State.rd_writeAfter_same, State.getLsbD_merge _ _ _ _ _ hi, field ⟨i, hi⟩]
      by_cases h0 : i = 0
      · subst h0
        simp
      · simp [h0]
    · rw [State.rd_writeAfter_same, State.later_writeAfter]
  case fall =>
    intro t cyc s
    have frame := State.onlyRegs_over (s.supplyLost t) (tileChans t) _ fun u n => u.onlyRegs_holdSrc n srcSupply
    refine ⟨_, exec_supplySenseFall t cyc s, fun n hn => ?_, fun a ha => ?_, by rw [frame]; rfl, ?_, by rw [frame]; rfl⟩
    · rw [State.rd_holdAll, if_pos (mem_tileChans.2 hn)]
      rfl
    · exact State.rd_over _ _ _ a fun u n hn => u.rd_holdSrc_ne (ha n (mem_tileChans.1 hn))
    · rw [frame]
      refine List.filter_congr fun x _ => ?_
      cases x.2 <;> rfl
  case recover => exact fun t s => ⟨_, exec_supplySenseRecover t s, rfl, rfl, rfl⟩
  case tick =>
    intro n s hsel
    refine ⟨s.code_applyCode n, ?_, rfl, s.chan_applyCode n, fun h7 => ?_, fun h7 => ?_, fun hb hne => ?_, s.chFrame_applyCode n⟩
    · rw [State.bit, State.fld, State.rd_code_applyCode]
      exact s.safe_showCode n
    · rw [State.applyCode_eq, if_pos h7, State.ctrl_codeTaken, h7]
    · obtain ⟨ctrl, inCtrl⟩ := s.ctrl_applyCode n hsel h7
      refine ⟨ctrl, fun k hk => ?_⟩
      rw [ctrl, inCtrl k hk]
    · rw [State.dac, s.chan_applyCode n] at hne
      exact s.deglitch_applyCode n (by simpa [State.majorStep, hb] using hne)

end

section
/-!
Coefficient bank swaps: the request, its cancel and the swap at its tick, with what an integrator transfer leaves.
-/

namespace Sys2Proof.Machine

/-! ### Updates of registers that a swap is made of -/

theorem State.regFrame_setBitAt (s : State) {a : Nat} (b : Nat) {as : List Nat} (h : a ∈ as) : s.regFrame (s.setBitAt a b) as :=
  ⟨s.regsOnly_wr _ h, s.quiet_setBitAt a b⟩
theorem State.regFrame_incWrap (s : State) {a : Nat} (f : Fld) {as : List Nat} (h : a ∈ as) : s.regFrame (s.incWrap a f) as :=
  s.regFrame_setFld f _ h
/-- Two fields have no bit in common. -/
abbrev Fld.apart (f g : Fld) : Prop := g.lsb + g.width ≤ f.lsb ∨ f.lsb + f.width ≤ g.lsb

/-- Raising a flag leaves the fields apart from it in its register. -/
theorem State.fld_raiseIf_apart (s : State) (c : Bool) (a : Nat) {f g : Fld} (h : f.apart g) :
    (s.raiseIf c a f).fld a g = s.fld a g := by
  unfold State.raiseIf
  split
  · exact s.fld_setFld_apart a 1 h
  · rfl

/-! ### The integrator transfer (R135) -/

/-- The registers in which a transfer shows a clamped integrator. -/
def clampRegs (n : Nat) : List Nat := [LOOP_SAT n 0, LOOP_SAT n 1, LOOP_SAT n 2, LOOP_SAT n 3, CLU_ENG_SAT (n / 32)]

theorem loopSat_mem_clampRegs {n k : Nat} (hk : k < 4) : LOOP_SAT n k ∈ clampRegs n := by
  match k, hk with
  | 0, _ | 1, _ | 2, _ | 3, _ => simp [clampRegs]
theorem cluEngSat_mem_clampRegs (n : Nat) : CLU_ENG_SAT (n / 32) ∈ clampRegs n := by simp [clampRegs]
theorem coefStat_not_mem_clampRegs (n : Nat) : CH_COEF_STAT n ∉ clampRegs n := by
  simp only [clampRegs, CH_COEF_STAT, LOOP_SAT, CLU_ENG_SAT, chBase, List.mem_cons, List.not_mem_nil, or_false]
  omega

/-- Outside RUN there is nothing to transfer (R137). -/
theorem State.transfer_idle {s : State} {n : Nat} (h : s.inRun n = false) (new : Nat) : s.transfer n new = (s, false) := by
  rw [State.transfer, if_pos (by simp [h])]

/-- A transfer changes the channel's own state and the registers of a clamp. -/
theorem State.chFrame_transfer (s : State) (n new : Nat) : s.chFrame (s.transfer n new).1 n (clampRegs n) := by
  unfold State.transfer
  dsimp only
  split
  · exact .refl ..
  · refine List.foldlRecOn (motive := fun p : State × Bool => s.chFrame p.1 n (clampRegs n)) _ _ (.refl ..) ?_
    rintro ⟨t, c⟩ ht k hk
    have sat : LOOP_SAT n k ∈ clampRegs n := loopSat_mem_clampRegs (List.mem_range.1 hk)
    dsimp only
    split
    · exact ht
    · have slot := fun f => ht.trans (t.chFrame_updChan n f (clampRegs n))
      split
      · exact slot _
      · exact (slot _).trans <| State.regFrame.chFrame
          (((State.regFrame_raise _ _ sat).trans (State.regFrame_raise _ _ sat)).trans
            (State.regFrame_setBitAt _ _ (cluEngSat_mem_clampRegs n))) n

/-! ### A pending swap (R134, R138) -/

/-- What a channel holds of its pending swap changes, and PENDING shows whether there is one. -/
def State.markSwap (s : State) (n : Nat) (f : EngSt → EngSt) (pending : Bool) : State :=
  (s.updEng n f).setBit (CH_COEF_STAT n) fCH_COEF_STAT_PENDING pending

section
variable (s : State) (n : Nat) (f : EngSt → EngSt) (pending : Bool)

theorem State.chan_markSwap : (s.markSwap n f pending).chan n = { s.chan n with eng := f (s.eng n) } := by
  rw [State.markSwap, chan_quiet (State.quiet_setBit ..), State.updEng, chan_updChan_same, State.eng]
theorem State.rd_markSwap :
    (s.markSwap n f pending).rd (CH_COEF_STAT n) = fCH_COEF_STAT_PENDING.put (s.rd (CH_COEF_STAT n)) pending.toNat :=
  rd_setBit_same ..
theorem State.fld_markSwap_apart {g : Fld} (h : fCH_COEF_STAT_PENDING.apart g) :
    (s.markSwap n f pending).fld (CH_COEF_STAT n) g = s.fld (CH_COEF_STAT n) g := by
  rw [State.markSwap, State.setBit, fld_setFld_apart _ _ _ h, fld_updEng]
theorem State.pending_markSwap : (s.markSwap n f pending).bit (CH_COEF_STAT n) fCH_COEF_STAT_PENDING = pending :=
  State.bit_setBit _ _ _ (by decide)
theorem State.chFrame_markSwap {as : List Nat} (h : CH_COEF_STAT n ∈ as) : s.chFrame (s.markSwap n f pending) n as :=
  (s.chFrame_updChan n _ as).trans ((State.regFrame_setBit _ _ _ h).chFrame n)

end

/-- The stamp that a request names. -/
def State.swapStamp (s : State) (n : Nat) (at_ : Bool) : Option Nat := if at_ then some (s.rd64 (CH_COEF_AT_LO n)) else none
/-- A swap for a stamp, or for tick k+2 where there is none, is pending. -/
def EngSt.pendSwap (s : State) (stamp : Option Nat) (e : EngSt) : EngSt :=
  { e with coefPend := some (s.sched stamp), coefLate := s.lateOpt stamp }
/-- No swap is pending. -/
def EngSt.dropSwap (e : EngSt) : EngSt := { e with coefPend := none }

section
variable {n : Ch} {s : State} (hup : s.tileUp (n / 128) = true)
include hup

theorem exec_coefSwapRequest_free (at_ : Bool) (h : (s.eng n).coefPend = none) :
    exec (.coefSwapRequest n at_) s = .next (s.markSwap n (EngSt.pendSwap s (s.swapStamp n at_)) true) := by
  change execCoefSwapRequest n at_ s = _
  rw [execCoefSwapRequest, State.toTile_up _ _ _ _ hup, if_neg (by simp [h])]
  rfl
theorem exec_coefSwapRequest_taken (at_ : Bool) (h : (s.eng n).coefPend ≠ none) :
    exec (.coefSwapRequest n at_) s = .next (s.raise (CH_COEF_STAT n) fCH_COEF_STAT_REFUSED) := by
  change execCoefSwapRequest n at_ s = _
  rw [execCoefSwapRequest, State.toTile_up _ _ _ _ hup, if_pos (Option.isSome_iff_ne_none.2 h)]
theorem exec_coefSwapCancel_pending {d : Sched} (hd : (s.eng n).coefPend = some d) (h : s.due d = false) :
    exec (.coefSwapCancel n) s = .next (s.markSwap n EngSt.dropSwap false) := by
  change execCoefSwapCancel n s = _
  rw [execCoefSwapCancel, State.toTile_up _ _ _ _ hup, hd]
  dsimp only
  rw [if_neg (by simp [h])]
  rfl
/-- A swap that is due at the coming tick is not taken back (R138). -/
theorem exec_coefSwapCancel_idle (h : (s.eng n).coefPend = none ∨ ∃ d, (s.eng n).coefPend = some d ∧ s.due d = true) :
    exec (.coefSwapCancel n) s = .next s := by
  change execCoefSwapCancel n s = _
  rw [execCoefSwapCancel, State.toTile_up _ _ _ _ hup]
  obtain hd | ⟨d, hd, due⟩ := h
  · rw [hd]
  · rw [hd]
    exact if_pos due

end

/-! ### The swap at its tick (R135, R137, R169) -/

/-- The swap's transfer; a range tick on the same tick has the only one (R169). -/
def State.swapTransfer (s : State) (n : Nat) : State × Bool := if s.rangeTickDue n then (s, false) else s.transfer n (1 - s.coefBank n)
/-- The bank `new` becomes active and the swap is no longer pending, with the flags of a clamped integrator and of a late stamp. -/
def State.swapTo (u : State) (n new : Nat) (clamped late : Bool) : State :=
  (((u.markSwap n EngSt.dropSwap false).setCoefBank n new).raiseIf clamped (CH_COEF_STAT n) fCH_COEF_STAT_CLAMPED).raiseIf late
    (CH_COEF_STAT n) fCH_COEF_STAT_LATE
/-- What a swap does at its tick. -/
def State.swapTick (s : State) (n : Nat) : State :=
  (s.swapTransfer n).1.swapTo n (1 - s.coefBank n) (s.swapTransfer n).2 (s.eng n).coefLate

theorem exec_coefSwapTick_due {n : Ch} {d : Sched} {s : State} (hd : (s.eng n).coefPend = some d) (due : s.due d = true) :
    exec (.coefSwapTick n) s = .next (s.swapTick n) := by
  change execCoefSwapTick n s = _
  rw [execCoefSwapTick, hd]
  exact if_pos due
theorem exec_coefSwapTick_idle {n : Ch} {s : State}
    (h : (s.eng n).coefPend = none ∨ ∃ d, (s.eng n).coefPend = some d ∧ s.due d = false) : exec (.coefSwapTick n) s = .next s := by
  change execCoefSwapTick n s = _
  rw [execCoefSwapTick]
  obtain hd | ⟨d, hd, due⟩ := h
  · rw [hd]
  · rw [hd]
    exact if_neg (by simp [due])

section
variable (u : State) (n new : Nat) (clamped late : Bool)

/-- A field of CH_COEF_STAT that is none of the two flags shows what the change of bank gives. -/
theorem State.fld_swapTo {g : Fld} (hc : fCH_COEF_STAT_CLAMPED.apart g) (hl : fCH_COEF_STAT_LATE.apart g) :
    (u.swapTo n new clamped late).fld (CH_COEF_STAT n) g =
      ((u.markSwap n EngSt.dropSwap false).setCoefBank n new).fld (CH_COEF_STAT n) g := by
  rw [State.swapTo, fld_raiseIf_apart _ _ _ hl, fld_raiseIf_apart _ _ _ hc]

theorem State.coefBank_swapTo (h : new < 2) : (u.swapTo n new clamped late).coefBank n = new := by
  rw [State.coefBank, fld_swapTo _ _ _ _ _ (by decide) (by decide), State.setCoefBank, State.incWrap, fld_setFld_apart _ _ _ (by decide)]
  exact State.fld_setFld_same _ _ _ _ (by decide) h
theorem State.pending_swapTo : (u.swapTo n new clamped late).bit (CH_COEF_STAT n) fCH_COEF_STAT_PENDING = false := by
  rw [State.bit, fld_swapTo _ _ _ _ _ (by decide) (by decide), State.setCoefBank, State.incWrap, fld_setFld_apart _ _ _ (by decide),
    fld_setFld_apart _ _ _ (by decide)]
  exact u.pending_markSwap n _ false
theorem State.swaps_swapTo : (u.swapTo n new clamped late).fld (CH_COEF_STAT n) fCH_COEF_STAT_SWAPS =
    (u.fld (CH_COEF_STAT n) fCH_COEF_STAT_SWAPS + 1) % 256 := by
  rw [fld_swapTo _ _ _ _ _ (by decide) (by decide), State.setCoefBank, State.incWrap, fld_setFld _ _ _ _ (by decide),
    fld_setFld_apart _ _ _ (by decide), fld_markSwap_apart _ _ _ _ (by decide)]
  rfl
theorem State.late_swapTo : (u.swapTo n new clamped true).bit (CH_COEF_STAT n) fCH_COEF_STAT_LATE = true := State.bit_raise _ _ (by decide)
theorem State.clamped_swapTo : (u.swapTo n new true late).bit (CH_COEF_STAT n) fCH_COEF_STAT_CLAMPED = true := by
  rw [State.bit, State.swapTo, fld_raiseIf_apart _ _ _ (by decide)]
  exact State.bit_raise _ _ (by decide)

/-- But for what the channel held of the swap, changing the bank touches CH_COEF_STAT alone. -/
theorem State.regFrame_swapTo {as : List Nat} (h : CH_COEF_STAT n ∈ as) :
    (u.markSwap n EngSt.dropSwap false).regFrame (u.swapTo n new clamped late) as :=
  (((State.regFrame_setFld _ _ _ h).trans (State.regFrame_incWrap _ _ h)).trans (State.regFrame_raiseIf _ _ _ h)).trans
    (State.regFrame_raiseIf _ _ _ h)
theorem State.chFrame_swapTo {as : List Nat} (h : CH_COEF_STAT n ∈ as) : u.chFrame (u.swapTo n new clamped late) n as :=
  (u.chFrame_markSwap n _ false h).trans ((u.regFrame_swapTo n new clamped late h).chFrame n)
theorem State.eng_swapTo : (u.swapTo n new clamped late).eng n = (u.eng n).dropSwap := by
  rw [State.eng, chan_quiet (u.regFrame_swapTo n new clamped late (List.mem_singleton.2 rfl)).2, chan_markSwap]

end

section
variable {s : State} {n : Nat}

theorem State.swapTransfer_free (h : s.rangeTickDue n = false) : s.swapTransfer n = s.transfer n (1 - s.coefBank n) := if_neg (by simp [h])
theorem State.swapTransfer_none (h : s.inRun n = false ∨ s.rangeTickDue n = true) : s.swapTransfer n = (s, false) := by
  cases hr : s.rangeTickDue n with
  | true => exact if_pos hr
  | false =>
    have stopped : s.inRun n = false := h.resolve_right (by simp [hr])
    rw [swapTransfer_free hr, transfer_idle stopped]

variable (s n)

theorem State.chFrame_swapTransfer : s.chFrame (s.swapTransfer n).1 n (clampRegs n) := by
  unfold State.swapTransfer
  split
  · exact .refl ..
  · exact s.chFrame_transfer ..

theorem State.swaps_swapTick : (s.swapTick n).fld (CH_COEF_STAT n) fCH_COEF_STAT_SWAPS =
    (s.fld (CH_COEF_STAT n) fCH_COEF_STAT_SWAPS + 1) % 256 := by
  have kept : (s.swapTransfer n).1.rd (CH_COEF_STAT n) = s.rd (CH_COEF_STAT n) :=
    (s.chFrame_swapTransfer n).1 _ (coefStat_not_mem_clampRegs n)
  rw [State.swapTick, swaps_swapTo, State.fld, kept, State.fld]
theorem State.slots_swapTick : ((s.swapTick n).eng n).slots = ((s.swapTransfer n).1.eng n).slots := by
  rw [State.swapTick, eng_swapTo]
  rfl
theorem State.chFrame_swapTick : s.chFrame (s.swapTick n) n (CH_COEF_STAT n :: clampRegs n) := by
  have wider : s.chFrame (s.swapTransfer n).1 n (CH_COEF_STAT n :: clampRegs n) := by
    obtain ⟨regs, rest⟩ := s.chFrame_swapTransfer n
    exact ⟨fun a ha => regs a fun h => ha (List.mem_cons_of_mem _ h), rest⟩
  exact wider.trans (State.chFrame_swapTo _ _ _ _ _ List.mem_cons_self)

end

end Sys2Proof.Machine

open Sys2Proof Sys2Proof.Machine

/-- Settles O25: a request and a cancel by `markSwap`, the swap at its tick by its transfer (`chFrame_transfer`) and the change of bank
(`swapTo`). -/
theorem coefficientSwaps : Obligations.CoefficientSwaps := by
  unfold Obligations.CoefficientSwaps
  refine ⟨?request, ?refused, ?cancel, fun n s hup h => exec_coefSwapCancel_idle hup h, ?tick, fun n s h => exec_coefSwapTick_idle h⟩
  case request =>
    intro n at_ s hup hnone
    exact ⟨_, exec_coefSwapRequest_free hup at_ hnone, s.chan_markSwap n _ true, s.rd_markSwap n _ true,
      s.chFrame_markSwap n _ true (List.mem_singleton.2 rfl)⟩
  case refused =>
    intro n at_ s hup hpend
    exact ⟨_, exec_coefSwapRequest_taken hup at_ hpend, s.rd_raise_same .., s.regsOnly_wr _ (List.mem_singleton.2 rfl), s.onlyRegs_raise ..⟩
  case cancel =>
    intro n d s hup hpend hdue
    exact ⟨_, exec_coefSwapCancel_pending hup hpend hdue, s.chan_markSwap n _ false, s.rd_markSwap n _ false,
      s.chFrame_markSwap n _ false (List.mem_singleton.2 rfl)⟩
  case tick =>
    intro n d s hpend hdue
    refine ⟨_, exec_coefSwapTick_due hpend hdue, State.coefBank_swapTo _ _ _ _ _ (by omega),
      congrArg EngSt.coefPend (State.eng_swapTo ..), State.pending_swapTo .., s.swaps_swapTick n, fun late => ?_, fun idle => ?_,
      fun free => ⟨?_, fun clamped => ?_⟩, s.chFrame_swapTick n⟩
    · rw [State.swapTick, late]
      exact State.late_swapTo ..
    · rw [s.slots_swapTick n, State.swapTransfer_none idle]
    · rw [s.slots_swapTick n, State.swapTransfer_free free]
    · rw [State.swapTick, State.swapTransfer_free free, clamped]
      exact State.clamped_swapTo ..

end

section
/-!
What injections, captures and the load model have in common: flags and fields beside the one that an update replaces, and the frames of a
channel and of a cluster.
-/

namespace Sys2Proof.Machine

/-! ### Flags beside the one that is replaced -/

section
variable (s : State) (a : Nat) {f g : Fld}

theorem State.bit_setBit_apart (b : Bool) (h : f.apart g) : (s.setBit a f b).bit a g = s.bit a g :=
  congrArg (· != 0) (s.fld_setFld_apart a b.toNat h)
theorem State.bit_raise_apart (h : f.apart g) : (s.raise a f).bit a g = s.bit a g := s.bit_setBit_apart a true h
theorem State.bit_raiseIf_apart (c : Bool) (h : f.apart g) : (s.raiseIf c a f).bit a g = s.bit a g :=
  congrArg (· != 0) (s.fld_raiseIf_apart c a h)
/-- A flag that is raised where a condition holds is set where it holds. -/
theorem State.bit_raiseIf {c : Bool} (hf : f.flag) (hc : c = true) : (s.raiseIf c a f).bit a f = true := by
  rw [State.raiseIf, if_pos hc]
  exact s.bit_raise a hf

end

theorem State.fld_congr {s t : State} {a : Nat} (h : t.rd a = s.rd a) (f : Fld) : t.fld a f = s.fld a f := congrArg f.get h
theorem State.bit_congr {s t : State} {a : Nat} (h : t.rd a = s.rd a) (f : Fld) : t.bit a f = s.bit a f :=
  congrArg (· != 0) (State.fld_congr h f)

/-! ### Frames of a channel and of a cluster -/

theorem State.chFrame.mono {s t : State} {n : Nat} {as bs : List Nat} (h : s.chFrame t n as) (hsub : as ⊆ bs) : s.chFrame t n bs :=
  ⟨fun a ha => h.1 a fun hm => ha (hsub hm), h.2⟩

theorem State.cluster_quiet {s t : State} (h : s.quiet t) (g : Nat) : t.cluster g = s.cluster g := by
  rw [h.1]
  rfl

theorem State.cluFrame.trans {s t u : State} {g : Nat} {as : List Nat} (h : s.cluFrame t g as) (k : t.cluFrame u g as) :
    s.cluFrame u g as := by
  obtain ⟨h1, h2, h3, h4⟩ := h
  obtain ⟨k1, k2, k3, k4⟩ := k
  refine ⟨h1.trans k1, fun m hm => (k2 m hm).trans (h2 m hm), ?_, ?_⟩
  · rw [k3, h3]
  · unfold State.msgOnly at *
    rw [k4, h4]
theorem State.regFrame.cluFrame {s t : State} {as : List Nat} (h : s.regFrame t as) (g : Nat) : s.cluFrame t g as := by
  obtain ⟨hr, hq⟩ := h
  refine ⟨hr, fun m _ => cluster_quiet hq m, ?_⟩
  have same : t.clu = s.clu := by rw [hq.1]
  rw [same]
  exact hq
theorem State.cluFrame_updCluster (s : State) (g : Nat) (f : CluSt → CluSt) (as : List Nat) : s.cluFrame (s.updCluster g f) g as :=
  ⟨fun _ _ => rfl, s.clustersOnly_updCluster g f, rfl, rfl⟩

end Sys2Proof.Machine
end

section
/-!
Injection: its start, the first period, a stop, and its end.
-/

namespace Sys2Proof.Machine

/-! ### Start and stop (R152, R154) -/

/-- The slot that the injection's node names is not present. -/
def State.injAbsent (s : State) (n : Nat) : Prop :=
  (s.lfld (CH_INJ_CTL n) fCH_INJ_CTL_NODE = 1 ∨ s.lfld (CH_INJ_CTL n) fCH_INJ_CTL_NODE = 2) ∧
    (s.desc n).present (s.lfld (CH_INJ_CTL n) fCH_INJ_CTL_SLOT) = false
/-- The stamp that a start names. -/
def State.injStamp (s : State) (n : Nat) (at_ : Bool) : Option Nat := if at_ then some (s.rd64 (CH_INJ_AT_LO n)) else none
/-- A start for a stamp, or for tick k+2 where there is none, is pending. -/
def State.injPend (s : State) (n : Nat) (stamp : Option Nat) : State :=
  ((s.updInj n (fun _ => { pend := some (s.sched stamp) })).raise (CH_INJ_STAT n) fCH_INJ_STAT_PENDING).raiseIf (s.lateOpt stamp)
    (CH_INJ_STAT n) fCH_INJ_STAT_LATE
/-- A stop is asked for; one that was asked for before stays. -/
def InjSt.stopFrom (tick : Nat) (i : InjSt) : InjSt := { i with stopAt := i.stopAt.or (some (tick + 2)) }

section
variable {n : Ch} {s : State} (hup : s.tileUp (n / 128) = true)
include hup

theorem exec_injectionStart_busy (at_ : Bool) (h : (s.inj n).active = true ∨ (s.inj n).pend ≠ none) :
    exec (.injectionStart n at_) s = .next s := by
  change execInjectionStart n at_ s = _
  rw [execInjectionStart, State.toTile_up _ _ _ _ hup]
  exact if_pos (by simpa [Option.isSome_iff_ne_none] using h)
theorem exec_injectionStart_free (at_ : Bool) (ha : (s.inj n).active = false) (hp : (s.inj n).pend = none) :
    (s.injAbsent n → exec (.injectionStart n at_) s = .next (s.raise (CH_INJ_STAT n) fCH_INJ_STAT_ABSENT)) ∧
    (¬ s.injAbsent n → exec (.injectionStart n at_) s = .next (s.injPend n (s.injStamp n at_))) := by
  have idle : ¬ ((s.inj n).active || (s.inj n).pend.isSome) = true := by simp [ha, hp]
  change (_ → execInjectionStart n at_ s = _) ∧ (_ → execInjectionStart n at_ s = _)
  rw [execInjectionStart, State.toTile_up _ _ _ _ hup]
  dsimp only
  rw [if_neg idle]
  refine ⟨fun h => if_pos ?_, fun h => if_neg ?_⟩
  · simpa [State.injAbsent, State.lfld] using h
  · simpa [State.injAbsent, State.lfld] using h
theorem exec_injectionStop_acts (h : (s.inj n).active = true ∨ (s.inj n).pend ≠ none) :
    exec (.injectionStop n) s = .next (s.updInj n (InjSt.stopFrom s.tick)) := by
  change execInjectionStop n s = _
  rw [execInjectionStop, State.toTile_up _ _ _ _ hup]
  exact if_pos (by simpa [Option.isSome_iff_ne_none] using h)

end

section
variable (s : State) (n : Nat) (stamp : Option Nat)

theorem State.chan_updInj (f : InjSt → InjSt) : (s.updInj n f).chan n = { s.chan n with inj := f (s.inj n) } := s.chan_updChan_same n _

theorem State.chan_injPend : (s.injPend n stamp).chan n = { s.chan n with inj := { pend := some (s.sched stamp) } } := by
  rw [State.injPend, chan_quiet (State.quiet_raiseIf ..), chan_quiet (State.quiet_raise ..), chan_updInj]
theorem State.pending_injPend : (s.injPend n stamp).bit (CH_INJ_STAT n) fCH_INJ_STAT_PENDING = true := by
  rw [State.injPend, bit_raiseIf_apart _ _ _ (by decide)]
  exact State.bit_raise _ _ (by decide)
theorem State.late_injPend (h : s.lateOpt stamp = true) : (s.injPend n stamp).bit (CH_INJ_STAT n) fCH_INJ_STAT_LATE = true :=
  State.bit_raiseIf _ _ (by decide) h
theorem State.chFrame_injPend : s.chFrame (s.injPend n stamp) n [CH_INJ_STAT n] :=
  (s.chFrame_updChan n _ _).trans
    (((State.regFrame_raise _ _ (by simp)).trans (State.regFrame_raiseIf _ _ _ (by simp))).chFrame n)

end

/-! ### First period and end (R154) -/

/-- The injection begins its first period. -/
def State.injFirst (s : State) (n : Nat) : State :=
  (((s.updInj n (fun i => { i with pend := none, active := true, first := true })).setBit (CH_INJ_STAT n) fCH_INJ_STAT_PENDING
    false).raise (CH_INJ_STAT n) fCH_INJ_STAT_ACTIVE).raise (CH_ENG_STAT n) fCH_ENG_STAT_INJECT
/-- The injection is over, and a flag says how it ended. -/
def State.injOver (s : State) (n : Nat) (f : Fld) : State := (s.injEnd n).raise (CH_INJ_STAT n) f

section
variable {n : Ch} {s : State}

theorem exec_injectionBegin_run {d : Sched} (hd : (s.inj n).pend = some d) (due : s.due d = true) (run : s.inRun n = true) :
    exec (.injectionBegin n) s = .next (s.injFirst n) := by
  change execInjectionBegin n s = _
  rw [execInjectionBegin, hd]
  exact (if_pos due).trans (if_pos run)
theorem exec_injectionBegin_ends {d : Sched} (hd : (s.inj n).pend = some d) (due : s.due d = true) (run : s.inRun n = false) :
    exec (.injectionBegin n) s = .next (s.injOver n fCH_INJ_STAT_ENDED) := by
  change execInjectionBegin n s = _
  rw [execInjectionBegin, hd]
  exact (if_pos due).trans (if_neg (by simp [run]))
theorem exec_injectionLenEnd_spent (ha : (s.inj n).active = true) (h0 : (s.lv (CH_INJ_LEN n)).toNat ≠ 0)
    (hlen : (s.lv (CH_INJ_LEN n)).toNat ≤ (s.inj n).n) : exec (.injectionLenEnd n) s = .next (s.injOver n fCH_INJ_STAT_DONE) := by
  change execInjectionLenEnd n s = _
  rw [execInjectionLenEnd]
  exact if_pos (by simp [ha, State.injSpent, h0, hlen])

end

theorem injStat_ne_engStat (n : Nat) : CH_INJ_STAT n ≠ CH_ENG_STAT n := by
  unfold CH_INJ_STAT CH_ENG_STAT
  omega

section
variable (s : State) (n : Nat)

theorem State.chan_injFirst : (s.injFirst n).chan n =
    { s.chan n with inj := { s.inj n with pend := none, active := true, first := true } } := by
  rw [State.injFirst, chan_quiet (State.quiet_raise ..), chan_quiet (State.quiet_raise ..), chan_quiet (State.quiet_setBit ..), chan_updInj]
theorem State.stat_injFirst : (s.injFirst n).bit (CH_INJ_STAT n) fCH_INJ_STAT_PENDING = false ∧
    (s.injFirst n).bit (CH_INJ_STAT n) fCH_INJ_STAT_ACTIVE = true := by
  have kept : ∀ u : State, (u.raise (CH_ENG_STAT n) fCH_ENG_STAT_INJECT).rd (CH_INJ_STAT n) = u.rd (CH_INJ_STAT n) :=
    fun u => u.rd_raise_ne _ (injStat_ne_engStat n)
  rw [State.injFirst, bit_congr (kept _), bit_congr (kept _), bit_raise_apart _ _ (by decide)]
  exact ⟨State.bit_setBit _ _ _ (by decide), State.bit_raise _ _ (by decide)⟩
theorem State.inject_injFirst : (s.injFirst n).rd (CH_ENG_STAT n) = fCH_ENG_STAT_INJECT.put (s.rd (CH_ENG_STAT n)) 1 := by
  have apart := (injStat_ne_engStat n).symm
  rw [State.injFirst, rd_raise_same, rd_raise_ne _ _ apart, rd_setBit_ne _ _ _ apart]
  rfl
theorem State.chFrame_injFirst : s.chFrame (s.injFirst n) n [CH_INJ_STAT n, CH_ENG_STAT n] :=
  (s.chFrame_updChan n _ _).trans <| State.regFrame.chFrame (((State.regFrame_setBit _ _ _ (by simp)).trans
    (State.regFrame_raise _ _ (by simp))).trans (State.regFrame_raise _ _ (by simp))) n

variable {f : Fld}

theorem State.chan_injOver : (s.injOver n f).chan n = { s.chan n with inj := {} } := by
  rw [State.injOver, State.injEnd, chan_quiet (State.quiet_raise ..), chan_quiet (State.quiet_setBit ..),
    chan_quiet (State.quiet_setBit ..), chan_quiet (State.quiet_setBit ..), chan_updInj]
theorem State.stat_injEnd : (s.injEnd n).bit (CH_INJ_STAT n) fCH_INJ_STAT_ACTIVE = false ∧
    (s.injEnd n).bit (CH_INJ_STAT n) fCH_INJ_STAT_PENDING = false := by
  have kept : ∀ u : State, (u.setBit (CH_ENG_STAT n) fCH_ENG_STAT_INJECT false).rd (CH_INJ_STAT n) = u.rd (CH_INJ_STAT n) :=
    fun u => u.rd_setBit_ne _ _ (injStat_ne_engStat n)
  rw [State.injEnd, bit_congr (kept _), bit_congr (kept _), bit_setBit_apart _ _ _ (by decide)]
  exact ⟨State.bit_setBit _ _ _ (by decide), State.bit_setBit _ _ _ (by decide)⟩
theorem State.active_injOver (h : f.apart fCH_INJ_STAT_ACTIVE) : (s.injOver n f).bit (CH_INJ_STAT n) fCH_INJ_STAT_ACTIVE = false := by
  rw [State.injOver, bit_raise_apart _ _ h]
  exact (s.stat_injEnd n).1
theorem State.pending_injOver (h : f.apart fCH_INJ_STAT_PENDING) :
    (s.injOver n f).bit (CH_INJ_STAT n) fCH_INJ_STAT_PENDING = false := by
  rw [State.injOver, bit_raise_apart _ _ h]
  exact (s.stat_injEnd n).2
theorem State.inject_injOver : (s.injOver n f).rd (CH_ENG_STAT n) = fCH_ENG_STAT_INJECT.put (s.rd (CH_ENG_STAT n)) 0 := by
  have apart := (injStat_ne_engStat n).symm
  rw [State.injOver, State.injEnd, rd_raise_ne _ _ apart, rd_setBit_same, rd_setBit_ne _ _ _ apart, rd_setBit_ne _ _ _ apart]
  rfl
theorem State.chFrame_injOver : s.chFrame (s.injOver n f) n [CH_INJ_STAT n, CH_ENG_STAT n] :=
  (s.chFrame_updChan n _ _).trans <| State.regFrame.chFrame ((((State.regFrame_setBit _ _ _ (by simp)).trans
    (State.regFrame_setBit _ _ _ (by simp))).trans (State.regFrame_setBit _ _ _ (by simp))).trans
      (State.regFrame_raise _ _ (by simp))) n

end

end Sys2Proof.Machine

open Sys2Proof Sys2Proof.Machine

/-- Settles O27: a start by `injPend`, its first period by `injFirst`, its end, by whatever cause, by `injOver`. -/
theorem injection : Obligations.Injection := by
  unfold Obligations.Injection
  refine ⟨?start, fun n at_ s hup h => exec_injectionStart_busy hup at_ h, ?begin, ?outside, ?stop, ?spent⟩
  case start =>
    intro n at_ s hup ha hp
    obtain ⟨absent, present⟩ := exec_injectionStart_free hup at_ ha hp
    exact ⟨fun h => ⟨_, absent h, s.rd_raise_same .., s.regsOnly_wr _ (List.mem_singleton.2 rfl), s.onlyRegs_raise ..⟩,
      fun h => ⟨_, present h, s.chan_injPend n _, s.pending_injPend n _, s.late_injPend n _, s.chFrame_injPend n _⟩⟩
  case begin =>
    intro n d s hd due run
    obtain ⟨pending, active⟩ := s.stat_injFirst n
    exact ⟨_, exec_injectionBegin_run hd due run, s.chan_injFirst n, pending, active, s.inject_injFirst n, s.chFrame_injFirst n⟩
  case outside =>
    intro n d s hd due run
    exact ⟨_, exec_injectionBegin_ends hd due run, s.chan_injOver n, State.bit_raise _ _ (by decide), s.pending_injOver n (by decide),
      s.chFrame_injOver n⟩
  case stop =>
    intro n s hup h
    exact ⟨_, exec_injectionStop_acts hup h, s.chan_updInj n _, s.chFrame_updChan n _ _⟩
  case spent =>
    intro n s ha h0 hlen
    exact ⟨_, exec_injectionLenEnd_spent ha h0 hlen, s.chan_injOver n, State.bit_raise _ _ (by decide), s.active_injOver n (by decide),
      s.inject_injOver n, s.chFrame_injOver n⟩

end

section
/-!
Captures of a cluster: ARM, STOP, FORCE, and the end of a full one.
-/

namespace Sys2Proof.Machine

/-! ### ARM (R155 to R157) -/

/-- The configuration in the registers asks for a stamp that is late (R157). -/
def State.capLate (s : State) (g : Nat) : Bool :=
  fCLU_CAP_CFG_TRIG.get (s.rd (CLU_CAP_CFG g)) == 1 && s.isLate (s.rd64 (CLU_CAP_AT_LO g))
/-- The capture that ARM takes from the registers. -/
def State.capTaken (s : State) (g : Nat) : CapSt :=
  let cfg := s.rd (CLU_CAP_CFG g)
  let ways := min 5 (fCLU_CAP_CFG_WAYS.get cfg)
  { running := true, ways, trig := fCLU_CAP_CFG_TRIG.get cfg, trigWay := fCLU_CAP_CFG_TRIG_WAY.get cfg
    pre := min (fCLU_CAP_CFG_PRE.get cfg) (4096 / 2 ^ ways - 1), level := (s.rd (CLU_CAP_LEVEL g)).toInt
    way := (List.range 32).map (fun w => bits (s.rd (CLU_CAP_WAY g (w / 4))).toNat (8 * (w % 4)) 8)
    start := s.tick + 2
    at_ := if fCLU_CAP_CFG_TRIG.get cfg = 1 && !s.capLate g then some (s.rd64 (CLU_CAP_AT_LO g)) else none }
/-- STATE shows no capture where one runs that ARM starts again (R158). -/
def State.capRestart (s : State) (g : Nat) : State := if (s.cap g).running then s.setCapState g 0 else s
/-- ARM, where the cluster takes it. -/
def State.capArm (s : State) (g : Nat) : State :=
  ((s.capRestart g).updCap g (fun _ => s.capTaken g)).raiseIf (s.capLate g) (CLU_CAP_STAT g) fCLU_CAP_STAT_LATE
/-- A stop after the entry of the next period is asked for; one that was asked for before stays. -/
def CapSt.stopFrom (tick : Nat) (c : CapSt) : CapSt := { c with stopAt := c.stopAt.or (some (tick + 1)) }
/-- The trigger is forced from two periods later; one that was forced before stays. -/
def CapSt.forcedFrom (tick : Nat) (c : CapSt) : CapSt := { c with forceFrom := c.forceFrom.or (some (tick + 2)) }

section
variable {g : Clu} {s : State} (hup : s.tileUp (g / 4) = true)
include hup

theorem exec_captureArm_biased (h : 2 ≤ s.pwr g) : exec (.captureArm g) s = .next (s.capArm g) := by
  change execCaptureArm g s = _
  rw [execCaptureArm, State.toTile_up _ _ _ _ hup, if_neg (Nat.not_lt.2 h)]
  rfl
theorem exec_captureArm_low (h : s.pwr g < 2) : exec (.captureArm g) s = .next s := by
  change execCaptureArm g s = _
  rw [execCaptureArm, State.toTile_up _ _ _ _ hup, if_pos h]
theorem exec_captureStop_running (h : (s.cap g).running = true) :
    exec (.captureStop g) s = .next (s.updCap g (CapSt.stopFrom s.tick)) := by
  change execCaptureStop g s = _
  rw [execCaptureStop, State.toTile_up _ _ _ _ hup]
  exact if_pos h
theorem exec_captureForce_running (h : (s.cap g).running = true) :
    exec (.captureForce g) s = .next (s.updCap g (CapSt.forcedFrom s.tick)) := by
  change execCaptureForce g s = _
  rw [execCaptureForce, State.toTile_up _ _ _ _ hup]
  exact if_pos h

end

section
variable (s : State) (g : Nat)

theorem State.cluster_updCap (f : CapSt → CapSt) : (s.updCap g f).cluster g = { s.cluster g with cap := f (s.cap g) } :=
  s.cluster_updCluster_same g _

theorem State.regFrame_capRestart : s.regFrame (s.capRestart g) [CLU_CAP_STAT g] := by
  unfold State.capRestart
  split
  · exact s.regFrame_setFld _ _ (by simp)
  · exact .refl ..
theorem State.cluster_capArm : (s.capArm g).cluster g = { s.cluster g with cap := s.capTaken g } := by
  rw [State.capArm, cluster_quiet (State.quiet_raiseIf ..), cluster_updCap, cluster_quiet (s.regFrame_capRestart g).2]
theorem State.cap_capArm : (s.capArm g).cap g = s.capTaken g := congrArg CluSt.cap (s.cluster_capArm g)
theorem State.capState_capArm (h : (s.cap g).running = true) : (s.capArm g).capState g = 0 := by
  rw [State.capState, State.capArm, fld_raiseIf_apart _ _ _ (by decide), State.capRestart, if_pos h]
  rw [State.updCap, fld_congr (rd_updCluster ..), State.setCapState, fld_setFld _ _ _ _ (by decide), Nat.zero_mod]
theorem State.late_capArm (h : s.capLate g = true) : (s.capArm g).bit (CLU_CAP_STAT g) fCLU_CAP_STAT_LATE = true :=
  State.bit_raiseIf _ _ (by decide) h
theorem State.cluFrame_capArm : s.cluFrame (s.capArm g) g [CLU_CAP_STAT g] :=
  (((s.regFrame_capRestart g).cluFrame g).trans (State.cluFrame_updCluster ..)).trans
    ((State.regFrame_raiseIf _ _ _ (by simp)).cluFrame g)

theorem State.capLate_iff : s.capLate g = true ↔
    s.fld (CLU_CAP_CFG g) fCLU_CAP_CFG_TRIG = 1 ∧ s.isLate (s.rd64 (CLU_CAP_AT_LO g)) = true := by
  simp [State.capLate, State.fld]
/-- The capture waits for a stamp where the trigger is one and it is not late. -/
theorem State.at_capTaken : (s.capTaken g).at_ = some (s.rd64 (CLU_CAP_AT_LO g)) ↔
    s.fld (CLU_CAP_CFG g) fCLU_CAP_CFG_TRIG = 1 ∧ ¬ s.capLate g = true := by
  simp [State.capTaken, State.fld]

end

/-! ### A full capture (R157) -/

/-- A full capture is over: STATE and the interrupt bit. -/
def State.capFull (s : State) (g : Nat) : State := ((s.updCap g (fun _ => {})).setCapState g 3).cluEvent g fCLU_INT_STAT_CAPTURE

theorem exec_captureDone_full {g : Clu} {s : State} (hrun : (s.cap g).running = true) (hstate : s.capState g = 2)
    (hafter : (s.cap g).after = 0) : exec (.captureDone g) s = .next (s.capFull g) := by
  change execCaptureDone g s = _
  rw [execCaptureDone]
  exact if_pos (by simp [hrun, hstate, hafter])

theorem capStat_ne_intStat (g : Nat) : CLU_CAP_STAT g ≠ CLU_INT_STAT g := by
  unfold CLU_CAP_STAT CLU_INT_STAT
  omega

section
variable (s : State) (g : Nat)

theorem State.cluster_capFull : (s.capFull g).cluster g = { s.cluster g with cap := {} } := by
  rw [State.capFull, cluster_quiet (State.quiet_cluEvent ..), State.setCapState, cluster_quiet (State.quiet_setFld ..), cluster_updCap]
theorem State.capState_capFull : (s.capFull g).capState g = 3 := by
  rw [State.capState, State.fld, State.capFull, rd_cluEvent, rd_raise_ne _ _ (capStat_ne_intStat g)]
  exact State.fld_setFld _ _ _ _ (by decide)
theorem State.int_capFull : (s.capFull g).rd (CLU_INT_STAT g) = fCLU_INT_STAT_CAPTURE.put (s.rd (CLU_INT_STAT g)) 1 := by
  rw [State.capFull, rd_cluEvent, rd_raise_same, State.setCapState, rd_setFld_ne _ _ _ (capStat_ne_intStat g).symm]
  rfl
theorem State.cluFrame_capFull : s.cluFrame (s.capFull g) g [CLU_CAP_STAT g, CLU_INT_STAT g] :=
  (s.cluFrame_updCluster g _ _).trans
    (((State.regFrame_setFld _ _ _ (by simp)).trans (State.regFrame_cluEvent _ _ (by simp))).cluFrame g)

end

end Sys2Proof.Machine

open Sys2Proof Sys2Proof.Machine

/-- Settles O28: ARM by what it takes from the registers (`capTaken`), a full capture by `capFull`. -/
theorem capture : Obligations.Capture := by
  unfold Obligations.Capture
  refine ⟨?arm, fun g s hup h => exec_captureArm_low hup h, ?stop, ?force, ?done⟩
  case arm =>
    intro g s hup hpwr
    dsimp only
    rw [← s.capLate_iff]
    refine ⟨_, exec_captureArm_biased hup hpwr, ?_⟩
    rw [s.cap_capArm g]
    exact ⟨rfl, rfl, rfl, rfl, rfl, rfl, rfl, s.at_capTaken g, s.late_capArm g, s.capState_capArm g, s.cluster_capArm g,
      s.cluFrame_capArm g⟩
  case stop =>
    intro g s hup hrun
    exact ⟨_, exec_captureStop_running hup hrun, s.cluster_updCap g _, s.cluFrame_updCluster g _ _⟩
  case force =>
    intro g s hup hrun
    exact ⟨_, exec_captureForce_running hup hrun, s.cluster_updCap g _, s.cluFrame_updCluster g _ _⟩
  case done =>
    intro g s hrun hstate hafter
    exact ⟨_, exec_captureDone_full hrun hstate hafter, s.cluster_capFull g, s.capState_capFull g, s.int_capFull g, s.cluFrame_capFull g⟩

end

section
/-!
The load model in a period, its initialisation and its settle counter; a gang's share message and the leader's count.
-/

namespace Sys2Proof.Machine

theorem State.chan_updModel (s : State) (n : Nat) (f : ModelSt → ModelSt) :
    (s.updModel n f).chan n = { s.chan n with model := f (s.model n) } := s.chan_updChan_same n _
theorem State.rd_updModel (s : State) (n : Nat) (f : ModelSt → ModelSt) (a : Nat) : (s.updModel n f).rd a = s.rd a := rfl
theorem State.fld_updModel (s : State) (n : Nat) (f : ModelSt → ModelSt) (a : Nat) (g : Fld) : (s.updModel n f).fld a g = s.fld a g := rfl
theorem State.bit_updModel (s : State) (n : Nat) (f : ModelSt → ModelSt) (a : Nat) (g : Fld) : (s.updModel n f).bit a g = s.bit a g := rfl
theorem State.model_updModel (s : State) (n : Nat) (f : ModelSt → ModelSt) : (s.updModel n f).model n = f (s.model n) :=
  congrArg ChSt.model (s.chan_updModel n f)
theorem State.model_quiet {s t : State} (h : s.quiet t) (n : Nat) : t.model n = s.model n := congrArg ChSt.model (chan_quiet h n)

/-- The registers of the model are none of each other. -/
theorem modelRegs_ne (n : Nat) : CH_MODEL_G n ≠ CH_MODEL_C n ∧ CH_MODEL_G n ≠ CH_MODEL_STAT n ∧ CH_MODEL_C n ≠ CH_MODEL_STAT n ∧
    CH_MODEL_RES n ≠ CH_MODEL_STAT n ∧ CH_MODEL_G n ≠ CH_MODEL_RES n ∧ CH_MODEL_C n ≠ CH_MODEL_RES n := by
  unfold CH_MODEL_G CH_MODEL_C CH_MODEL_RES CH_MODEL_STAT
  omega

/-! ### Commands of the model (R148) -/

/-- An initialisation at tick k+2 is asked for, beside those that were asked for before. -/
def ModelSt.reinitFrom (tick : Nat) (m : ModelSt) : ModelSt := { m with reinitAt := m.reinitAt ++ [tick + 2] }

section
variable {n : Ch} {s : State}

theorem exec_modelReinit_run (hup : s.tileUp (n / 128) = true) (hen : (s.desc n).modelEn = true) (run : s.inRun n = true) :
    exec (.modelReinit n) s = .next (s.updModel n (ModelSt.reinitFrom s.tick)) := by
  change execModelReinit n s = _
  rw [execModelReinit, State.toTile_up _ _ _ _ hup]
  exact if_pos (by simp [hen, run])
theorem exec_modelReinit_idle (hup : s.tileUp (n / 128) = true) (h : (s.desc n).modelEn = false ∨ s.inRun n = false) :
    exec (.modelReinit n) s = .next s := by
  change execModelReinit n s = _
  rw [execModelReinit, State.toTile_up _ _ _ _ hup]
  exact if_neg (by rcases h with h | h <;> simp [h])
theorem exec_modelSettleEnd_last (h : (s.model n).settle = 1) : exec (.modelSettleEnd n) s = .next (s.setSettle n 0) := if_pos h
theorem exec_modelSettleEnd_idle (h : (s.model n).settle ≠ 1) : exec (.modelSettleEnd n) s = .next s := if_neg h

end

section
variable (s : State) (n v : Nat)

theorem State.chan_setSettle : (s.setSettle n v).chan n = { s.chan n with model := { s.model n with settle := v } } := by
  rw [State.setSettle, chan_quiet (State.quiet_setBit ..), chan_updModel]
theorem State.rd_setSettle :
    (s.setSettle n v).rd (CH_MODEL_STAT n) = fCH_MODEL_STAT_SETTLING.put (s.rd (CH_MODEL_STAT n)) (v != 0).toNat := rd_setBit_same ..
theorem State.chFrame_setSettle {as : List Nat} (h : CH_MODEL_STAT n ∈ as) : s.chFrame (s.setSettle n v) n as :=
  (s.chFrame_updChan n _ as).trans ((State.regFrame_setBit _ _ _ h).chFrame n)

end

/-! ### The initialisation (R148) -/

/-- The estimates and the settle counter take their initial values. -/
def State.modelLoad (s : State) (n : Nat) : State :=
  ((s.wr (CH_MODEL_G n) (s.lv (CH_MODEL_G_INIT n))).wr (CH_MODEL_C n) (s.lv (CH_MODEL_C_INIT n))).setSettle n
    (s.lfld (CH_MODEL_SETTLE n) fCH_MODEL_SETTLE_SETTLE)
/-- No period counts, and there is no episode. -/
def State.modelClear (s : State) (n : Nat) : State :=
  (s.setFld (CH_MODEL_STAT n) fCH_MODEL_STAT_COUNT 0).setBit (CH_MODEL_STAT n) fCH_MODEL_STAT_EPISODE false
/-- The model's own state after an initialisation at a tick with sample v. -/
def ModelSt.fresh (tick : Nat) (v : Int) (m : ModelSt) : ModelSt :=
  { m with v1 := v, init := false, reinitAt := m.reinitAt.filter (tick < ·), cond := false }

theorem State.modelInit_eq (s : State) (n : Nat) :
    s.modelInit n = ((s.modelLoad n).modelClear n).updModel n (ModelSt.fresh s.tick (s.chan n).smp.v) := rfl

section
variable (s : State) (n : Nat)

theorem State.regFrame_modelClear {as : List Nat} (h : CH_MODEL_STAT n ∈ as) : s.regFrame (s.modelClear n) as :=
  (s.regFrame_setFld _ _ h).trans (State.regFrame_setBit _ _ _ h)
theorem State.stat_modelClear : (s.modelClear n).fld (CH_MODEL_STAT n) fCH_MODEL_STAT_COUNT = 0 ∧
    (s.modelClear n).bit (CH_MODEL_STAT n) fCH_MODEL_STAT_EPISODE = false := by
  refine ⟨?_, State.bit_setBit _ _ _ (by decide)⟩
  rw [State.modelClear, State.setBit, fld_setFld_apart _ _ _ (by decide)]
  exact s.fld_setFld _ _ _ (by decide)
/-- A flag apart from both stays. -/
theorem State.bit_modelClear_apart {g : Fld} (hc : fCH_MODEL_STAT_COUNT.apart g) (he : fCH_MODEL_STAT_EPISODE.apart g) :
    (s.modelClear n).bit (CH_MODEL_STAT n) g = s.bit (CH_MODEL_STAT n) g := by
  rw [State.modelClear, bit_setBit_apart _ _ _ he]
  exact congrArg (· != 0) (s.fld_setFld_apart _ _ hc)

theorem State.rd_modelLoad : (s.modelLoad n).rd (CH_MODEL_G n) = s.lv (CH_MODEL_G_INIT n) ∧
    (s.modelLoad n).rd (CH_MODEL_C n) = s.lv (CH_MODEL_C_INIT n) := by
  obtain ⟨gc, gStat, cStat, -⟩ := modelRegs_ne n
  rw [State.modelLoad, State.setSettle, rd_setBit_ne _ _ _ gStat, rd_setBit_ne _ _ _ cStat, rd_updModel, rd_updModel, rd_wr_same,
    rd_wr_ne _ _ gc, rd_wr_same]
  exact ⟨rfl, rfl⟩
theorem State.model_modelLoad :
    (s.modelLoad n).model n = { s.model n with settle := s.lfld (CH_MODEL_SETTLE n) fCH_MODEL_SETTLE_SETTLE } := by
  rw [State.modelLoad, State.model, chan_setSettle, model_quiet (State.quiet_wr ..), model_quiet (State.quiet_wr ..)]
theorem State.chFrame_modelLoad : s.chFrame (s.modelLoad n) n [CH_MODEL_G n, CH_MODEL_C n, CH_MODEL_STAT n] :=
  (State.regFrame.chFrame (State.regFrame.trans ⟨s.regsOnly_wr _ (by simp), s.quiet_wr ..⟩
    ⟨State.regsOnly_wr _ _ (by simp), State.quiet_wr ..⟩) n).trans (State.chFrame_setSettle _ n _ (by simp))

theorem State.rd_modelInit {a : Nat} (h : a ≠ CH_MODEL_STAT n) : (s.modelInit n).rd a = (s.modelLoad n).rd a := by
  rw [modelInit_eq, rd_updModel]
  exact (State.regFrame_modelClear _ n (List.mem_singleton.2 rfl)).1 a (by simpa using h)
theorem State.model_modelInit : (s.modelInit n).model n = ((s.modelLoad n).model n).fresh s.tick (s.chan n).smp.v := by
  rw [modelInit_eq, model_updModel, model_quiet (State.regFrame_modelClear _ n (List.mem_singleton.2 rfl)).2]
theorem State.settling_modelInit : (s.modelInit n).bit (CH_MODEL_STAT n) fCH_MODEL_STAT_SETTLING =
    (s.lfld (CH_MODEL_SETTLE n) fCH_MODEL_SETTLE_SETTLE != 0) := by
  rw [modelInit_eq, bit_updModel, bit_modelClear_apart _ _ (by decide) (by decide)]
  exact State.bit_setBit _ _ _ (by decide)
theorem State.stat_modelInit : (s.modelInit n).fld (CH_MODEL_STAT n) fCH_MODEL_STAT_COUNT = 0 ∧
    (s.modelInit n).bit (CH_MODEL_STAT n) fCH_MODEL_STAT_EPISODE = false := by
  rw [modelInit_eq, fld_updModel, bit_updModel]
  exact (s.modelLoad n).stat_modelClear n
theorem State.chFrame_modelInit : s.chFrame (s.modelInit n) n [CH_MODEL_G n, CH_MODEL_C n, CH_MODEL_STAT n] :=
  ((s.chFrame_modelLoad n).trans ((State.regFrame_modelClear _ n (by simp)).chFrame n)).trans (State.chFrame_updChan ..)

end

/-! ### The item of a period (R145, R146, R149) -/

/-- The voltage of the period. -/
def State.modelV (s : State) (n : Nat) : Int := ofQ (s.chan n).smp.v
/-- Its step since the period before. -/
def State.modelDv (s : State) (n : Nat) : Int := ofQ ((s.chan n).smp.v - (s.model n).v1)
/-- The current that the estimates predict. -/
def State.modelHat (s : State) (n : Nat) : Int :=
  mulX (s.estimates n).1 (s.modelV n) + mulX (s.estimates n).2 (s.modelDv n)
/-- The residual of the prediction. -/
def State.modelRho (s : State) (n : Nat) : Int := ofQ (s.chan n).smp.i - s.modelHat n
/-- The residual is not evaluated. -/
def State.modelBlank (s : State) (n : Nat) : Bool := (s.chan n).smp.bridged || (s.chan n).smp.ctrl == 6
/-- The residual's magnitude is above the threshold. -/
def State.modelOver (s : State) (n : Nat) : Bool := decide (ofQ (s.lv (CH_MODEL_TH n)).toNat < (s.modelRho n).natAbs)
/-- It is evaluated and above the threshold. -/
def State.modelAbove (s : State) (n : Nat) : Bool := !s.modelBlank n && s.modelOver n
/-- The estimates are held. -/
def State.modelHold (s : State) (n : Nat) : Bool :=
  s.lfld (CH_MODEL_CTL n) fCH_MODEL_CTL_FREEZE != 0 || (s.lfld (CH_MODEL_CTL n) fCH_MODEL_CTL_GATE != 0 && s.modelAbove n) ||
    s.modelBlank n
/-- The new estimate in register a, whose regressor is y. -/
def State.modelNew (s : State) (n a : Nat) (y : Int) : Word :=
  toCoef (modelStep (coefVal (s.rd a)) (s.modelRho n) y
    (mulX (s.modelV n) (s.modelV n) + mulX (s.modelDv n) (s.modelDv n) + one / 2 ^ 16) (s.lfld (CH_MODEL_CTL n) fCH_MODEL_CTL_MU))
/-- The estimates are updated, unless they are held. -/
def State.modelEstimate (s : State) (n : Nat) : State :=
  if s.modelHold n then s
  else (s.wr (CH_MODEL_G n) (s.modelNew n (CH_MODEL_G n) (s.modelV n))).wr (CH_MODEL_C n) (s.modelNew n (CH_MODEL_C n) (s.modelDv n))
/-- What the model keeps of the period. -/
def ModelSt.seen (s : State) (n : Nat) (m : ModelSt) : ModelSt :=
  { m with v1 := (s.chan n).smp.v, ihat := toQ (s.modelHat n), above := s.modelAbove n
           rho := if s.modelBlank n then 0 else toQ (s.modelRho n) }
/-- The estimates of the period stand, with what the model keeps of it. -/
def State.modelNoted (s : State) (n : Nat) : State :=
  ((s.modelEstimate n).setBit (CH_MODEL_STAT n) fCH_MODEL_STAT_HELD (s.modelHold n)).updModel n (ModelSt.seen s n)
/-- The episode of a fault is over. -/
def State.modelBelow (u : State) (n : Nat) : State := (u.modelClear n).updModel n (fun m => { m with cond := false })
/-- A residual that is evaluated counts, unless the model settles. -/
def State.modelCount (u : State) (n settle : Nat) (above : Bool) : State :=
  if settle != 0 then u else if above then u.incSat (CH_MODEL_STAT n) fCH_MODEL_STAT_COUNT else u.modelBelow n

theorem State.modelTick_eq (s : State) (n : Nat) : s.modelTick n =
    if s.modelBlank n then s.modelNoted n
    else ((s.modelNoted n).wr (CH_MODEL_RES n) (wordOf (toQ (s.modelRho n)))).modelCount n (s.model n).settle (s.modelAbove n) := rfl

section
variable (u : State) (n settle : Nat) (above : Bool)

theorem State.chFrame_modelCount : u.chFrame (u.modelCount n settle above) n [CH_MODEL_STAT n] := by
  unfold State.modelCount
  split
  · exact .refl ..
  · split
    · exact (u.regFrame_incSat _ (by simp)).chFrame n
    · exact ((u.regFrame_modelClear n (by simp)).chFrame n).trans (State.chFrame_updChan ..)
theorem State.held_modelCount :
    (u.modelCount n settle above).bit (CH_MODEL_STAT n) fCH_MODEL_STAT_HELD = u.bit (CH_MODEL_STAT n) fCH_MODEL_STAT_HELD := by
  unfold State.modelCount
  split
  · rfl
  · split
    · exact congrArg (· != 0) (u.fld_incSat_ne _ _ _ (by decide))
    · rw [State.modelBelow, bit_updModel, u.bit_modelClear_apart n (by decide) (by decide)]
theorem State.v1_modelCount : ((u.modelCount n settle above).model n).v1 = (u.model n).v1 := by
  unfold State.modelCount
  split
  · rfl
  · split
    · rw [model_quiet (State.quiet_incSat ..)]
    · rw [State.modelBelow, model_updModel, model_quiet (u.regFrame_modelClear n (List.mem_singleton.2 rfl)).2]
theorem State.count_modelCount : (u.modelCount n settle above).fld (CH_MODEL_STAT n) fCH_MODEL_STAT_COUNT =
    if settle != 0 then u.fld (CH_MODEL_STAT n) fCH_MODEL_STAT_COUNT
    else if above then min 255 (u.fld (CH_MODEL_STAT n) fCH_MODEL_STAT_COUNT + 1) else 0 := by
  unfold State.modelCount
  split
  · rfl
  · split
    · exact u.fld_incSat _ _ (by decide)
    · rw [State.modelBelow, fld_updModel]
      exact (u.stat_modelClear n).1
theorem State.episode_modelCount :
    (u.modelCount n 0 false).bit (CH_MODEL_STAT n) fCH_MODEL_STAT_EPISODE = false := by
  rw [State.modelCount, if_neg (by decide), if_neg (by decide), State.modelBelow, bit_updModel]
  exact (u.stat_modelClear n).2

end

section
variable (s : State) (n : Nat)

theorem State.rd_modelEstimate : (s.modelEstimate n).rd (CH_MODEL_G n) =
      (if s.modelHold n then s.rd (CH_MODEL_G n) else s.modelNew n (CH_MODEL_G n) (s.modelV n)) ∧
    (s.modelEstimate n).rd (CH_MODEL_C n) =
      (if s.modelHold n then s.rd (CH_MODEL_C n) else s.modelNew n (CH_MODEL_C n) (s.modelDv n)) := by
  obtain ⟨apart, -⟩ := modelRegs_ne n
  unfold State.modelEstimate
  split
  · exact ⟨rfl, rfl⟩
  · exact ⟨by rw [rd_wr_ne _ _ apart, rd_wr_same], rd_wr_same ..⟩
theorem State.regFrame_modelEstimate : s.regFrame (s.modelEstimate n) [CH_MODEL_G n, CH_MODEL_C n] := by
  unfold State.modelEstimate
  split
  · exact .refl ..
  · exact State.regFrame.trans ⟨s.regsOnly_wr _ (by simp), s.quiet_wr ..⟩ ⟨State.regsOnly_wr _ _ (by simp), State.quiet_wr ..⟩

theorem State.rd_modelNoted {a : Nat} (h : a ≠ CH_MODEL_STAT n) : (s.modelNoted n).rd a = (s.modelEstimate n).rd a := by
  rw [State.modelNoted, rd_updModel, rd_setBit_ne _ _ _ h]
theorem State.held_modelNoted : (s.modelNoted n).bit (CH_MODEL_STAT n) fCH_MODEL_STAT_HELD = s.modelHold n := by
  rw [State.modelNoted, bit_updModel, State.bit_setBit _ _ _ (by decide)]
theorem State.count_modelNoted :
    (s.modelNoted n).fld (CH_MODEL_STAT n) fCH_MODEL_STAT_COUNT = s.fld (CH_MODEL_STAT n) fCH_MODEL_STAT_COUNT := by
  obtain ⟨-, gStat, cStat, -⟩ := modelRegs_ne n
  have kept : (s.modelEstimate n).rd (CH_MODEL_STAT n) = s.rd (CH_MODEL_STAT n) :=
    (s.regFrame_modelEstimate n).1 _ (by simp [gStat.symm, cStat.symm])
  rw [State.modelNoted, fld_updModel, State.setBit, fld_setFld_apart _ _ _ (by decide), fld_congr kept]
theorem State.v1_modelNoted : ((s.modelNoted n).model n).v1 = (s.chan n).smp.v := by
  rw [State.modelNoted, model_updModel]
  rfl
theorem State.chFrame_modelNoted : s.chFrame (s.modelNoted n) n [CH_MODEL_G n, CH_MODEL_C n, CH_MODEL_STAT n] :=
  ((((s.regFrame_modelEstimate n).chFrame n).mono (by simp)).trans ((State.regFrame_setBit _ _ _ (by simp)).chFrame n)).trans
    (State.chFrame_updChan ..)

/-- The period's item where the residual is evaluated, before it counts. -/
def State.modelShown (s : State) (n : Nat) : State := (s.modelNoted n).wr (CH_MODEL_RES n) (wordOf (toQ (s.modelRho n)))

variable {s n}

theorem State.modelTick_blank (h : s.modelBlank n = true) : s.modelTick n = s.modelNoted n := by rw [modelTick_eq, if_pos h]
theorem State.modelTick_shown (h : s.modelBlank n = false) :
    s.modelTick n = (s.modelShown n).modelCount n (s.model n).settle (s.modelAbove n) := by
  rw [modelTick_eq, if_neg (by simp [h]), State.modelShown]
theorem State.modelAbove_shown (h : s.modelBlank n = false) : s.modelAbove n = s.modelOver n := by simp [State.modelAbove, h]

variable (s n)

/-- What the item leaves of a register beside status and residual. -/
theorem State.rd_modelTick {a : Nat} (hs : a ≠ CH_MODEL_STAT n) (hr : a ≠ CH_MODEL_RES n) :
    (s.modelTick n).rd a = (s.modelEstimate n).rd a := by
  cases h : s.modelBlank n with
  | true => rw [modelTick_blank h, s.rd_modelNoted n hs]
  | false =>
    rw [modelTick_shown h, (State.chFrame_modelCount _ n _ _).1 a (by simpa using hs), State.modelShown, rd_wr_ne _ _ hr,
      s.rd_modelNoted n hs]
theorem State.estimates_modelTick : (s.modelTick n).rd (CH_MODEL_G n) =
      (if s.modelHold n then s.rd (CH_MODEL_G n) else s.modelNew n (CH_MODEL_G n) (s.modelV n)) ∧
    (s.modelTick n).rd (CH_MODEL_C n) =
      (if s.modelHold n then s.rd (CH_MODEL_C n) else s.modelNew n (CH_MODEL_C n) (s.modelDv n)) := by
  obtain ⟨-, gStat, cStat, -, gRes, cRes⟩ := modelRegs_ne n
  rw [s.rd_modelTick n gStat gRes, s.rd_modelTick n cStat cRes]
  exact s.rd_modelEstimate n
theorem State.res_modelTick : (s.modelTick n).rd (CH_MODEL_RES n) =
    if s.modelBlank n then s.rd (CH_MODEL_RES n) else wordOf (toQ (s.modelRho n)) := by
  obtain ⟨-, -, -, resStat, gRes, cRes⟩ := modelRegs_ne n
  cases h : s.modelBlank n with
  | true =>
    rw [modelTick_blank h, s.rd_modelNoted n resStat, (s.regFrame_modelEstimate n).1 _ (by simp [gRes.symm, cRes.symm])]
    rfl
  | false =>
    rw [modelTick_shown h, (State.chFrame_modelCount _ n _ _).1 _ (by simpa using resStat), State.modelShown, rd_wr_same]
    rfl
theorem State.held_modelTick : (s.modelTick n).bit (CH_MODEL_STAT n) fCH_MODEL_STAT_HELD = s.modelHold n := by
  obtain ⟨-, -, -, resStat, -⟩ := modelRegs_ne n
  cases h : s.modelBlank n with
  | true => rw [modelTick_blank h, s.held_modelNoted n]
  | false =>
    rw [modelTick_shown h, State.held_modelCount, State.modelShown, bit_congr (State.rd_wr_ne _ _ resStat.symm), s.held_modelNoted n]
theorem State.v1_modelTick : ((s.modelTick n).model n).v1 = (s.chan n).smp.v := by
  cases h : s.modelBlank n with
  | true => rw [modelTick_blank h, s.v1_modelNoted n]
  | false => rw [modelTick_shown h, State.v1_modelCount, State.modelShown, model_quiet (State.quiet_wr ..), s.v1_modelNoted n]
/-- COUNT of consecutive periods above the threshold (R149). -/
theorem State.count_modelTick : (s.modelTick n).fld (CH_MODEL_STAT n) fCH_MODEL_STAT_COUNT =
    if s.modelBlank n || (s.model n).settle != 0 then s.fld (CH_MODEL_STAT n) fCH_MODEL_STAT_COUNT
    else if s.modelOver n then min 255 (s.fld (CH_MODEL_STAT n) fCH_MODEL_STAT_COUNT + 1) else 0 := by
  obtain ⟨-, -, -, resStat, -⟩ := modelRegs_ne n
  cases h : s.modelBlank n with
  | true =>
    rw [modelTick_blank h, s.count_modelNoted n]
    rfl
  | false =>
    have count : (s.modelShown n).fld (CH_MODEL_STAT n) fCH_MODEL_STAT_COUNT = s.fld (CH_MODEL_STAT n) fCH_MODEL_STAT_COUNT :=
      (State.fld_congr (State.rd_wr_ne _ _ resStat.symm) _).trans (s.count_modelNoted n)
    rw [modelTick_shown h, State.count_modelCount, modelAbove_shown h, count]
    rfl
theorem State.episode_modelTick (hb : s.modelBlank n = false) (hs : (s.model n).settle = 0) (ha : s.modelOver n = false) :
    (s.modelTick n).bit (CH_MODEL_STAT n) fCH_MODEL_STAT_EPISODE = false := by
  rw [modelTick_shown hb, hs, modelAbove_shown hb, ha]
  exact State.episode_modelCount ..
theorem State.chFrame_modelTick :
    s.chFrame (s.modelTick n) n [CH_MODEL_G n, CH_MODEL_C n, CH_MODEL_RES n, CH_MODEL_STAT n] := by
  have noted := (s.chFrame_modelNoted n).mono (bs := [CH_MODEL_G n, CH_MODEL_C n, CH_MODEL_RES n, CH_MODEL_STAT n]) (by simp)
  cases h : s.modelBlank n with
  | true => exact modelTick_blank h ▸ noted
  | false =>
    have res : (s.modelNoted n).regFrame (s.modelShown n) [CH_MODEL_G n, CH_MODEL_C n, CH_MODEL_RES n, CH_MODEL_STAT n] :=
      ⟨State.regsOnly_wr _ _ (by simp), State.quiet_wr ..⟩
    have shown := noted.trans (res.chFrame n)
    exact modelTick_shown h ▸ shown.trans ((State.chFrame_modelCount _ n _ _).mono (by simp))

theorem State.modelBlank_iff : s.modelBlank n = true ↔ (s.chan n).smp.bridged = true ∨ (s.chan n).smp.ctrl = 6 := by
  simp [State.modelBlank]
theorem State.modelAbove_iff : s.modelAbove n = true ↔ ¬ s.modelBlank n = true ∧ ofQ (s.lv (CH_MODEL_TH n)).toNat < (s.modelRho n).natAbs := by
  simp [State.modelAbove, State.modelOver]
theorem State.modelHold_iff : s.modelHold n = true ↔ s.lfld (CH_MODEL_CTL n) fCH_MODEL_CTL_FREEZE ≠ 0 ∨
    (s.lfld (CH_MODEL_CTL n) fCH_MODEL_CTL_GATE ≠ 0 ∧ s.modelAbove n = true) ∨ s.modelBlank n = true := by
  simp [State.modelHold, or_assoc]

end

/-! ### The reciprocal (R145) -/

/-- The reciprocal is within 2^-16 of the exact one. -/
theorem recipN_close {m : Int} (h : one / 2 ^ 16 ≤ m) : (recipN m - one * one / m).natAbs * 2 ^ 16 ≤ (one * one / m).natAbs := by
  have pos : 0 ≤ one * one / m := Int.ediv_nonneg (by decide) (Int.le_trans (by decide) h)
  unfold recipN clampI
  dsimp only
  generalize one * one / m = e at *
  generalize Config.recip m.toNat = r
  split
  · omega
  · split <;> omega

/-! ### Gangs (R141, R142, R144) -/

section
variable {s : State} {n : Nat}

/-- A share message is the one that member n matches. -/
def State.shareFits (s : State) (n : Nat) (e : GangEntry) (x : Share) : Prop :=
  x.gang = (s.desc n).gang ∧ x.dev = e.dev ∧ x.leader = e.leaderCh ∧ x.range = s.irange n

theorem State.shareMatch_entry {e : GangEntry} (he : s.gangEntry (n / 32) (s.desc n).gang = some e) : s.shareMatch n =
    (s.shares.find? (fun x => x.gang == (s.desc n).gang && x.dev == e.dev && x.leader == e.leaderCh && x.range == s.irange n)).map
      (·.value) := by
  rw [State.shareMatch, he]
theorem State.shareMatch_some {v : Int} (h : s.shareMatch n = some v) :
    ∃ e x, s.gangEntry (n / 32) (s.desc n).gang = some e ∧ x ∈ s.shares ∧ s.shareFits n e x ∧ x.value = v := by
  cases he : s.gangEntry (n / 32) (s.desc n).gang with
  | none => simp [State.shareMatch, he] at h
  | some e =>
    rw [shareMatch_entry he, Option.map_eq_some_iff] at h
    obtain ⟨x, hx, hv⟩ := h
    have fits := List.find?_some hx
    exact ⟨e, x, rfl, List.mem_of_find?_eq_some hx, by simpa [State.shareFits, and_assoc] using fits, hv⟩
theorem State.shareMatch_none (h : s.shareMatch n = none) {e : GangEntry} (he : s.gangEntry (n / 32) (s.desc n).gang = some e) {x : Share}
    (hx : x ∈ s.shares) : ¬ s.shareFits n e x := by
  rw [shareMatch_entry he, Option.map_eq_none_iff, List.find?_eq_none] at h
  simpa [State.shareFits, and_assoc] using h x hx

end

section
variable (s : State) (n : Nat) (sum : Int) (count : Nat)

theorem State.received_leaderReport (h : count < 128) :
    (s.leaderReport (n, sum, count)).fld (CH_GANG_STAT n) fCH_GANG_STAT_RECEIVED = count := by
  rw [State.leaderReport, fld_raiseIf_apart _ _ _ (by decide)]
  exact s.fld_setFld_same _ _ _ (by decide) h
theorem State.short_leaderReport {e : GangEntry} (he : s.gangEntry (n / 32) (s.desc n).gang = some e) (h : e.members ≠ count) :
    (s.leaderReport (n, sum, count)).bit (CH_GANG_STAT n) fCH_GANG_STAT_COUNT_SHORT = true := by
  rw [State.leaderReport]
  exact State.bit_raiseIf _ _ (by decide) (by simp [he, h.symm])
theorem State.regFrame_leaderReport : s.regFrame (s.leaderReport (n, sum, count)) [CH_GANG_STAT n] :=
  (s.regFrame_setFld _ _ (by simp)).trans (State.regFrame_raiseIf _ _ _ (by simp))

end

end Sys2Proof.Machine
end

section
/-!
The plausibility fault of the load model, with the trip it may bring.
-/

namespace Sys2Proof.Machine

/-! ### The trip latch (R222) -/

/-- `t` is `s` but for the registers `as`, the channels' own state, messages and the event log; the model of channel n stays. -/
def State.tripFrame (s t : State) (n : Nat) (as : List Nat) : Prop :=
  s.regsOnly t as ∧ t.model n = s.model n ∧ ({ s with ch := t.ch } : State).logged t

section
variable {s t u : State} {n : Nat} {as : List Nat}

theorem State.tripFrame.trans (h : s.tripFrame t n as) (k : t.tripFrame u n as) : s.tripFrame u n as := by
  obtain ⟨h1, h2, h3, h4⟩ := h
  obtain ⟨k1, k2, k3, k4⟩ := k
  refine ⟨h1.trans k1, k2.trans h2, ?_, ?_⟩
  · rw [k3, h3]
  · unfold State.msgOnly at *
    rw [k4, h4]
theorem State.tripFrame_of_logged (hr : s.regsOnly t as) (h : s.logged t) : s.tripFrame t n as := by
  have same : t.ch = s.ch := by rw [h.1]
  refine ⟨hr, ?_, ?_⟩
  · rw [State.model, State.chan, same, State.model, State.chan]
  · rw [same]
    exact h
theorem State.regFrame.tripFrame (h : s.regFrame t as) : s.tripFrame t n as := State.tripFrame_of_logged h.1 h.2.logged
theorem State.tripFrame.refl (s : State) (n : Nat) (as : List Nat) : s.tripFrame s n as := (State.regFrame.refl s as).tripFrame
theorem State.tripFrame_updPg (s : State) (n : Nat) (f : ChSt → PgSt) (as : List Nat) :
    s.tripFrame (s.updChan n (fun c => { c with pg := f c })) n as :=
  ⟨fun _ _ => rfl, by rw [State.model, chan_updChan_same, State.model], rfl, rfl⟩
theorem State.tripFrame.mono {bs : List Nat} (h : s.tripFrame t n as) (hsub : as ⊆ bs) : s.tripFrame t n bs :=
  ⟨fun a ha => h.1 a fun hm => ha (hsub hm), h.2⟩
theorem State.tripFrame.later (h : s.tripFrame t n as) : t.later = s.later := by
  obtain ⟨-, -, frame, -⟩ := h
  rw [frame]
theorem State.tripFrame.tick (h : s.tripFrame t n as) : t.tick = s.tick := by
  obtain ⟨-, -, frame, -⟩ := h
  rw [frame]

end

theorem State.regFrame_wr (s : State) {a : Nat} (w : Word) {as : List Nat} (h : a ∈ as) : s.regFrame (s.wr a w) as :=
  ⟨s.regsOnly_wr w h, s.quiet_wr a w⟩
theorem State.regFrame_wr64 (s : State) {a : Nat} (v : Nat) {as : List Nat} (h : a ∈ as) (h4 : a + 4 ∈ as) : s.regFrame (s.wr64 a v) as :=
  (s.regFrame_wr _ h).trans (State.regFrame_wr _ _ h4)
theorem State.regFrame_chEvent (s : State) {n : Nat} (f : Fld) {as : List Nat} (h : CH_INT_STAT n ∈ as) : s.regFrame (s.chEvent n f) as :=
  ⟨fun _ hb => (s.rd_chEvent n f _).trans (s.rd_raise_ne f fun e => hb (e ▸ h)), s.quiet_chEvent n f⟩
theorem State.tripFrame_logEv (s : State) (src bit sev addr d0 d1 n : Nat) {as : List Nat} (h : MBX_EVT_STAT ∈ as) :
    s.tripFrame (s.logEv src bit sev addr d0 d1) n as :=
  tripFrame_of_logged (fun _ hb => s.rd_logEv_ne _ _ _ _ _ _ fun e => hb (e ▸ h)) (s.logged_logEv ..)
/-- The stamp's registers read as what was stored. -/
theorem State.rd64_wr64 (s : State) (a : Nat) {v : Nat} (h : v < 2 ^ 64) : (s.wr64 a v).rd64 a = v := by
  rw [State.rd64, State.wr64, rd_wr_same, rd_wr_ne _ _ (by omega), rd_wr_same, BitVec.toNat_ofNat, BitVec.toNat_ofNat]
  omega

/-- The latch sets by cause b: a pulse run ends, and the latch shows its cause. -/
def State.tripShown (s : State) (n b lane : Nat) : State :=
  let s1 := ((s.abortRun n).raise (PG_STAT n) fPG_STAT_TRIPPED).setFld (PG_TRIP_SRC n) fPG_TRIP_SRC_LAST b
  if b = 4 then s1.setFld (PG_TRIP_SRC n) fPG_TRIP_SRC_QUAD_LANE lane else s1
/-- It keeps when it set, and counts. -/
def State.tripStamped (s : State) (n stamp fine : Nat) : State :=
  ((s.wr64 (PG_TRIP_STAMP_LO n) stamp).setFld (PG_TRIP_FINE n) fPG_TRIP_FINE_CYCLE fine).incSat (PG_TRIP_CNT n) fWord
/-- The automatic releases are used up (R224). -/
def State.tripSpent (s : State) (n : Nat) : Bool :=
  decide (max 1 (fPG_REL_CTL_MAX.get (s.lv (PG_REL_CTL n))) ≤ s.fld (PG_STAT n) fPG_STAT_AUTO_COUNT)
/-- The wait for an automatic release starts again. -/
def State.tripQuiet (s : State) (n : Nat) (out : Bool) : State :=
  (s.updChan n (fun c => { c with pg := { c.pg with quiet := 0, exhausted := out } })).raiseIf out (PG_STAT n) fPG_STAT_AUTO_EXHAUSTED
/-- A trip has its entry of the event log and its interrupt bit. -/
def State.tripTold (s : State) (n b now : Nat) : State :=
  (s.logEv 1 (16 + b) 2 (PG_TRIP_SRC n) n (now / 2 ^ 32)).chEvent n fCH_INT_STAT_TRIP

/-- What keeps and reports a trip, once the latch shows it. -/
def State.tripReported (s : State) (n b stamp fine : Nat) (out : Bool) : State :=
  ((s.tripStamped n stamp fine).tripQuiet n out).tripTold n b stamp

section
variable {s : State} {n : Nat} (b lane fine : Nat)

/-- A latch that is set takes the cause's SEEN bit only. -/
theorem State.setTrip_tripped (h : s.bit (PG_STAT n) fPG_STAT_TRIPPED = true) :
    s.setTrip n b lane fine = s.setBitAt (PG_TRIP_SRC n) (16 + b) := if_pos h
theorem State.setTrip_new (h : s.bit (PG_STAT n) fPG_STAT_TRIPPED = false) : s.setTrip n b lane fine =
    ((s.setBitAt (PG_TRIP_SRC n) (16 + b)).tripShown n b lane).tripReported n b s.now fine (s.tripSpent n) := if_neg (by simp [h])

end

section
variable (s : State) (n b lane fine : Nat)

theorem State.tripFrame_abortRun {as : List Nat} (h : PG_STAT n ∈ as) : s.tripFrame (s.abortRun n) n as := by
  unfold State.abortRun
  split
  · exact (s.tripFrame_updPg n _ as).trans (State.regFrame.tripFrame (((State.regFrame_raise _ _ h).trans
      (State.regFrame_setBit _ _ _ h)).trans (State.regFrame_setBit _ _ _ h)))
  · exact .refl ..
theorem State.tripFrame_tripShown : s.tripFrame (s.tripShown n b lane) n [PG_STAT n, PG_TRIP_SRC n] := by
  have cause : s.tripFrame (((s.abortRun n).raise (PG_STAT n) fPG_STAT_TRIPPED).setFld (PG_TRIP_SRC n) fPG_TRIP_SRC_LAST b) n
      [PG_STAT n, PG_TRIP_SRC n] :=
    (s.tripFrame_abortRun n (by simp)).trans
      (State.regFrame.tripFrame ((State.regFrame_raise _ _ (by simp)).trans (State.regFrame_setFld _ _ _ (by simp))))
  unfold State.tripShown
  dsimp only
  split
  · exact cause.trans (State.regFrame_setFld _ _ _ (by simp)).tripFrame
  · exact cause
theorem State.regFrame_tripStamped (stamp : Nat) : s.regFrame (s.tripStamped n stamp fine)
    [PG_TRIP_STAMP_LO n, PG_TRIP_STAMP_LO n + 4, PG_TRIP_FINE n, PG_TRIP_CNT n] :=
  ((s.regFrame_wr64 _ (by simp) (by simp)).trans (State.regFrame_setFld _ _ _ (by simp))).trans (State.regFrame_incSat _ _ (by simp))
theorem State.tripFrame_tripQuiet (out : Bool) : s.tripFrame (s.tripQuiet n out) n [PG_STAT n] :=
  (s.tripFrame_updPg n _ _).trans (State.regFrame_raiseIf _ _ _ (by simp)).tripFrame
theorem State.tripFrame_tripTold (now : Nat) : s.tripFrame (s.tripTold n b now) n [MBX_EVT_STAT, CH_INT_STAT n] :=
  (s.tripFrame_logEv _ _ _ _ _ _ n (by simp)).trans (State.regFrame_chEvent _ _ (by simp)).tripFrame

/-- The registers that a trip may change beside the latch and its status. -/
def tripNotes (n : Nat) : List Nat :=
  [PG_TRIP_STAMP_LO n, PG_TRIP_STAMP_LO n + 4, PG_TRIP_FINE n, PG_TRIP_CNT n, MBX_EVT_STAT, CH_INT_STAT n]
/-- The registers that a trip may change. -/
def tripRegs (n : Nat) : List Nat := PG_STAT n :: PG_TRIP_SRC n :: tripNotes n

theorem tripStamped_notes : [PG_TRIP_STAMP_LO n, PG_TRIP_STAMP_LO n + 4, PG_TRIP_FINE n, PG_TRIP_CNT n] ⊆ tripNotes n := by
  simp [tripNotes]
theorem tripTold_notes : [MBX_EVT_STAT, CH_INT_STAT n] ⊆ tripNotes n := by simp [tripNotes]
theorem State.tripFrame_tripReported (stamp : Nat) (out : Bool) :
    s.tripFrame (s.tripReported n b stamp fine out) n (PG_STAT n :: tripNotes n) := by
  have stamped := (s.regFrame_tripStamped n fine stamp).tripFrame.mono (n := n) (List.subset_cons_of_subset (PG_STAT n) (tripStamped_notes n))
  have told := fun u : State => (u.tripFrame_tripTold n b stamp).mono (List.subset_cons_of_subset (PG_STAT n) (tripTold_notes n))
  exact (stamped.trans ((State.tripFrame_tripQuiet _ n out).mono (by simp))).trans (told _)

theorem State.tripFrame_setTrip : s.tripFrame (s.setTrip n b lane fine) n (tripRegs n) := by
  have seen : s.tripFrame (s.setBitAt (PG_TRIP_SRC n) (16 + b)) n (tripRegs n) :=
    (s.regFrame_setBitAt _ (by simp [tripRegs])).tripFrame
  cases h : s.bit (PG_STAT n) fPG_STAT_TRIPPED with
  | true =>
    rw [State.setTrip_tripped b lane fine h]
    exact seen
  | false =>
    rw [State.setTrip_new b lane fine h]
    have shown := seen.trans ((State.tripFrame_tripShown _ n b lane).mono (by simp [tripRegs]))
    exact shown.trans ((State.tripFrame_tripReported _ n b fine s.now _).mono (List.cons_subset_cons _ (List.subset_cons_self ..)))

end

/-- A channel's registers are none of the hub's of BAR4. -/
theorem chReg_ne_evt {n o : Nat} (hn : n < 512) (ho : o < 0x1000) : chBase n + o ≠ MBX_EVT_STAT := by
  simp only [chBase, cluBase, tileBase, MBX_EVT_STAT, bar4Base]
  omega
theorem pgRegs_apart {n : Nat} (hn : n < 512) : PG_STAT n ∉ PG_TRIP_SRC n :: tripNotes n ∧ PG_TRIP_SRC n ∉ PG_STAT n :: tripNotes n := by
  have hub : ∀ o, o < 0x1000 → chBase n + o ≠ MBX_EVT_STAT := fun o => chReg_ne_evt hn
  simp [tripNotes, PG_STAT, PG_TRIP_SRC, PG_TRIP_STAMP_LO, PG_TRIP_FINE, PG_TRIP_CNT, CH_INT_STAT, hub]
theorem fstamp_pair (n : Nat) : CH_MODEL_FSTAMP_LO n + 4 = CH_MODEL_FSTAMP_HI n := rfl
theorem modelRegs_not_trip {n : Nat} (hn : n < 512) :
    CH_MODEL_STAT n ∉ tripRegs n ∧ CH_MODEL_FSTAMP_LO n ∉ tripRegs n ∧ CH_MODEL_FSTAMP_HI n ∉ tripRegs n := by
  have hub : ∀ o, o < 0x1000 → chBase n + o ≠ MBX_EVT_STAT := fun o => chReg_ne_evt hn
  simp [tripRegs, tripNotes, CH_MODEL_STAT, CH_MODEL_FSTAMP_LO, CH_MODEL_FSTAMP_HI, PG_STAT, PG_TRIP_SRC, PG_TRIP_STAMP_LO, PG_TRIP_FINE, PG_TRIP_CNT,
    CH_INT_STAT, hub]

/-! ### What a trip shows (R222) -/

theorem pgStat_ne_src (n : Nat) : PG_STAT n ≠ PG_TRIP_SRC n := by
  unfold PG_STAT PG_TRIP_SRC
  omega

section
variable (s : State) (n b lane : Nat)

theorem State.tripped_tripShown : (s.tripShown n b lane).bit (PG_STAT n) fPG_STAT_TRIPPED = true := by
  have raised := (s.abortRun n).bit_raise (PG_STAT n) (f := fPG_STAT_TRIPPED) (by decide)
  have kept : ∀ (u : State) (f : Fld) (v : Nat), (u.setFld (PG_TRIP_SRC n) f v).rd (PG_STAT n) = u.rd (PG_STAT n) :=
    fun u f v => u.rd_setFld_ne f v (pgStat_ne_src n)
  unfold State.tripShown
  dsimp only
  split
  · rw [bit_congr (kept ..), bit_congr (kept ..), raised]
  · rw [bit_congr (kept ..), raised]
/-- The SEEN bits stay as they are. -/
theorem State.seen_tripShown {i : Nat} (h : 16 ≤ i) (hi : i < 32) :
    ((s.tripShown n b lane).rd (PG_TRIP_SRC n)).getLsbD i = (s.rd (PG_TRIP_SRC n)).getLsbD i := by
  have aborted : (s.abortRun n).rd (PG_TRIP_SRC n) = s.rd (PG_TRIP_SRC n) :=
    (s.tripFrame_abortRun n (List.mem_singleton.2 rfl)).1 _ (by simpa using (pgStat_ne_src n).symm)
  have kept : ∀ (f : Fld) (w : Word) (v : Nat), f.lsb + f.width ≤ 16 → (f.put w v).getLsbD i = w.getLsbD i := by
    intro f w v hf
    rw [Fld.getLsbD_put _ _ _ _ hi, if_neg (by omega)]
  have cause : ((((s.abortRun n).raise (PG_STAT n) fPG_STAT_TRIPPED).setFld (PG_TRIP_SRC n) fPG_TRIP_SRC_LAST b).rd
      (PG_TRIP_SRC n)).getLsbD i = (s.rd (PG_TRIP_SRC n)).getLsbD i := by
    rw [rd_setFld_same, kept _ _ _ (by decide), rd_raise_ne _ _ (pgStat_ne_src n).symm, aborted]
  unfold State.tripShown
  dsimp only
  split
  · rw [rd_setFld_same, kept _ _ _ (by decide), cause]
  · exact cause

end

section
variable (s : State) {n : Nat} (hn : n < 512) (b : Nat)
include hn

/-- What reports a trip leaves the latch's source. -/
theorem State.src_tripReported (stamp fine : Nat) (out : Bool) :
    (s.tripReported n b stamp fine out).rd (PG_TRIP_SRC n) = s.rd (PG_TRIP_SRC n) :=
  (s.tripFrame_tripReported n b fine stamp out).1 _ (pgRegs_apart hn).2
/-- It leaves the latch set. -/
theorem State.tripped_tripReported (stamp fine : Nat) (out : Bool) :
    (s.tripReported n b stamp fine out).bit (PG_STAT n) fPG_STAT_TRIPPED = s.bit (PG_STAT n) fPG_STAT_TRIPPED := by
  have notes : PG_STAT n ∉ tripNotes n := fun h => (pgRegs_apart hn).1 (List.mem_cons_of_mem _ h)
  have told := fun u : State => ((u.tripFrame_tripTold n b stamp).mono (tripTold_notes n)).1 _ notes
  have stamped := ((s.regFrame_tripStamped n fine stamp).tripFrame.mono (n := n) (tripStamped_notes n)).1 _ notes
  rw [State.tripReported, bit_congr (told _), State.tripQuiet, bit_raiseIf_apart _ _ _ (by decide), bit_congr (rd_updChan ..),
    bit_congr stamped]

theorem State.tripped_setTrip : (s.setTrip n b 0 0).bit (PG_STAT n) fPG_STAT_TRIPPED = true := by
  cases h : s.bit (PG_STAT n) fPG_STAT_TRIPPED with
  | true => rw [setTrip_tripped b 0 0 h, bit_congr (State.rd_setBitAt_ne _ _ (pgStat_ne_src n)), h]
  | false => rw [setTrip_new b 0 0 h, State.tripped_tripReported _ hn, State.tripped_tripShown]
theorem State.seen_setTrip (hb : b < 8) : ((s.setTrip n b 0 0).rd (PG_TRIP_SRC n)).getLsbD (16 + b) = true := by
  have seen : ((s.setBitAt (PG_TRIP_SRC n) (16 + b)).rd (PG_TRIP_SRC n)).getLsbD (16 + b) = true := by
    rw [rd_setBitAt_same, BitVec.getLsbD_or, BitVec.getLsbD_ofNat, Nat.testBit_two_pow_self]
    simp [show 16 + b < 32 by omega]
  cases h : s.bit (PG_STAT n) fPG_STAT_TRIPPED with
  | true => rw [setTrip_tripped b 0 0 h, seen]
  | false => rw [setTrip_new b 0 0 h, State.src_tripReported _ hn, State.seen_tripShown _ _ _ _ (by omega) (by omega), seen]

end

/-! ### A trip in cycle 399 (R222) -/

/-- Source TRIP selects the safe code at the next tick, unless the latch was set before. -/
def State.tripHolds (s : State) (n tick : Nat) (before : Bool) : State :=
  if before then s else s.after (tick + 1) (.hold n srcTrip true)

theorem State.tripSync_eq (s : State) (n b : Nat) : s.tripSync n b =
    (((s.setTrip n b 0 0).tripHolds n s.tick (s.bit (PG_STAT n) fPG_STAT_TRIPPED)).setBitAt (PG_TRIP_SRC n) b).updChan n
      (fun c => { c with pg := { c.pg with syncCause := true } }) := by
  unfold State.tripSync State.tripHolds
  rfl

section
variable (s : State) (n b : Nat)

theorem State.later_tripHolds (tick : Nat) (before : Bool) : (s.tripHolds n tick before).later =
    s.later ++ if before then [] else [(tick + 1, Later.hold n srcTrip true)] := by
  cases before
  · rfl
  · exact (List.append_nil _).symm
theorem State.rd_tripHolds (tick : Nat) (before : Bool) (a : Nat) : (s.tripHolds n tick before).rd a = s.rd a := by
  cases before <;> rfl
theorem State.model_tripHolds (tick : Nat) (before : Bool) : (s.tripHolds n tick before).model n = s.model n := by
  cases before <;> rfl

theorem State.later_tripSync : (s.tripSync n b).later =
    s.later ++ if s.bit (PG_STAT n) fPG_STAT_TRIPPED then [] else [(s.tick + 1, Later.hold n srcTrip true)] := by
  have kept := (s.tripFrame_setTrip n b 0 0).later
  rw [tripSync_eq, ← kept, ← later_tripHolds]
  simp
theorem State.tick_tripSync : (s.tripSync n b).tick = s.tick := by
  have held : ∀ (u : State) (before : Bool), (u.tripHolds n s.tick before).tick = u.tick := fun u before => by cases before <;> rfl
  simp [tripSync_eq, held, (s.tripFrame_setTrip n b 0 0).tick]
theorem State.model_tripSync : (s.tripSync n b).model n = s.model n := by
  obtain ⟨-, kept, -⟩ := s.tripFrame_setTrip n b 0 0
  rw [tripSync_eq, (State.tripFrame_updPg _ n _ []).2.1, model_quiet (State.quiet_setBitAt ..), model_tripHolds, kept]
theorem State.rd_tripSync (a : Nat) : (s.tripSync n b).rd a = ((s.setTrip n b 0 0).setBitAt (PG_TRIP_SRC n) b).rd a := by
  rw [tripSync_eq, rd_updChan]
  by_cases h : a = PG_TRIP_SRC n
  · subst h
    rw [rd_setBitAt_same, rd_setBitAt_same, rd_tripHolds]
  · rw [rd_setBitAt_ne _ _ h, rd_setBitAt_ne _ _ h, rd_tripHolds]
theorem State.rd_tripSync_ne {a : Nat} (h : a ∉ tripRegs n) : (s.tripSync n b).rd a = s.rd a := by
  have src : a ≠ PG_TRIP_SRC n := fun e => h (by simp [tripRegs, e])
  rw [rd_tripSync, rd_setBitAt_ne _ _ src, (s.tripFrame_setTrip n b 0 0).1 a h]

end

/-! ### The plausibility fault (R149, R150) -/

/-- The flags of a fault, its stamp, the EVENT condition where `act` asks for it, and the entry of the event log. -/
def State.plausNoted (s : State) (n act : Nat) : State :=
  ((((s.raise (CH_MODEL_STAT n) fCH_MODEL_STAT_FAULT).raise (CH_MODEL_STAT n) fCH_MODEL_STAT_EPISODE).wr64 (CH_MODEL_FSTAMP_LO n)
    s.now).updModel n (fun m => { m with cond := act.testBit 0 })).logEv 1 16 (if act.testBit 2 then 3 else 2) (CH_MODEL_STAT n) n
      (s.now / 2 ^ 32)
/-- The trip that `act` asks for. -/
def State.plausTrips (s : State) (n act : Nat) : State := if act.testBit 1 then s.tripSync n 5 else s
/-- The fault message that `act` asks for. -/
def State.plausFaults (s : State) (act : Nat) : State := if act.testBit 2 then s.faultNext 9 else s
/-- A plausibility fault, with what ACTION = `act` asks for and its interrupt bit. -/
def State.plausFault (s : State) (n act : Nat) : State :=
  (((s.plausNoted n act).plausTrips n act).plausFaults act).chEvent n fCH_INT_STAT_MODEL

section
variable {n : Ch} {s : State}

theorem exec_plausibilityFault_raised (hen : (s.desc n).modelEn = true) (run : s.inRun n = true)
    (h0 : s.lfld (CH_MODEL_CTL n) fCH_MODEL_CTL_N ≠ 0)
    (hcount : s.lfld (CH_MODEL_CTL n) fCH_MODEL_CTL_N ≤ s.fld (CH_MODEL_STAT n) fCH_MODEL_STAT_COUNT)
    (hep : s.bit (CH_MODEL_STAT n) fCH_MODEL_STAT_EPISODE = false) :
    exec (.plausibilityFault n) s = .next (s.plausFault n (s.lfld (CH_MODEL_CTL n) fCH_MODEL_CTL_ACTION)) := by
  have h0' : fCH_MODEL_CTL_N.get (s.lv (CH_MODEL_CTL n)) ≠ 0 := h0
  have hcount' : fCH_MODEL_CTL_N.get (s.lv (CH_MODEL_CTL n)) ≤ s.fld (CH_MODEL_STAT n) fCH_MODEL_STAT_COUNT := hcount
  change execPlausibilityFault n s = _
  rw [execPlausibilityFault]
  dsimp only
  rw [if_pos (by simp [hen, run, h0', hcount', hep])]
  rfl
/-- There is none below N, and none twice in an episode. -/
theorem exec_plausibilityFault_none (h : s.lfld (CH_MODEL_CTL n) fCH_MODEL_CTL_N = 0 ∨
    s.fld (CH_MODEL_STAT n) fCH_MODEL_STAT_COUNT < s.lfld (CH_MODEL_CTL n) fCH_MODEL_CTL_N ∨
    s.bit (CH_MODEL_STAT n) fCH_MODEL_STAT_EPISODE = true) : exec (.plausibilityFault n) s = .next s := by
  change execPlausibilityFault n s = _
  rw [execPlausibilityFault]
  dsimp only
  refine if_neg ?_
  simp only [State.lfld] at h
  rcases h with h | h | h
  · simp [h]
  · simp [Nat.not_le.2 h]
  · simp [h]

end

section
variable (s : State) (n act : Nat)

/-- The fault's registers before its entry of the log. -/
theorem State.rd_plausNoted {a : Nat} (h : a ≠ MBX_EVT_STAT) : (s.plausNoted n act).rd a =
    (((s.raise (CH_MODEL_STAT n) fCH_MODEL_STAT_FAULT).raise (CH_MODEL_STAT n) fCH_MODEL_STAT_EPISODE).wr64 (CH_MODEL_FSTAMP_LO n)
      s.now).rd a := by
  rw [State.plausNoted, rd_logEv_ne _ _ _ _ _ _ _ h, rd_updModel]
theorem State.regsOnly_plausNoted :
    s.regsOnly (s.plausNoted n act) [CH_MODEL_STAT n, CH_MODEL_FSTAMP_LO n, CH_MODEL_FSTAMP_HI n, MBX_EVT_STAT] := by
  intro a ha
  rw [s.rd_plausNoted n act fun e => ha (by simp [e])]
  exact (((s.regFrame_raise _ (by simp)).trans (State.regFrame_raise _ _ (by simp))).trans
    (State.regFrame_wr64 _ _ (by simp) (by simp [fstamp_pair]))).1 a ha
theorem State.model_plausNoted : ((s.plausNoted n act).model n).cond = act.testBit 0 := by
  have kept := fun u : State => (u.tripFrame_logEv 1 16 (if act.testBit 2 then 3 else 2) (CH_MODEL_STAT n) n (s.now / 2 ^ 32) n
    (as := [MBX_EVT_STAT]) (by simp)).2.1
  rw [State.plausNoted, kept, model_updModel]
theorem State.newest_plausNoted : (s.plausNoted n act).newest 1 16 (CH_MODEL_STAT n) n (s.now / 2 ^ 32) := State.newest_logEv ..
theorem State.agenda_plausNoted : (s.plausNoted n act).later = s.later ∧ (s.plausNoted n act).tick = s.tick := by
  have logged : ∀ {u v : State}, u.logged v → v.later = u.later ∧ v.tick = u.tick := by
    intro u v h
    rw [h.1]
    exact ⟨rfl, rfl⟩
  obtain ⟨later, tick⟩ := logged (State.logged_logEv ..)
  exact ⟨later.trans (by simp [State.updModel]), tick.trans (by simp [State.updModel])⟩

theorem modelStat_ne (n : Nat) : CH_MODEL_STAT n ≠ CH_MODEL_FSTAMP_LO n ∧ CH_MODEL_STAT n ≠ CH_MODEL_FSTAMP_LO n + 4 := by
  unfold CH_MODEL_STAT CH_MODEL_FSTAMP_LO
  omega
theorem State.flags_plausNoted (hn : n < 512) : (s.plausNoted n act).bit (CH_MODEL_STAT n) fCH_MODEL_STAT_FAULT = true ∧
    (s.plausNoted n act).bit (CH_MODEL_STAT n) fCH_MODEL_STAT_EPISODE = true := by
  obtain ⟨lo, hi⟩ := modelStat_ne n
  have evt : CH_MODEL_STAT n ≠ MBX_EVT_STAT := chReg_ne_evt hn (by decide)
  have kept : (s.plausNoted n act).rd (CH_MODEL_STAT n) =
      ((s.raise (CH_MODEL_STAT n) fCH_MODEL_STAT_FAULT).raise (CH_MODEL_STAT n) fCH_MODEL_STAT_EPISODE).rd (CH_MODEL_STAT n) := by
    rw [s.rd_plausNoted n act evt, State.wr64, rd_wr_ne _ _ hi, rd_wr_ne _ _ lo]
  rw [bit_congr kept, bit_congr kept]
  exact ⟨State.bit_raise_of_bit (by decide) (by decide) (s.bit_raise _ (by decide)), State.bit_raise _ _ (by decide)⟩
theorem State.stamp_plausNoted (hn : n < 512) : (s.plausNoted n act).rd64 (CH_MODEL_FSTAMP_LO n) = s.now := by
  have small : s.now < 2 ^ 64 := Nat.mod_lt _ (by decide)
  have lo : CH_MODEL_FSTAMP_LO n ≠ MBX_EVT_STAT := chReg_ne_evt hn (by decide)
  have hi : CH_MODEL_FSTAMP_LO n + 4 ≠ MBX_EVT_STAT := chReg_ne_evt (o := 0x32C) hn (by decide)
  rw [State.rd64, s.rd_plausNoted n act lo, s.rd_plausNoted n act hi]
  exact State.rd64_wr64 _ _ small

/-! ### What ACTION asks for (R150) -/

theorem State.rd_plausFaults (a : Nat) : (s.plausFaults act).rd a = s.rd a := by
  unfold State.plausFaults
  split <;> rfl
theorem State.own_plausFaults : (s.plausFaults act).ch = s.ch ∧ (s.plausFaults act).log = s.log := by
  unfold State.plausFaults
  split <;> exact ⟨rfl, rfl⟩
theorem State.later_plausFaults (h : act.testBit 2 = true) : (s.tick + 1, Later.fault 9) ∈ (s.plausFaults act).later := by
  rw [State.plausFaults, if_pos h]
  exact List.mem_append_right _ (List.mem_singleton.2 rfl)
theorem State.later_plausFaults_of_mem {x : Nat × Later} (h : x ∈ s.later) : x ∈ (s.plausFaults act).later := by
  unfold State.plausFaults
  split
  · exact List.mem_append_left _ h
  · exact h
theorem State.rd_plausTrips_ne {a : Nat} (h : a ∉ tripRegs n) : (s.plausTrips n act).rd a = s.rd a := by
  unfold State.plausTrips
  split
  · exact s.rd_tripSync_ne n 5 h
  · rfl
theorem State.model_plausTrips : (s.plausTrips n act).model n = s.model n := by
  unfold State.plausTrips
  split
  · exact s.model_tripSync n 5
  · rfl
theorem State.tick_plausTrips : (s.plausTrips n act).tick = s.tick := by
  unfold State.plausTrips
  split
  · exact s.tick_tripSync n 5
  · rfl

/-- The interrupt bit comes last, and leaves what is not its register. -/
theorem State.rd_plausFault {a : Nat} (h : a ≠ CH_INT_STAT n) :
    (s.plausFault n act).rd a = ((s.plausNoted n act).plausTrips n act).rd a := by
  rw [State.plausFault, rd_chEvent, rd_raise_ne _ _ h, rd_plausFaults]
theorem State.rd_plausFault_ne {a : Nat} (h : a ∉ tripRegs n) : (s.plausFault n act).rd a = (s.plausNoted n act).rd a := by
  rw [s.rd_plausFault n act fun e => h (by simp [tripRegs, tripNotes, e]), State.rd_plausTrips_ne _ n act h]
theorem State.model_plausFault : (s.plausFault n act).model n = (s.plausNoted n act).model n := by
  have faults : ∀ u : State, (u.plausFaults act).model n = u.model n := fun u => by
    rw [State.model, State.chan, (u.own_plausFaults act).1, State.model, State.chan]
  rw [State.plausFault, model_quiet (State.quiet_chEvent ..), faults, State.model_plausTrips]
theorem State.int_plausFault : (s.plausFault n act).bit (CH_INT_STAT n) fCH_INT_STAT_MODEL = true := by
  rw [State.plausFault, bit_congr (State.rd_chEvent ..)]
  exact State.bit_raise _ _ (by decide)
theorem State.later_plausFault : (s.plausFault n act).later = (((s.plausNoted n act).plausTrips n act).plausFaults act).later := by
  rw [State.plausFault, (State.quiet_chEvent ..).1]

/-- Where no trip is asked for, the fault's entry is the newest of the log. -/
theorem State.newest_plausFault (h : act.testBit 1 = false) :
    (s.plausFault n act).newest 1 16 (CH_MODEL_STAT n) n (s.now / 2 ^ 32) := by
  have noted : (s.plausNoted n act).plausTrips n act = s.plausNoted n act := if_neg (by simp [h])
  have entry := s.newest_plausNoted n act
  unfold State.newest at entry
  rw [← ((s.plausNoted n act).own_plausFaults act).2] at entry
  rw [State.plausFault, noted]
  exact State.newest_quiet entry (State.quiet_chEvent ..)
theorem State.regsOnly_plausFault (h : act.testBit 1 = false) : s.regsOnly (s.plausFault n act)
    [CH_MODEL_STAT n, CH_MODEL_FSTAMP_LO n, CH_MODEL_FSTAMP_HI n, CH_INT_STAT n, MBX_EVT_STAT] := by
  intro a ha
  simp only [List.mem_cons, List.not_mem_nil, or_false, not_or] at ha
  obtain ⟨hstat, hlo, hhi, hint, hevt⟩ := ha
  rw [s.rd_plausFault n act hint, State.plausTrips, if_neg (by simp [h]), s.regsOnly_plausNoted n act a (by simp [*])]

/-- Where one is asked for, the latch has set with cause 5 and its source selects the safe code at the next tick. -/
theorem State.trip_plausFault (hn : n < 512) (h : act.testBit 1 = true) :
    (s.plausFault n act).bit (PG_STAT n) fPG_STAT_TRIPPED = true ∧
    ((s.plausFault n act).rd (PG_TRIP_SRC n)).getLsbD 21 = true ∧
    (s.bit (PG_STAT n) fPG_STAT_TRIPPED = false → (s.tick + 1, Later.hold n srcTrip true) ∈ (s.plausFault n act).later) := by
  have trips : (s.plausNoted n act).plausTrips n act = (s.plausNoted n act).tripSync n 5 := if_pos h
  have apart : PG_STAT n ≠ CH_INT_STAT n ∧ PG_TRIP_SRC n ≠ CH_INT_STAT n := by
    unfold PG_STAT PG_TRIP_SRC CH_INT_STAT
    omega
  obtain ⟨stat, src⟩ := apart
  refine ⟨?_, ?_, fun free => ?_⟩
  · rw [bit_congr (s.rd_plausFault n act stat), trips, bit_congr (State.rd_tripSync ..),
      bit_congr (State.rd_setBitAt_ne _ _ (pgStat_ne_src n)), State.tripped_setTrip _ hn]
  · rw [s.rd_plausFault n act src, trips, State.rd_tripSync, State.rd_setBitAt_same, BitVec.getLsbD_or,
      State.seen_setTrip _ hn 5 (by decide), Bool.true_or]
  · have kept : (s.plausNoted n act).bit (PG_STAT n) fPG_STAT_TRIPPED = false := by
      have other : PG_STAT n ∉ [CH_MODEL_STAT n, CH_MODEL_FSTAMP_LO n, CH_MODEL_FSTAMP_HI n, MBX_EVT_STAT] := by
        have evt : chBase n + 0x524 ≠ MBX_EVT_STAT := chReg_ne_evt hn (by decide)
        simp [PG_STAT, CH_MODEL_STAT, CH_MODEL_FSTAMP_LO, CH_MODEL_FSTAMP_HI, evt]
      rw [bit_congr (s.regsOnly_plausNoted n act _ other), free]
    obtain ⟨later, tick⟩ := s.agenda_plausNoted n act
    rw [s.later_plausFault n act, trips]
    refine State.later_plausFaults_of_mem _ act ?_
    rw [State.later_tripSync, kept, tick]
    simp
theorem State.fault_plausFault (h : act.testBit 2 = true) : (s.tick + 1, Later.fault 9) ∈ (s.plausFault n act).later := by
  have mem := ((s.plausNoted n act).plausTrips n act).later_plausFaults act h
  rw [State.tick_plausTrips, (s.agenda_plausNoted n act).2] at mem
  rw [s.later_plausFault n act]
  exact mem

end

end Sys2Proof.Machine

open Sys2Proof Sys2Proof.Machine

/-- Settles O26: a period by `modelTick_eq`, the initialisation by `modelInit_eq`, a fault by `plausNoted` and what `tripSync` does, the
reciprocal by its bound. -/
theorem loadModel : Obligations.LoadModel := by
  unfold Obligations.LoadModel
  refine ⟨?reinit, fun n s hup h => exec_modelReinit_idle hup h, ?settle, ?fault, fun n s h => exec_modelSettleEnd_idle h,
    fun n s h => exec_plausibilityFault_none h, ?period, fun m hm => recipN_close hm, ?init, ?share, ?leader⟩
  case reinit =>
    intro n s hup hen run
    exact ⟨_, exec_modelReinit_run hup hen run, s.chan_updModel n _, s.chFrame_updChan n _ _⟩
  case settle =>
    intro n s h
    exact ⟨_, exec_modelSettleEnd_last h, s.chan_setSettle n 0, s.rd_setSettle n 0, s.chFrame_setSettle n 0 (List.mem_singleton.2 rfl)⟩
  case fault =>
    intro n s lim act hen run h0 hcount hep
    have hn : n.val < 512 := n.isLt
    obtain ⟨stat, lo, hi⟩ := modelRegs_not_trip hn
    obtain ⟨fault, episode⟩ := s.flags_plausNoted n act hn
    have stamp : (s.plausFault n act).rd64 (CH_MODEL_FSTAMP_LO n) = s.now := by
      rw [State.rd64, s.rd_plausFault_ne n act lo, fstamp_pair, s.rd_plausFault_ne n act hi, ← fstamp_pair]
      exact s.stamp_plausNoted n act hn
    refine ⟨_, exec_plausibilityFault_raised hen run h0 hcount hep, ?_, ?_, stamp, ?_, s.int_plausFault n act,
      fun h => ⟨s.newest_plausFault n act h, s.regsOnly_plausFault n act h⟩, s.trip_plausFault n act hn, s.fault_plausFault n act⟩
    · rw [State.bit_congr (s.rd_plausFault_ne n act stat), fault]
    · rw [State.bit_congr (s.rd_plausFault_ne n act stat), episode]
    · rw [s.model_plausFault n act, s.model_plausNoted n act]
  case period =>
    intro n s x m v dv rho nn est blank above hold count t
    have hblank : blank ↔ s.modelBlank n = true := (s.modelBlank_iff n).symm
    have habove : above ↔ s.modelAbove n = true := by
      rw [s.modelAbove_iff n, ← hblank]
      exact Iff.rfl
    have hhold : hold ↔ s.modelHold n = true := by
      rw [s.modelHold_iff n, ← habove, ← hblank]
    obtain ⟨g, c⟩ := s.estimates_modelTick n
    rw [hhold, hblank, habove]
    refine ⟨fun h => ?_, fun h => ?_, ?_, s.v1_modelTick n, fun h => ?_, fun h => ?_, ?_, fun hb hs ha => ?_, s.chFrame_modelTick n⟩
    · exact ⟨g.trans (if_pos h), c.trans (if_pos h)⟩
    · exact ⟨g.trans (if_neg h), c.trans (if_neg h)⟩
    · rw [s.held_modelTick n]
    · rw [s.res_modelTick n, if_pos h]
    · rw [s.res_modelTick n, if_neg h]
      rfl
    · rw [s.count_modelTick n]
      simp only [State.modelOver, decide_eq_true_eq]
      rfl
    · refine s.episode_modelTick n (by simpa using hb) hs ?_
      simpa [State.modelAbove, hb] using ha
  case init =>
    intro n s
    obtain ⟨-, gStat, cStat, -⟩ := modelRegs_ne n
    obtain ⟨g, c⟩ := s.rd_modelLoad n
    obtain ⟨count, episode⟩ := s.stat_modelInit n
    dsimp only
    rw [s.model_modelInit n, s.model_modelLoad n]
    exact ⟨(s.rd_modelInit n gStat).trans g, (s.rd_modelInit n cStat).trans c, rfl, rfl, s.settling_modelInit n, count, episode,
      s.chFrame_modelInit n⟩
  case share =>
    intro n s
    refine ⟨rfl, fun v hv => ?_, fun hnone e he x hx => State.shareMatch_none hnone he hx⟩
    obtain ⟨e, x, he, hx, ⟨gang, dev, leader, range⟩, value⟩ := State.shareMatch_some hv
    exact ⟨e, x, he, hx, gang, dev, leader, range, value⟩
  case leader =>
    intro n sum count s hcount
    exact ⟨s.received_leaderReport n sum count hcount, fun e he hne => s.short_leaderReport n sum count he hne,
      s.regFrame_leaderReport n sum count⟩

end

section
/-!
An output-mode change: the park buffer at t+8, the release of source MODE_SWITCH at t+16.
-/

namespace Sys2Proof.Machine

/-! ### A source that releases (R207) -/

section
variable (s : State) (n b : Nat)

theorem State.rd_parkBit_ne {a : Nat} (h : a ≠ CH_DAC_STAT n) : (s.parkBit n).rd a = s.rd a := s.rd_setBit_ne _ _ h
theorem State.regFrame_parkBit {as : List Nat} (h : CH_DAC_STAT n ∈ as) : s.regFrame (s.parkBit n) as := s.regFrame_setBit _ _ h
/-- PARK alone follows the sources. -/
theorem State.bit_parkBit_apart {g : Fld} (h : fCH_DAC_STAT_PARK.apart g) :
    (s.parkBit n).bit (CH_DAC_STAT n) g = s.bit (CH_DAC_STAT n) g := s.bit_setBit_apart _ _ h
theorem State.park_parkBit : (s.parkBit n).bit (CH_DAC_STAT n) fCH_DAC_STAT_PARK =
    (s.isHeld n && !s.bit (CH_DAC_STAT n) fCH_DAC_STAT_HIZ) := s.bit_setBit _ _ (by decide)

/-- A release takes the source's HOLD bit, and no other's. -/
theorem State.heldBy_releaseSrc (c : Nat) : (s.releaseSrc n b).heldBy n c = (s.heldBy n c && decide (c ≠ b)) := by
  have word : (s.releaseSrc n b).rd (CH_SAFE_SRC n) = s.rd (CH_SAFE_SRC n) &&& ~~~(BitVec.ofNat 32 (2 ^ b)) := by
    rw [State.releaseSrc, State.rd_parkBit_ne _ _ (safeSrc_ne_dacStat n n), State.rd_clrBitAt_same]
  simp only [State.heldBy, State.holdBits, State.fld, word, Fld.testBit_get, fCH_SAFE_SRC_HOLD, Nat.zero_add, BitVec.getLsbD_and,
    BitVec.getLsbD_not, BitVec.getLsbD_ofNat, Nat.testBit_two_pow]
  by_cases hc : c < 10
  · have small : c < 32 := by omega
    simp [hc, small, eq_comm]
  · simp [hc]
theorem State.bit_releaseSrc_apart {g : Fld} (h : fCH_DAC_STAT_PARK.apart g) :
    (s.releaseSrc n b).bit (CH_DAC_STAT n) g = s.bit (CH_DAC_STAT n) g := by
  rw [State.releaseSrc, State.bit_parkBit_apart _ _ h, bit_congr (State.rd_clrBitAt_ne _ _ (safeSrc_ne_dacStat n n).symm)]
theorem State.regFrame_releaseSrc : s.regFrame (s.releaseSrc n b) [CH_DAC_STAT n, CH_SAFE_SRC n] :=
  State.regFrame.trans ⟨s.regsOnly_wr _ (by simp), s.quiet_clrBitAt ..⟩ (State.regFrame_parkBit _ n (by simp))

end

/-! ### The two steps of a change (R203) -/

/-- The new mode is in force, and the ball is driven unless the cluster is OFF. -/
def State.modePark (s : State) (n : Nat) : State :=
  ((s.setBit (CH_DAC_STAT n) fCH_DAC_STAT_MODE (s.dac n).newMode).setBit (CH_DAC_STAT n) fCH_DAC_STAT_HIZ (s.pwr (n / 32) == 0)).parkBit n
/-- A change that is over. -/
def DacSt.modeOver (d : DacSt) : DacSt := { d with modeStart := none }
/-- The change is over, and its source releases. -/
def State.modeEnd (s : State) (n : Nat) : State :=
  ((s.updDac n DacSt.modeOver).setBit (CH_DAC_STAT n) fCH_DAC_STAT_SWITCHING false).releaseSrc n srcModeSwitch

section
variable {n : Ch} {x : Nat} {s : State} (h : (s.dac n).modeStart = some x)
include h

theorem exec_modeSwitchPark_due (due : s.tick + 1 = x + 8) : exec (.modeSwitchPark n) s = .next (s.modePark n) := by
  change execModeSwitchPark n s = _
  simp only [execModeSwitchPark, h, if_pos due]
  rfl
theorem exec_modeSwitchPark_early (early : s.tick + 1 ≠ x + 8) : exec (.modeSwitchPark n) s = .next s := by
  change execModeSwitchPark n s = _
  simp only [execModeSwitchPark, h, if_neg early]
theorem exec_modeSwitchEnd_due (due : s.tick + 1 = x + 16) : exec (.modeSwitchEnd n) s = .next (s.modeEnd n) := by
  change execModeSwitchEnd n s = _
  simp only [execModeSwitchEnd, h, if_pos due]
  rfl
theorem exec_modeSwitchEnd_early (early : s.tick + 1 ≠ x + 16) : exec (.modeSwitchEnd n) s = .next s := by
  change execModeSwitchEnd n s = _
  simp only [execModeSwitchEnd, h, if_neg early]

end

section
variable (s : State) (n : Nat)

theorem State.mode_modePark : (s.modePark n).bit (CH_DAC_STAT n) fCH_DAC_STAT_MODE = (s.dac n).newMode := by
  rw [State.modePark, State.bit_parkBit_apart _ _ (by decide), State.bit_setBit_apart _ _ _ (by decide), s.bit_setBit _ _ (by decide)]
theorem State.hiz_modePark : (s.modePark n).bit (CH_DAC_STAT n) fCH_DAC_STAT_HIZ = (s.pwr (n / 32) == 0) := by
  rw [State.modePark, State.bit_parkBit_apart _ _ (by decide), State.bit_setBit _ _ _ (by decide)]
/-- A powered ball that a source holds is driven by the park buffer. -/
theorem State.park_modePark : (s.modePark n).bit (CH_DAC_STAT n) fCH_DAC_STAT_PARK = (s.isHeld n && s.pwr (n / 32) != 0) := by
  have src : ∀ (u : State) (f : Fld) (b : Bool), (u.setBit (CH_DAC_STAT n) f b).isHeld n = u.isHeld n := fun u f b => by
    rw [State.isHeld, State.holdBits, State.fld_congr (u.rd_setBit_ne f b (safeSrc_ne_dacStat n n)), State.isHeld, State.holdBits]
  rw [State.modePark, State.park_parkBit, src, src, State.bit_setBit _ _ _ (by decide)]
  rfl
theorem State.regFrame_modePark : s.regFrame (s.modePark n) [CH_DAC_STAT n] :=
  ((s.regFrame_setBit _ _ (by simp)).trans (State.regFrame_setBit _ _ _ (by simp))).trans (State.regFrame_parkBit _ n (by simp))
theorem State.onlyRegs_modePark : s.onlyRegs (s.modePark n) :=
  ((s.onlyRegs_setBit ..).trans (State.onlyRegs_setBit ..)).trans (State.onlyRegs_setBit ..)

/-- But for the end of the change itself, the release and SWITCHING are all. -/
theorem State.regFrame_modeEnd : (s.updDac n DacSt.modeOver).regFrame (s.modeEnd n) [CH_DAC_STAT n, CH_SAFE_SRC n] :=
  (State.regFrame_setBit _ _ _ (by simp)).trans (State.regFrame_releaseSrc ..)
theorem State.chan_modeEnd : (s.modeEnd n).chan n = { s.chan n with dac := (s.dac n).modeOver } := by
  rw [chan_quiet (s.regFrame_modeEnd n).2, State.updDac, chan_updChan_same, State.dac]
theorem State.switching_modeEnd : (s.modeEnd n).bit (CH_DAC_STAT n) fCH_DAC_STAT_SWITCHING = false := by
  rw [State.modeEnd, State.bit_releaseSrc_apart _ _ _ (by decide), State.bit_setBit _ _ _ (by decide)]
theorem State.heldBy_modeEnd (b : Nat) : (s.modeEnd n).heldBy n b = (s.heldBy n b && decide (b ≠ srcModeSwitch)) := by
  have kept : ((s.updDac n DacSt.modeOver).setBit (CH_DAC_STAT n) fCH_DAC_STAT_SWITCHING false).rd (CH_SAFE_SRC n) =
      s.rd (CH_SAFE_SRC n) := by
    rw [State.rd_setBit_ne _ _ _ (safeSrc_ne_dacStat n n), State.updDac, State.rd_updChan]
  rw [State.modeEnd, State.heldBy_releaseSrc, State.heldBy, State.holdBits, State.fld_congr kept, State.heldBy, State.holdBits]
theorem State.chFrame_modeEnd : s.chFrame (s.modeEnd n) n [CH_DAC_STAT n, CH_SAFE_SRC n] :=
  (s.chFrame_updChan n _ _).trans ((s.regFrame_modeEnd n).chFrame n)

end

end Sys2Proof.Machine
end

section
/-!
A condition of current-mode supervision, with the trip it may bring.
-/

namespace Sys2Proof.Machine

/-! ### What a trip leaves of the channels (R222) -/

/-- Of the channels' own state, at most the pulse generator of channel n differs. -/
def State.pgOnly (s t : State) (n : Nat) : Prop := s.chansOnly t [n] ∧ t.chan n = { s.chan n with pg := (t.chan n).pg }

theorem State.chan_logged {s t : State} (h : s.logged t) (n : Nat) : t.chan n = s.chan n := by
  rw [h.1]
  rfl

section
variable {s t u : State} {n : Nat}

theorem State.pgOnly.trans (h : s.pgOnly t n) (k : t.pgOnly u n) : s.pgOnly u n := by
  obtain ⟨h1, h2⟩ := h
  obtain ⟨k1, k2⟩ := k
  refine ⟨fun m hm => (k1 m hm).trans (h1 m hm), ?_⟩
  rw [k2, h2]
theorem State.logged.pgOnly (h : s.logged t) : s.pgOnly t n := by
  refine ⟨fun m _ => chan_logged h m, ?_⟩
  rw [chan_logged h n]
theorem State.quiet.pgOnly (h : s.quiet t) : s.pgOnly t n := h.logged.pgOnly
theorem State.pgOnly.refl (s : State) (n : Nat) : s.pgOnly s n := ⟨fun _ _ => rfl, rfl⟩
theorem State.pgOnly_updPg (s : State) (n : Nat) (f : ChSt → PgSt) : s.pgOnly (s.updChan n (fun c => { c with pg := f c })) n := by
  refine ⟨fun m hm => s.chan_updChan_ne _ (by simpa using hm), ?_⟩
  rw [chan_updChan_same]
theorem State.pgOnly.dac (h : s.pgOnly t n) : t.dac n = s.dac n := by
  rw [State.dac, h.2, State.dac]

end

section
variable (s : State) (n b lane fine : Nat)

theorem State.pgOnly_abortRun : s.pgOnly (s.abortRun n) n := by
  unfold State.abortRun
  split
  · exact (s.pgOnly_updPg n _).trans (((State.quiet_raise ..).trans (State.quiet_setBit ..)).trans (State.quiet_setBit ..)).pgOnly
  · exact .refl ..
theorem State.pgOnly_tripShown : s.pgOnly (s.tripShown n b lane) n := by
  have cause := (s.pgOnly_abortRun n).trans
    ((State.quiet_raise _ (PG_STAT n) fPG_STAT_TRIPPED).trans (State.quiet_setFld _ (PG_TRIP_SRC n) fPG_TRIP_SRC_LAST b)).pgOnly
  unfold State.tripShown
  dsimp only
  split
  · exact cause.trans (State.quiet_setFld ..).pgOnly
  · exact cause
theorem State.pgOnly_tripReported (stamp : Nat) (out : Bool) : s.pgOnly (s.tripReported n b stamp fine out) n := by
  have quiet := fun u : State => (u.pgOnly_updPg n fun c => { c.pg with quiet := 0, exhausted := out }).trans
    (State.quiet_raiseIf _ out (PG_STAT n) fPG_STAT_AUTO_EXHAUSTED).pgOnly
  have told := fun u : State => ((u.logged_logEv 1 (16 + b) 2 (PG_TRIP_SRC n) n (stamp / 2 ^ 32)).trans
    (State.quiet_chEvent _ n fCH_INT_STAT_TRIP).logged).pgOnly (n := n)
  exact ((s.regFrame_tripStamped n fine stamp).2.pgOnly.trans (quiet _)).trans (told _)
theorem State.pgOnly_setTrip : s.pgOnly (s.setTrip n b lane fine) n := by
  have seen : s.pgOnly (s.setBitAt (PG_TRIP_SRC n) (16 + b)) n := (s.quiet_setBitAt ..).pgOnly
  cases h : s.bit (PG_STAT n) fPG_STAT_TRIPPED with
  | true =>
    rw [State.setTrip_tripped b lane fine h]
    exact seen
  | false =>
    rw [State.setTrip_new b lane fine h]
    exact (seen.trans (State.pgOnly_tripShown ..)).trans (State.pgOnly_tripReported ..)
theorem State.pgOnly_tripHolds (tick : Nat) (before : Bool) : s.pgOnly (s.tripHolds n tick before) n := by
  cases before <;> exact ⟨fun _ _ => rfl, rfl⟩
theorem State.pgOnly_tripSync : s.pgOnly (s.tripSync n b) n := by
  rw [State.tripSync_eq]
  exact (((s.pgOnly_setTrip n b 0 0).trans (State.pgOnly_tripHolds ..)).trans (State.quiet_setBitAt ..).pgOnly).trans
    (State.pgOnly_updPg ..)

end

/-! ### What ACTION asks for (R150, R211) -/

/-- The trip that `act` asks for, by cause `b`. -/
def State.actTrips (s : State) (n b act : Nat) : State := if act.testBit 1 then s.tripSync n b else s
/-- What ACTION = `act` asks for of a condition whose trips have cause `b`, and the condition's interrupt bit. -/
def State.acted (s : State) (n b act : Nat) (f : Fld) : State := ((s.actTrips n b act).plausFaults act).chEvent n f

section
variable (s : State) (n b act : Nat) (f : Fld)

theorem State.pgOnly_actTrips : s.pgOnly (s.actTrips n b act) n := by
  unfold State.actTrips
  split
  · exact s.pgOnly_tripSync n b
  · exact .refl ..
theorem State.rd_actTrips_ne {a : Nat} (h : a ∉ tripRegs n) : (s.actTrips n b act).rd a = s.rd a := by
  unfold State.actTrips
  split
  · exact s.rd_tripSync_ne n b h
  · rfl
theorem State.tick_actTrips : (s.actTrips n b act).tick = s.tick := by
  unfold State.actTrips
  split
  · exact s.tick_tripSync n b
  · rfl

/-- The interrupt bit comes last, and leaves what is not its register. -/
theorem State.rd_acted {a : Nat} (h : a ≠ CH_INT_STAT n) : (s.acted n b act f).rd a = (s.actTrips n b act).rd a := by
  rw [State.acted, rd_chEvent, rd_raise_ne _ _ h, State.rd_plausFaults]
theorem State.rd_acted_ne {a : Nat} (h : a ∉ tripRegs n) : (s.acted n b act f).rd a = s.rd a := by
  rw [s.rd_acted n b act f fun e => h (by simp [tripRegs, tripNotes, e]), s.rd_actTrips_ne n b act h]
theorem State.int_acted {f : Fld} (hf : f.flag) : (s.acted n b act f).bit (CH_INT_STAT n) f = true := by
  rw [State.acted, bit_congr (State.rd_chEvent ..)]
  exact State.bit_raise _ _ hf
theorem State.later_acted : (s.acted n b act f).later = ((s.actTrips n b act).plausFaults act).later := by
  rw [State.acted, (State.quiet_chEvent ..).1]
theorem State.pgOnly_acted : s.pgOnly (s.acted n b act f) n := by
  have faults : ∀ u : State, u.pgOnly (u.plausFaults act) n := fun u => by
    have same : ∀ m, (u.plausFaults act).chan m = u.chan m := fun m => by
      rw [State.chan, (u.own_plausFaults act).1, State.chan]
    refine ⟨fun m _ => same m, ?_⟩
    rw [same]
  exact ((s.pgOnly_actTrips n b act).trans (faults _)).trans (State.quiet_chEvent ..).pgOnly

/-- Where no trip is asked for, the event log and all registers but the interrupt bits stay. -/
theorem State.newest_acted (h : act.testBit 1 = false) {src bit addr d0 d1 : Nat} (entry : s.newest src bit addr d0 d1) :
    (s.acted n b act f).newest src bit addr d0 d1 := by
  unfold State.newest at entry
  rw [← (s.own_plausFaults act).2] at entry
  rw [State.acted, State.actTrips, if_neg (by simp [h])]
  exact State.newest_quiet entry (State.quiet_chEvent ..)
theorem State.regsOnly_acted (h : act.testBit 1 = false) : s.regsOnly (s.acted n b act f) [CH_INT_STAT n] := by
  intro a ha
  rw [s.rd_acted n b act f (by simpa using ha), State.actTrips, if_neg (by simp [h])]

/-- Where one is asked for, the latch has set, and its source selects the safe code at the next tick. -/
theorem State.tripped_acted (hn : n < 512) (h : act.testBit 1 = true) : (s.acted n b act f).bit (PG_STAT n) fPG_STAT_TRIPPED = true := by
  have int : PG_STAT n ≠ CH_INT_STAT n := by
    unfold PG_STAT CH_INT_STAT
    omega
  rw [bit_congr (s.rd_acted n b act f int), State.actTrips, if_pos h, bit_congr (State.rd_tripSync ..),
    bit_congr (State.rd_setBitAt_ne _ _ (pgStat_ne_src n)), State.tripped_setTrip _ hn]
theorem State.hold_acted (h : act.testBit 1 = true) (free : s.bit (PG_STAT n) fPG_STAT_TRIPPED = false) :
    (s.tick + 1, Later.hold n srcTrip true) ∈ (s.acted n b act f).later := by
  rw [s.later_acted n b act f, State.actTrips, if_pos h]
  refine State.later_plausFaults_of_mem _ act ?_
  rw [State.later_tripSync, free]
  simp
theorem State.fault_acted (h : act.testBit 2 = true) : (s.tick + 1, Later.fault 9) ∈ (s.acted n b act f).later := by
  have mem := (s.actTrips n b act).later_plausFaults act h
  rw [State.tick_actTrips] at mem
  rw [s.later_acted n b act f]
  exact mem

end

/-! ### The condition (R211) -/

/-- The condition of a detector is raised, and asks for EVENT where `event` says so. -/
def DacSt.supvRaise (compl event : Bool) (d : DacSt) : DacSt :=
  if compl then { d with complRaised := true, complCond := event } else { d with openRaised := true, openCond := event }
/-- Its sticky of CH_DAC_STAT. -/
def supvSticky (compl : Bool) : Fld := if compl then fCH_DAC_STAT_COMPL else fCH_DAC_STAT_OPEN
/-- The condition is raised with its sticky, and has its entry of the event log. -/
def State.supvNoted (s : State) (n : Nat) (compl : Bool) (act : Nat) : State :=
  ((s.updDac n (DacSt.supvRaise compl (act.testBit 0))).raise (CH_DAC_STAT n) (supvSticky compl)).logEv 1 (if compl then 9 else 8)
    (if act.testBit 2 then 3 else 2) (CH_DAC_STAT n) n 0
/-- A condition, with what ACTION = `act` asks for and its interrupt bit. -/
def State.supvRaised (s : State) (n : Nat) (compl : Bool) (act : Nat) : State :=
  (s.supvNoted n compl act).acted n (if compl then 7 else 6) act fCH_INT_STAT_SUPV

/-- The count of a detector. -/
def State.supvCnt (s : State) (n : Nat) (compl : Bool) : Nat :=
  s.fld (CH_DAC_STAT n) (if compl then fCH_DAC_STAT_COMPL_CNT else fCH_DAC_STAT_OPEN_CNT)
/-- Its N. -/
def State.supvLim (s : State) (n : Nat) (compl : Bool) : Nat :=
  s.lfld (CH_DAC_SUP_CTL n) (if compl then fCH_DAC_SUP_CTL_COMPL_N else fCH_DAC_SUP_CTL_OPEN_N)
/-- Its ACTION. -/
def State.supvAct (s : State) (n : Nat) (compl : Bool) : Nat :=
  s.lfld (CH_DAC_SUP_CTL n) (if compl then fCH_DAC_SUP_CTL_COMPL_ACT else fCH_DAC_SUP_CTL_OPEN_ACT)
/-- Its condition has been raised in this episode. -/
def DacSt.supvSeen (d : DacSt) (compl : Bool) : Bool := if compl then d.complRaised else d.openRaised

theorem exec_supvCondition (n : Ch) (compl : Bool) (s : State) : exec (.supvCondition n compl) s =
    if s.supvLim n compl != 0 && s.supvLim n compl ≤ s.supvCnt n compl && !(s.dac n).supvSeen compl then
      .next (s.supvRaised n compl (s.supvAct n compl)) else .next s := by
  cases compl <;> rfl

section
variable {n : Ch} {compl : Bool} {s : State}

theorem exec_supvCondition_raised (h0 : s.supvLim n compl ≠ 0) (hcount : s.supvLim n compl ≤ s.supvCnt n compl)
    (fresh : (s.dac n).supvSeen compl = false) :
    exec (.supvCondition n compl) s = .next (s.supvRaised n compl (s.supvAct n compl)) := by
  rw [exec_supvCondition, if_pos (by simp [h0, hcount, fresh])]
/-- There is none below N, and none twice in an episode. -/
theorem exec_supvCondition_none (h : s.supvLim n compl = 0 ∨ s.supvCnt n compl < s.supvLim n compl ∨ (s.dac n).supvSeen compl = true) :
    exec (.supvCondition n compl) s = .next s := by
  rw [exec_supvCondition]
  refine if_neg ?_
  rcases h with h | h | h
  · simp [h]
  · simp [Nat.not_le.2 h]
  · simp [h]

end

/-- What the channel holds of the condition of the detector that raises it. -/
theorem DacSt.supvRaise_shows (compl event : Bool) (d : DacSt) :
    if compl then (d.supvRaise compl event).complRaised = true ∧ (d.supvRaise compl event).complCond = event
    else (d.supvRaise compl event).openRaised = true ∧ (d.supvRaise compl event).openCond = event := by
  cases compl <;> exact ⟨rfl, rfl⟩

theorem dacStat_apart {n : Nat} (hn : n < 512) :
    CH_DAC_STAT n ≠ MBX_EVT_STAT ∧ CH_DAC_STAT n ∉ tripRegs n ∧ PG_STAT n ∉ [CH_DAC_STAT n, MBX_EVT_STAT] := by
  have evt : ∀ o, o < 0x1000 → chBase n + o ≠ MBX_EVT_STAT := fun o => chReg_ne_evt hn
  simp [tripRegs, tripNotes, CH_DAC_STAT, CH_INT_STAT, PG_STAT, PG_TRIP_SRC, PG_TRIP_STAMP_LO, PG_TRIP_FINE, PG_TRIP_CNT, evt]

section
variable (s : State) (n : Nat) (compl : Bool) (act : Nat)

/-- But for what the channel holds of its condition, it changes CH_DAC_STAT, messages and the event log. -/
theorem State.logged_supvNoted : (s.updDac n (DacSt.supvRaise compl (act.testBit 0))).logged (s.supvNoted n compl act) :=
  (State.quiet_raise ..).logged.trans (State.logged_logEv ..)
theorem State.rd_supvNoted {a : Nat} (h : a ≠ MBX_EVT_STAT) :
    (s.supvNoted n compl act).rd a = (s.raise (CH_DAC_STAT n) (supvSticky compl)).rd a :=
  State.rd_logEv_ne _ _ _ _ _ _ _ h
theorem State.regsOnly_supvNoted : s.regsOnly (s.supvNoted n compl act) [CH_DAC_STAT n, MBX_EVT_STAT] := by
  intro a ha
  simp only [List.mem_cons, List.not_mem_nil, or_false, not_or] at ha
  obtain ⟨hstat, hevt⟩ := ha
  rw [s.rd_supvNoted n compl act hevt, rd_raise_ne _ _ hstat]
theorem State.dac_supvNoted : (s.supvNoted n compl act).dac n = (s.dac n).supvRaise compl (act.testBit 0) := by
  rw [State.dac, chan_logged (s.logged_supvNoted n compl act), State.updDac, chan_updChan_same, State.dac]
theorem State.chansOnly_supvNoted : s.chansOnly (s.supvNoted n compl act) [n] := fun m hm =>
  (chan_logged (s.logged_supvNoted n compl act) m).trans (s.chan_updChan_ne _ (by simpa using hm))
theorem State.newest_supvNoted : (s.supvNoted n compl act).newest 1 (if compl then 9 else 8) (CH_DAC_STAT n) n 0 := State.newest_logEv ..
theorem State.tick_supvNoted : (s.supvNoted n compl act).tick = s.tick := by
  rw [(s.logged_supvNoted n compl act).1]
  rfl

theorem State.sticky_supvRaised (hn : n < 512) : (s.supvRaised n compl act).bit (CH_DAC_STAT n) (supvSticky compl) = true := by
  obtain ⟨evt, trip, -⟩ := dacStat_apart hn
  rw [State.supvRaised, bit_congr (State.rd_acted_ne _ n _ act _ trip), bit_congr (s.rd_supvNoted n compl act evt)]
  exact State.bit_raise _ _ (by cases compl <;> decide)
theorem State.dac_supvRaised : (s.supvRaised n compl act).dac n = (s.dac n).supvRaise compl (act.testBit 0) := by
  rw [State.supvRaised, (State.pgOnly_acted ..).dac, dac_supvNoted]
theorem State.chansOnly_supvRaised : s.chansOnly (s.supvRaised n compl act) [n] := fun m hm =>
  ((State.pgOnly_acted ..).1 m hm).trans (s.chansOnly_supvNoted n compl act m hm)
theorem State.trip_supvRaised (hn : n < 512) (h : act.testBit 1 = true) :
    (s.supvRaised n compl act).bit (PG_STAT n) fPG_STAT_TRIPPED = true ∧
    (s.bit (PG_STAT n) fPG_STAT_TRIPPED = false → (s.tick + 1, Later.hold n srcTrip true) ∈ (s.supvRaised n compl act).later) := by
  obtain ⟨-, -, pg⟩ := dacStat_apart hn
  refine ⟨State.tripped_acted _ n _ act _ hn h, fun free => ?_⟩
  rw [← bit_congr (s.regsOnly_supvNoted n compl act _ pg)] at free
  rw [← s.tick_supvNoted n compl act]
  exact State.hold_acted _ n _ act _ h free
theorem State.fault_supvRaised (h : act.testBit 2 = true) : (s.tick + 1, Later.fault 9) ∈ (s.supvRaised n compl act).later := by
  rw [← s.tick_supvNoted n compl act]
  exact State.fault_acted _ n _ act _ h
theorem State.regsOnly_supvRaised (h : act.testBit 1 = false) :
    s.regsOnly (s.supvRaised n compl act) [CH_DAC_STAT n, CH_INT_STAT n, MBX_EVT_STAT] := by
  intro a ha
  simp only [List.mem_cons, List.not_mem_nil, or_false, not_or] at ha
  obtain ⟨hstat, hint, hevt⟩ := ha
  rw [State.supvRaised, State.regsOnly_acted _ n _ act _ h a (by simpa using hint), s.regsOnly_supvNoted n compl act a (by simp [*])]

end

end Sys2Proof.Machine

open Sys2Proof Sys2Proof.Machine

/-- Settles O36: the two steps of a mode change by `modePark` and `modeEnd`, a condition by `supvNoted` and what ACTION asks for by
`acted`. -/
theorem modesAndSupervision : Obligations.ModesAndSupervision := by
  unfold Obligations.ModesAndSupervision
  refine ⟨⟨?park, ?release, fun n x s h => ⟨exec_modeSwitchPark_early h, exec_modeSwitchEnd_early h⟩⟩,
    fun n compl s => ⟨?raised, exec_supvCondition_none⟩⟩
  case park =>
    intro n x s h due
    obtain ⟨regs, -⟩ := s.regFrame_modePark n
    exact ⟨_, exec_modeSwitchPark_due h due, s.mode_modePark n, s.hiz_modePark n, s.park_modePark n, regs, s.onlyRegs_modePark n⟩
  case release =>
    intro n x s h due
    refine ⟨_, exec_modeSwitchEnd_due h due, s.chan_modeEnd n, s.switching_modeEnd n, ?_, fun b hb => ?_, s.chFrame_modeEnd n⟩
    · rw [s.heldBy_modeEnd n]
      simp
    · rw [s.heldBy_modeEnd n]
      simp [hb]
  case raised =>
    intro h0 hcount fresh
    have hn : n.val < 512 := n.isLt
    have shown := (s.dac n).supvRaise_shows compl ((s.supvAct n compl).testBit 0)
    rw [← s.dac_supvRaised n compl (s.supvAct n compl)] at shown
    exact ⟨_, exec_supvCondition_raised h0 hcount fresh, s.sticky_supvRaised n compl _ hn, State.int_acted _ n _ _ (by decide), shown,
      s.trip_supvRaised n compl _ hn, s.fault_supvRaised n compl _,
      fun h => ⟨State.newest_acted _ n _ _ _ h (s.newest_supvNoted n compl _), s.regsOnly_supvRaised n compl _ h⟩,
      s.chansOnly_supvRaised n compl _⟩

end
